-- ==== Sys2Proof/Word.lean ====
section
/-! DEFINITION. The byte and the 16-bit counter of the NCC-32. -/

namespace Sys2Proof

/-- A character code or a byte of a frame (spec/00 3.2). -/
abbrev Byte := BitVec 8

/-- A count that wraps after 65535: a story's version (R16), a face's generation (R118). -/
abbrev Word16 := BitVec 16

end Sys2Proof
end

