-- ==== Sys2Proof/Syntax.lean ====
section
/-! DEFINITION. The commands of the NCC-32: one constructor for each row of spec/opcode_table.json. An order's operands are the tag and the body of its frame (Table 11-4), so every check on a body is the model's to make; an event's operands are the line it comes on and what came. -/

namespace Sys2Proof

/-- A character frame as an asynchronous line delivers it (spec/04 4.1, R58): the data bits, the level of the parity bit, and whether the stop bit was found at mark. -/
structure RxFrame where
  data : Byte
  parity : Bool
  stop : Bool
  deriving DecidableEq, Repr

/-- The commands (spec/opcode_table.json). -/
inductive Instr where
  /-- POWER_ON (R193). -/
  | powerOn
  /-- RESTART_MADE (R193). -/
  | restartMade
  /-- FRAME_RECEIVED (R181). -/
  | frameReceived (bytes : List Byte)
  /-- GAP_TIMER_EXPIRY (R181). -/
  | gapTimerExpiry (bytes : List Byte)
  /-- HOST_LOST (R190). -/
  | hostLost
  /-- TRANSMIT_FRAME_END (R187). -/
  | transmitFrameEnd
  /-- UNASSIGNED_KIND (R184). -/
  | unassignedKind (kind tag : Byte) (body : List Byte)
  /-- CREATE_STORY (R18). Order kind 01h (Table 11-4). -/
  | createStory (tag : Byte) (body : List Byte)
  /-- READ_STORY (R19). Order kind 02h (Table 11-4). -/
  | readStory (tag : Byte) (body : List Byte)
  /-- SET_FLAGS (R20). Order kind 03h (Table 11-4). -/
  | setFlags (tag : Byte) (body : List Byte)
  /-- WRITE_TEXT (R21). Order kind 04h (Table 11-4). -/
  | writeText (tag : Byte) (body : List Byte)
  /-- READ_TEXT (R23). Order kind 05h (Table 11-4). -/
  | readText (tag : Byte) (body : List Byte)
  /-- SPIKE_STORY (R24). Order kind 06h (Table 11-4). -/
  | spikeStory (tag : Byte) (body : List Byte)
  /-- CLEAR_MARKS (R10). Order kind 07h (Table 11-4). -/
  | clearMarks (tag : Byte) (body : List Byte)
  /-- SET_DESK (R27). Order kind 08h (Table 11-4). -/
  | setDesk (tag : Byte) (body : List Byte)
  /-- READ_DESK (R28). Order kind 09h (Table 11-4). -/
  | readDesk (tag : Byte) (body : List Byte)
  /-- SET_BASKET (R30). Order kind 0Ah (Table 11-4). -/
  | setBasket (tag : Byte) (body : List Byte)
  /-- LIST_BASKET (R32). Order kind 0Bh (Table 11-4). -/
  | listBasket (tag : Byte) (body : List Byte)
  /-- MOVE_STORY (R36). Order kind 0Ch (Table 11-4). -/
  | moveStory (tag : Byte) (body : List Byte)
  /-- SET_STORY_KEY (R39). Order kind 0Dh (Table 11-4). -/
  | setStoryKey (tag : Byte) (body : List Byte)
  /-- SEND_MESSAGE (R42). Order kind 0Eh (Table 11-4). -/
  | sendMessage (tag : Byte) (body : List Byte)
  /-- SET_CLOCK (R47). Order kind 0Fh (Table 11-4). -/
  | setClock (tag : Byte) (body : List Byte)
  /-- START_CLOCK (R48). Order kind 10h (Table 11-4). -/
  | startClock (tag : Byte) (body : List Byte)
  /-- READ_CLOCK (R49). Order kind 11h (Table 11-4). -/
  | readClock (tag : Byte) (body : List Byte)
  /-- SET_DEADLINE (R53). Order kind 12h (Table 11-4). -/
  | setDeadline (tag : Byte) (body : List Byte)
  /-- REARM (R54). Order kind 13h (Table 11-4). -/
  | rearm (tag : Byte) (body : List Byte)
  /-- CLEAR_DEADLINE (R55). Order kind 14h (Table 11-4). -/
  | clearDeadline (tag : Byte) (body : List Byte)
  /-- ASSIGN_TERMINAL (R60). Order kind 15h (Table 11-4). -/
  | assignTerminal (tag : Byte) (body : List Byte)
  /-- DETACH_TERMINAL (R62). Order kind 16h (Table 11-4). -/
  | detachTerminal (tag : Byte) (body : List Byte)
  /-- READ_TERMINAL (R63). Order kind 17h (Table 11-4). -/
  | readTerminal (tag : Byte) (body : List Byte)
  /-- TAKE_KEYS (R71). Order kind 18h (Table 11-4). -/
  | takeKeys (tag : Byte) (body : List Byte)
  /-- PUT_SCREEN_TEXT (R77). Order kind 19h (Table 11-4). -/
  | putScreenText (tag : Byte) (body : List Byte)
  /-- FILL_BASE (R78). Order kind 1Ah (Table 11-4). -/
  | fillBase (tag : Byte) (body : List Byte)
  /-- SET_STATUS (R84). Order kind 1Bh (Table 11-4). -/
  | setStatus (tag : Byte) (body : List Byte)
  /-- REPAINT (R91). Order kind 1Ch (Table 11-4). -/
  | repaint (tag : Byte) (body : List Byte)
  /-- SET_WATCH (R92). Order kind 1Dh (Table 11-4). -/
  | setWatch (tag : Byte) (body : List Byte)
  /-- SET_ROTATION (R94). Order kind 1Eh (Table 11-4). -/
  | setRotation (tag : Byte) (body : List Byte)
  /-- READ_SESSION (R98). Order kind 1Fh (Table 11-4). -/
  | readSession (tag : Byte) (body : List Byte)
  /-- OPEN_WINDOW (R99). Order kind 20h (Table 11-4). -/
  | openWindow (tag : Byte) (body : List Byte)
  /-- CLOSE_WINDOW (R116). Order kind 21h (Table 11-4). -/
  | closeWindow (tag : Byte) (body : List Byte)
  /-- SET_WIDTHS (R119). Order kind 22h (Table 11-4). -/
  | setWidths (tag : Byte) (body : List Byte)
  /-- READ_WIDTHS (R121). Order kind 23h (Table 11-4). -/
  | readWidths (tag : Byte) (body : List Byte)
  /-- SET_SETTING (R123). Order kind 24h (Table 11-4). -/
  | setSetting (tag : Byte) (body : List Byte)
  /-- FIT_STORY (R135). Order kind 25h (Table 11-4). -/
  | fitStory (tag : Byte) (body : List Byte)
  /-- READ_FIT_QUEUE (R139). Order kind 26h (Table 11-4). -/
  | readFitQueue (tag : Byte) (body : List Byte)
  /-- QUEUE_JOB (R141). Order kind 27h (Table 11-4). -/
  | queueJob (tag : Byte) (body : List Byte)
  /-- SET_ARBITRATION (R150). Order kind 28h (Table 11-4). -/
  | setArbitration (tag : Byte) (body : List Byte)
  /-- SET_CHANNEL (R154). Order kind 29h (Table 11-4). -/
  | setChannel (tag : Byte) (body : List Byte)
  /-- RESUME (R156). Order kind 2Ah (Table 11-4). -/
  | resume (tag : Byte) (body : List Byte)
  /-- FLUSH_CHANNEL (R157). Order kind 2Bh (Table 11-4). -/
  | flushChannel (tag : Byte) (body : List Byte)
  /-- CANCEL_JOB (R158). Order kind 2Ch (Table 11-4). -/
  | cancelJob (tag : Byte) (body : List Byte)
  /-- READ_CHANNEL (R162). Order kind 2Dh (Table 11-4). -/
  | readChannel (tag : Byte) (body : List Byte)
  /-- SET_WIRE_LINE (R164). Order kind 2Eh (Table 11-4). -/
  | setWireLine (tag : Byte) (body : List Byte)
  /-- READ_WIRE_LINE (R165). Order kind 2Fh (Table 11-4). -/
  | readWireLine (tag : Byte) (body : List Byte)
  /-- SET_SELECTION (R170). Order kind 30h (Table 11-4). -/
  | setSelection (tag : Byte) (body : List Byte)
  /-- READ_SELECTION (R170). Order kind 31h (Table 11-4). -/
  | readSelection (tag : Byte) (body : List Byte)
  /-- SET_WIRE_RESERVE (R177). Order kind 32h (Table 11-4). -/
  | setWireReserve (tag : Byte) (body : List Byte)
  /-- SET_LINK_WATCH (R189). Order kind 33h (Table 11-4). -/
  | setLinkWatch (tag : Byte) (body : List Byte)
  /-- QUERY_PART (R192). Order kind 34h (Table 11-4). -/
  | queryPart (tag : Byte) (body : List Byte)
  /-- RESTART (R193). Order kind 35h (Table 11-4). -/
  | restart (tag : Byte) (body : List Byte)
  /-- CLOCK_TICK (R46). -/
  | clockTick
  /-- TERMINAL_CHARACTER_RECEIVED (R64). -/
  | terminalCharacterReceived (t : Fin 32) (frame : RxFrame)
  /-- TERMINAL_IDLE_EXPIRY (R65). -/
  | terminalIdleExpiry (t : Fin 32)
  /-- TERMINAL_BREAK (R66). -/
  | terminalBreak (t : Fin 32)
  /-- TEXT_KEY (R106). -/
  | textKey (t : Fin 32) (code : Byte)
  /-- NEW_PARAGRAPH (R106). -/
  | newParagraph (t : Fin 32)
  /-- DELETE_BACK (R107). -/
  | deleteBack (t : Fin 32)
  /-- DELETE_FORWARD (R107). -/
  | deleteForward (t : Fin 32)
  /-- INSERT_OVERTYPE_TOGGLE (R108). -/
  | insertOvertypeToggle (t : Fin 32)
  /-- CURSOR_LEFT (R109). -/
  | cursorLeft (t : Fin 32)
  /-- CURSOR_RIGHT (R109). -/
  | cursorRight (t : Fin 32)
  /-- CURSOR_UP (R109). -/
  | cursorUp (t : Fin 32)
  /-- CURSOR_DOWN (R109). -/
  | cursorDown (t : Fin 32)
  /-- PANE_SWITCH (R110). -/
  | paneSwitch (t : Fin 32)
  /-- CLEAR_MESSAGE (R44). -/
  | clearMessage (t : Fin 32)
  /-- REPAINT_KEY (R68). -/
  | repaintKey (t : Fin 32)
  /-- FUNCTION_KEY_PREFIX (R67). -/
  | functionKeyPrefix (t : Fin 32)
  /-- FUNCTION_KEY (R69). -/
  | functionKey (t : Fin 32) (key : Fin 16)
  /-- IGNORED_CODE (R67). -/
  | ignoredCode (t : Fin 32) (code : Byte)
  /-- TERMINAL_BYTE_SENT (R72). -/
  | terminalByteSent (t : Fin 32)
  /-- FLASH_ALERT_EXPIRY (R87). -/
  | flashAlertExpiry (t : Fin 32)
  /-- ROTATION_DWELL_EXPIRY (R96). -/
  | rotationDwellExpiry (t : Fin 32)
  /-- FIT_GRANT_END (R137). -/
  | fitGrantEnd
  /-- CHANNEL_GRANT_END (R146). -/
  | channelGrantEnd (c : Fin 4)
  /-- TYPESETTER_BYTE_SENT (R152). -/
  | typesetterByteSent (c : Fin 4)
  /-- TYP_READY (R155). -/
  | typReady (c : Fin 4) (level : Bool)
  /-- BATCH_WAIT_EXPIRY (R152). -/
  | batchWaitExpiry (c : Fin 4)
  /-- CHANNEL_STALL (R155). -/
  | channelStall (c : Fin 4)
  /-- WIRE_CHARACTER_RECEIVED (R166). -/
  | wireCharacterReceived (w : Fin 4) (frame : RxFrame)
  /-- WIRE_BREAK (R166). -/
  | wireBreak (w : Fin 4)
  /-- WIRE_INTAKE_CHARACTER (R166). -/
  | wireIntakeCharacter (w : Fin 4)
  /-- WIRE_SILENCE_EXPIRY (R176). -/
  | wireSilenceExpiry (w : Fin 4)
  /-- LINK_LENGTH_ERROR (R180). -/
  | linkLengthError (hi lo : Byte)
  deriving DecidableEq, Repr

end Sys2Proof
end

