-- ==== Sys2Proof/Decode.lean ====
section
/-! DEFINITION. The table's words. No row of spec/opcode_table.json gives its command any bits ("fields" is empty and "fixed" is absent in all 93 rows), so no word spells a command. -/

namespace Sys2Proof

/-- The command that a word spells by the table's bits: none, since no row gives bits. -/
def decodeTableWord (_nbits _w : Nat) : Option Instr := none

end Sys2Proof
end

