-- ==== Sys2Proof/Config.lean ====
section
/-! DEFINITION. The capacities and periods that the spec fixes for every NCC-32. No value of this part is left to an implementation and no result is called undefined, so there is no free value here. -/

namespace Sys2Proof.Config

/-- Blocks of copy memory (R1). -/
def blocks : Nat := 8192
/-- Characters a block holds (Table 1-1). -/
def blockChars : Nat := 240
/-- Where a full block is split (R5). -/
def splitAt : Nat := 120
/-- Blocks a chain holds at most (R3). -/
def chainMax : Nat := 256
/-- Characters a story holds at most (R3). -/
def storyMax : Nat := 61440
/-- Story entries (1.4). -/
def stories : Nat := 1024
/-- Frames of the inbound queue (R183). -/
def inboundMax : Nat := 8
/-- Replies of the reply queue (R185). -/
def repliesMax : Nat := 8
/-- Reports of the Key Report Queue (R69). -/
def keysMax : Nat := 64
/-- Stories of the Fit Queue (R133). -/
def fitMax : Nat := 8
/-- Jobs of a channel's queue (R140). -/
def jobsMax : Nat := 4
/-- Entries of a channel's line queue (R145). -/
def linesMax : Nat := 128
/-- Lines a grant sets at most, and the free entries a request needs (R132, R146). -/
def grantLines : Nat := 64
/-- Bytes of a channel's output FIFO (R151). -/
def outFifo : Nat := 64
/-- Results of a finished list (R161). -/
def finishedMax : Nat := 4
/-- Characters of a receive FIFO, terminal or wire (R64, R166). -/
def rxFifo : Nat := 16
/-- Bytes of a terminal's transmit FIFO (R72). -/
def txFifo : Nat := 32
/-- The level of a transmit FIFO at which more bytes are asked for (R72). -/
def txLow : Nat := 8
/-- The largest wire reserve (R177). -/
def reserveMax : Nat := 4096
/-- The wire reserve at power-on (R177). -/
def reserveReset : Nat := 256
/-- Seconds of a day (3.1). -/
def daySeconds : Nat := 86400

/-- One second of the reference oscillator, in the model's milliseconds. -/
def second : Nat := 1000
/-- The gap limit of the control link (R181). -/
def gapMs : Nat := 50
/-- The flash alert period (R87). -/
def flashMs : Nat := 60 * second
/-- The wire silence limit (R176). -/
def silenceMs : Nat := 90 * second

/-- Vendor code, part code and revision (R192). -/
def vendor : Nat := 0x4D47
def part : Nat := 0x0032
def revision : Nat := 0x0001

/-- The capacities QUERY PART reports, in the order of R192. -/
def capacities : List Nat := [8192, 1024, 64, 16, 32, 4, 4, 8, 4, 32, 64, 8, 8]

end Sys2Proof.Config
end

