-- ==== Sys2Proof/Machine/State.lean ====
section
/-! DEFINITION. The state of the NCC-32 as plain data: every register, FIFO, buffer, queue, timer and pin the spec gives the blocks of Table 0-1, and the queue of the commands that wait. -/

namespace Sys2Proof.Machine

/-- A sparse table: pairs of a number and an entry, numbers strictly rising. A number that is not listed has no entry. -/
abbrev Tab (α : Type) := List (Nat × α)

/-! ### Copy memory (spec/01) -/

/-- A block of copy memory: its characters in positions 0 to fill − 1, and its change flag (Table 1-1). Its next field is computed from the chains (log entry 7). -/
structure Block where
  chars : List Byte
  changed : Bool
  deriving DecidableEq, Repr

/-- A free block: fill 0, change flag clear (R1). -/
def Block.free : Block := ⟨[], false⟩

/-- Copy memory: the blocks that are not free, by number. An unlisted block is free. -/
abbrev Memory := Tab Block

/-- Priority class of a story (Table 1-6). -/
inductive Priority where
  | flash | urgent | routine
  deriving DecidableEq, Repr

/-- Fit status (Table 7-4). -/
inductive FitStatus where
  | unknown | pending | none | short | on | over
  deriving DecidableEq, Repr

/-- A setting: face, size in half-points, measure in points, leading in half-points, indent and budget in points (Table 7-1). -/
structure Setting where
  face : Fin 8
  size : Nat
  measure : Nat
  leading : Nat
  indent : Nat
  budget : Nat
  deriving DecidableEq, Repr

/-- The part default setting (R13). -/
def Setting.partDefault : Setting := ⟨0, 18, 60, 20, 0, 0⟩

/-- A fit record (Table 1-6). -/
structure FitRecord where
  status : FitStatus
  depth : Nat
  lines : Nat
  loose : Nat
  forced : Nat
  version : Word16
  deriving DecidableEq, Repr

/-- The fit record of a new story (R13). -/
def FitRecord.fresh : FitRecord := ⟨.unknown, 0, 0, 0, 0, 0⟩

/-- A story's state with its lock holder, which is present exactly when the state is not IDLE (R14). -/
inductive Holding where
  | idle
  | filing (w : Fin 4)
  | editing (t : Fin 32)
  | setting (c : Fin 4)
  deriving DecidableEq, Repr

/-- Origin of a wire story (Table 1-6). -/
structure Origin where
  line : Fin 4
  code : List Byte
  deriving DecidableEq, Repr

/-- A story entry in use (Table 1-6). Its length is the sum of the fills of its chain (R3). -/
structure Story where
  slug : List Byte
  basket : Fin 64
  priority : Priority
  holding : Holding
  key : Fin 16
  embargo : Bool
  garbled : Bool
  cut : Bool
  chain : List Nat
  version : Word16
  filed : Option Nat
  moved : Option Nat
  origin : Option Origin
  setting : Setting
  fit : FitRecord
  deriving DecidableEq, Repr

/-! ### Desks and baskets (spec/02) -/

/-- The rights of a desk over one basket (Table 2-1). -/
structure Rights where
  view : Bool
  take : Bool
  send : Bool
  deriving DecidableEq, Repr

/-- A desk record (R26). -/
structure Desk where
  name : List Byte
  row : Vector Rights 64
  deriving DecidableEq, Repr

/-- A desk at power-on (R26). -/
def Desk.reset : Desk := ⟨[], Vector.replicate 64 ⟨false, false, false⟩⟩

/-- A full message slot (R41). -/
structure Message where
  text : List Byte
  sender : Fin 16
  deriving DecidableEq, Repr

/-- A basket record (R29). -/
structure Basket where
  name : List Byte
  edition : Fin 5
  default : Option Setting
  list : List Nat
  deriving DecidableEq, Repr

/-- A basket at power-on (R29). -/
def Basket.reset : Basket := ⟨[], 0, none, []⟩

/-! ### Clock and editions (spec/03) -/

/-- Clock state (Table 3-1). -/
inductive ClockState where
  | unset | stopped | running
  deriving DecidableEq, Repr

/-- The clock, with the reading its next tick is counted from (R45, R46). -/
structure Clock where
  state : ClockState
  value : Nat
  tickFrom : Nat
  deriving DecidableEq, Repr

/-- Edition state (Table 3-2). -/
inductive EditionState where
  | unarmed | armed | passed
  deriving DecidableEq, Repr

/-- An edition deadline record (Table 3-2). -/
structure Edition where
  time : Nat
  state : EditionState
  deriving DecidableEq, Repr

/-! ### Terminal lines (spec/04) -/

/-- Parity of a line (Table 4-1). -/
inductive Parity where
  | none | even | odd
  deriving DecidableEq, Repr

/-- A line format (Table 4-1). -/
structure LineFormat where
  rate : Nat
  dataBits : Nat
  parity : Parity
  stopBits : Nat
  deriving DecidableEq, Repr

/-- 9600 bit/s, 8 data bits, no parity, 1 stop bit (R59, R163). -/
def LineFormat.reset : LineFormat := ⟨9600, 8, .none, 1⟩

/-- Screen layout (Table 4-2). -/
inductive Layout where
  | full | split
  deriving DecidableEq, Repr

/-- A frame that a terminal line sends: the data bits, their number, the parity bit where the format has one, and the number of stop bits (R58). -/
structure TxFrame where
  data : Byte
  dataBits : Nat
  parity : Option Bool
  stopBits : Nat
  deriving DecidableEq, Repr

/-- The sending side of a terminal line: at rest, or sending the frame of a byte that is still the head of the FIFO or was emptied out of it while it was sent (R58, R72). -/
inductive LineTx where
  | rest
  | busy (f : TxFrame) (inFifo : Bool)
  deriving DecidableEq, Repr

/-- A Terminal Line Unit (Table 4-2, R59, R64 to R67, R72). -/
structure Line where
  attached : Bool
  desk : Fin 16
  key : Fin 16
  layout : Layout
  format : LineFormat
  trigger : Nat
  rx : List Byte
  batch : List Byte
  pfx : Bool
  idle : Bool
  tx : List Byte
  sending : LineTx
  deriving DecidableEq, Repr

/-- A terminal line at power-on (R59). -/
def Line.reset : Line := ⟨false, 0, 0, .full, LineFormat.reset, 1, [], [], false, false, [], .rest⟩

/-- A key report (Table 4-4); edit story 0 is none. -/
structure KeyReport where
  terminal : Fin 32
  key : Fin 16
  story : Nat
  offset : Nat
  time : Option Nat
  deriving DecidableEq, Repr

/-! ### Screens (spec/05) -/

/-- Cell attribute. -/
inductive Attr where
  | normal | bright | inverse | underline
  deriving DecidableEq, Repr

/-- A cell of a screen. -/
structure Cell where
  ch : Byte
  attr : Attr
  deriving DecidableEq, Repr

/-- A space with attribute normal. -/
def Cell.blank : Cell := ⟨0x20#8, .normal⟩

/-- A row of 80 cells at power-on. -/
def blankRow : List Cell := List.replicate 80 Cell.blank

/-- A rotation record: 1 to 4 baskets, the dwell in seconds, skip-empty, the position shown (from 1) and the reading the dwell timer started from (R75, R94). -/
structure Rotation where
  baskets : List (Fin 64)
  dwell : Nat
  skipEmpty : Bool
  position : Nat
  dwellFrom : Nat
  deriving DecidableEq, Repr

/-- A terminal's mode, with its watch target exactly in WATCHING and its rotation record exactly in ROTATING (R75). -/
inductive Mode where
  | normal
  | watching (target : Fin 32)
  | rotating (r : Rotation)
  deriving DecidableEq, Repr

/-- A flash alert that is SHOWING: the first 10 characters of the slug and the reading its 60-second timer started from (R87). -/
structure Flash where
  slug : List Byte
  since : Nat
  deriving DecidableEq, Repr

/-- The composed image: 24 rows of 80 cells and the rest position, row and column (R75, R90). -/
structure Image where
  rows : List (List Cell)
  rest : Nat × Nat
  deriving DecidableEq, Repr

/-- Nothing composed: spaces and row 24, column 80 (log entry 6). -/
def Image.blank : Image := ⟨List.replicate 24 blankRow, (24, 80)⟩

/-- A known sent image: 24 rows, the cursor cell and the current attribute (R75). -/
structure Sent where
  rows : List (List Cell)
  cursor : Nat × Nat
  attr : Attr
  deriving DecidableEq, Repr

/-- The sent image once a clear screen code is placed (R91). -/
def Sent.cleared : Sent := ⟨List.replicate 24 blankRow, (1, 1), .normal⟩

/-- A terminal's Screen Composer record (R75); sent none is UNKNOWN; marks is the row-change set in rising order; hand is the row in hand and its codes not yet placed; waiting says that the emitter has stopped for want of room (R89). -/
structure Screen where
  base : List (List Cell)
  status : List Byte
  mode : Mode
  flash : Option Flash
  composed : Image
  sent : Option Sent
  marks : List Nat
  bell : Bool
  hand : Option (Nat × List (List Byte))
  last : Option Nat
  waiting : Bool
  deriving DecidableEq, Repr

/-- A screen at power-on (R75). -/
def Screen.reset : Screen :=
  ⟨List.replicate 23 blankRow, [], .normal, none, Image.blank, none, [], false, none, none, false⟩

/-! ### Edit sessions (spec/06) -/

/-- How a text key acts (R97). -/
inductive EditMode where
  | insert | overtype
  deriving DecidableEq, Repr

/-- Which pane takes the cursor and scroll keys (R97). -/
inductive Focus where
  | edit | reference
  deriving DecidableEq, Repr

/-- An open edit session (R97). -/
structure Session where
  story : Nat
  top : Nat
  cursor : Nat
  mode : EditMode
  focus : Focus
  modified : Bool
  deriving DecidableEq, Repr

/-- An open reference pane (R97). -/
structure RefPane where
  story : Nat
  top : Nat
  deriving DecidableEq, Repr

/-- The pane records of a terminal; none is closed (R97). -/
structure Panes where
  session : Option Session
  ref : Option RefPane
  deriving DecidableEq, Repr

/-! ### Faces and the Fit Queue (spec/07) -/

/-- A face record (R118). -/
structure Face where
  loaded : Bool
  widths : Vector Nat 95
  minSpace : Nat
  maxSpace : Nat
  generation : Word16
  deriving DecidableEq, Repr

/-- A face at power-on (R118). -/
def Face.reset : Face := ⟨false, Vector.replicate 95 0, 0, 0, 0⟩

/-- Where the next line of a story begins: the paragraph's ordinal, the offset in the story, and whether the line is its paragraph's first (R132). -/
structure Resume where
  para : Nat
  offset : Nat
  first : Bool
  deriving DecidableEq, Repr

/-- The start of a story. -/
def Resume.start : Resume := ⟨1, 0, true⟩

/-- A story waiting in the Fit Queue with its restart count (R133). -/
structure FitItem where
  story : Nat
  restarts : Nat
  deriving DecidableEq, Repr

/-- A fit in progress (R133). -/
structure FitProgress where
  story : Nat
  version : Word16
  setting : Setting
  generation : Word16
  resume : Resume
  lines : Nat
  loose : Nat
  forced : Nat
  inFlight : Bool
  abandoned : Bool
  deriving DecidableEq, Repr

/-- The Fit Queue (R133). -/
structure FitQueue where
  list : List FitItem
  progress : Option FitProgress
  deriving DecidableEq, Repr

/-! ### Typesetter channels and the Engine Arbiter (spec/08) -/

/-- Entry mode (Table 8-2). -/
inductive EntryMode where
  | whole | changed
  deriving DecidableEq, Repr

/-- A job entry (Table 8-2); sent says that its STORY END has left the FIFO (R161). -/
structure Entry where
  story : Nat
  mode : EntryMode
  face : Option (Fin 8)
  size : Option Nat
  measure : Option Nat
  leading : Option Nat
  indent : Option Nat
  released : Bool
  sent : Bool
  deriving DecidableEq, Repr

/-- A job; its channel is the one whose queue holds it (Table 8-1). -/
structure Job where
  number : Nat
  edition : Fin 5
  entries : List Entry
  deriving DecidableEq, Repr

/-- Job outcome (R161). -/
inductive JobOutcome where
  | done | cancelled
  deriving DecidableEq, Repr

/-- ABANDON mark of a result (R161). -/
inductive AbandonMark where
  | notApplicable | sent | notSent
  deriving DecidableEq, Repr

/-- A job result of a finished list (R161). -/
structure JobResult where
  number : Nat
  edition : Fin 5
  outcome : JobOutcome
  entries : Nat
  sent : Nat
  abandon : AbandonMark
  deriving DecidableEq, Repr

/-- A setting code (Table 11-9). -/
inductive SetCode where
  | storyStart (n : Nat)
  | face (n : Nat)
  | size (n : Nat)
  | leading (n : Nat)
  | measure (n : Nat)
  | indent (n : Nat)
  | paragraph (n : Nat)
  | wordSpace (n : Nat)
  | char (c : Byte)
  | justifyEnd
  | leftEnd
  | storyEnd (n : Nat)
  | abandon (n : Nat)
  deriving DecidableEq, Repr

/-- What follows when a byte of the output FIFO has been sent (R153, R160). -/
inductive ByteEnd where
  | plain
  | storyEnd (story : Nat)
  | abandon
  deriving DecidableEq, Repr

/-- A byte of the output FIFO: whether it is the first byte of a STORY END or ABANDON code, what its sending ends, and the reading at which it was placed (R152, log entry 17). -/
structure OutByte where
  byte : Byte
  opens : Bool
  ends : ByteEnd
  placed : Nat
  deriving DecidableEq, Repr

/-- The sending side of a typesetter line (R152). -/
inductive OutTx where
  | rest
  | busy (b : OutByte) (inFifo : Bool)
  deriving DecidableEq, Repr

/-- Channel state (R143). -/
inductive ChannelState where
  | idle | running | halted | cancelling
  deriving DecidableEq, Repr

/-- Grant in flight of a channel (Table 8-3). -/
inductive Grant where
  | none | keep | discard
  deriving DecidableEq, Repr

/-- Setting position: complete, or an entry (from 0), the resume point in its story, and whether its STORY START has been placed (Table 8-3). -/
inductive SetPos where
  | complete
  | at (entry : Nat) (resume : Resume) (started : Bool)
  deriving DecidableEq, Repr

/-- A typesetter channel (Table 8-3, R143). waitChoice and stallChoice are the choices 0 to 3 of R154; stallFrom is the stall timer (R155). -/
structure Channel where
  state : ChannelState
  jobs : List Job
  pos : SetPos
  grant : Grant
  lines : List (List SetCode)
  fifo : List OutByte
  sending : OutTx
  batchOpen : Bool
  rate : Nat
  threshold : Nat
  waitChoice : Nat
  stallChoice : Nat
  finished : List JobResult
  ready : Bool
  stallFrom : Option Nat
  deriving DecidableEq, Repr

/-- A channel at power-on (R143). That its setting position, which R143 does not name, is complete is the model's choice (log entry 6). -/
def Channel.reset : Channel :=
  ⟨.idle, [], .complete, .none, [], [], .rest, false, 9600, 64, 0, 0, [], false, none⟩

/-- The clients of the Setting Engine (8.4). -/
inductive Client where
  | channel (c : Fin 4)
  | fit
  deriving DecidableEq, Repr

/-- Arbitration mode (R148). -/
inductive ArbMode where
  | rotate | rank
  deriving DecidableEq, Repr

/-- The Engine Arbiter: mode, the levels of C0 to C3 and FIT, the last granted client, and the client GRANTED, or FREE (R148). -/
structure Engine where
  mode : ArbMode
  levels : Vector Nat 5
  last : Client
  owner : Option Client
  deriving DecidableEq, Repr

/-- The arbiter at power-on (R148). -/
def Engine.reset : Engine := ⟨.rotate, Vector.replicate 5 0, .fit, none⟩

/-! ### Wire lines (spec/09) -/

/-- A character of a wire FIFO with its marks (R166). -/
structure WireChar where
  code : Byte
  damaged : Bool
  loss : Bool
  brk : Bool
  deriving DecidableEq, Repr

/-- Intake state, with the header in hand in HEADER and the current story in TEXT (Table 9-1, R163). -/
inductive Intake where
  | off
  | hunt
  | header (got : List Byte)
  | text (story : Nat)
  | skip
  deriving DecidableEq, Repr

/-- A wire line (Table 9-1); its error set and counts are its part of the Notice Table (R179). -/
structure Wire where
  format : LineFormat
  intake : Intake
  fifo : List WireChar
  silenceFrom : Nat
  deriving DecidableEq, Repr

/-- A wire line at power-on (R163). -/
def Wire.reset : Wire := ⟨LineFormat.reset, .off, [], 0⟩

/-- Selection action (R169). -/
inductive SelAction where
  | take | reject
  deriving DecidableEq, Repr

/-- A Selection Table entry in use (R169). -/
structure SelEntry where
  p0 : Byte
  p1 : Byte
  p2 : Byte
  action : SelAction
  basket : Fin 64
  key : Fin 16
  deriving DecidableEq, Repr

/-! ### The control link (spec/10) -/

/-- Cause of a start (R192, R194). -/
inductive StartCause where
  | powerOn | cold | warm
  deriving DecidableEq, Repr

/-- A frame of the control link (Table 11-1); its length and check are computed. -/
structure Frame where
  kind : Byte
  tag : Byte
  body : List Byte
  deriving DecidableEq, Repr

/-- The receiver: in HUNT, or in a frame with the bytes after the lead byte so far and the reading its gap timer started from (R180, R181). -/
inductive Receiver where
  | hunt
  | inFrame (got : List Byte) (gapFrom : Nat)
  deriving DecidableEq, Repr

/-- The LINK error set (R182). -/
structure LinkErrors where
  length : Bool
  gap : Bool
  check : Bool
  overrun : Bool
  deriving DecidableEq, Repr

/-- POOL conditions (R8). -/
inductive PoolCond where
  | low | empty | recovered
  deriving DecidableEq, Repr

/-- The POOL summary: what the latest raise placed (R8). -/
structure PoolSummary where
  free : Nat
  reserve : Nat
  cond : Option PoolCond
  deriving DecidableEq, Repr

/-- The PART summary (Table 10-3). -/
structure PartSummary where
  cause : Option StartCause
  tag : Byte
  hostBack : Bool
  deriving DecidableEq, Repr

/-- The parts of a WIRE summary that raises make: the error set and the counts (R179). -/
structure WireSummary where
  character : Bool
  overrun : Bool
  header : Bool
  cut : Bool
  filed : Nat
  dropped : Nat
  deriving DecidableEq, Repr

/-- The event set of a TERMINAL source (R74). -/
structure TermEvents where
  attention : Bool
  lineError : Bool
  messageCleared : Bool
  keysRefused : Bool
  windowClosed : Bool
  deriving DecidableEq, Repr

/-- The Notice Table: which of the 48 sources of Table 10-2 are pending, and the summaries that raises make (R186, R188). -/
structure Notices where
  pending : Vector Bool 48
  part : PartSummary
  link : LinkErrors
  pool : PoolSummary
  wire : Vector WireSummary 4
  terminal : Vector TermEvents 32
  deriving DecidableEq, Repr

/-- Emptied summaries. -/
def LinkErrors.empty : LinkErrors := ⟨false, false, false, false⟩
def PoolSummary.empty : PoolSummary := ⟨0, 0, none⟩
def PartSummary.empty : PartSummary := ⟨none, 0, false⟩
def WireSummary.empty : WireSummary := ⟨false, false, false, false, 0, 0⟩
def TermEvents.empty : TermEvents := ⟨false, false, false, false, false⟩

/-- The Notice Table right after a start: every entry clear and emptied, and then PART raised with the cause and the tag of the RESTART order (R186, R194). -/
def Notices.start (cause : StartCause) (tag : Byte) : Notices where
  pending := (Vector.replicate 48 false).set 0 true
  part := ⟨some cause, tag, false⟩
  link := .empty
  pool := .empty
  wire := Vector.replicate 4 .empty
  terminal := Vector.replicate 32 .empty

/-- The Link Port (R180 to R194). held is the RESTART that is held, its cause and tag; sending is the frame being sent and whether it is a reply; the level of LNK_CTS is Link.cts; watch is the period of the enabled link watch. -/
structure Link where
  receiver : Receiver
  inbound : List Frame
  held : Option (StartCause × Byte)
  replies : List Frame
  sending : Option (Bool × Frame)
  lastSource : Nat
  watch : Option Nat
  watchFrom : Option Nat
  hostLost : Bool
  lastCause : StartCause
  deriving DecidableEq, Repr

/-- The Link Port right after a start, with the link watch and its timer that the start leaves (R194). -/
def Link.start (cause : StartCause) (watch watchFrom : Option Nat) : Link :=
  ⟨.hunt, [], none, [], none, 47, watch, watchFrom, false, cause⟩

/-! ### The machine -/

/-- The state of the NCC-32. now is the model's reading of the reference oscillator in milliseconds (R50, log entry 5); pending is the queue of the commands that wait, first in first out. -/
structure State where
  memory : Memory
  stories : Tab Story
  pressure : Bool
  desks : Vector Desk 16
  slots : Vector (Option Message) 32
  baskets : Vector Basket 64
  clock : Clock
  editions : Vector Edition 4
  lines : Vector Line 32
  keys : List KeyReport
  screens : Vector Screen 32
  panes : Vector Panes 32
  faces : Vector Face 8
  fit : FitQueue
  lastJob : Nat
  channels : Vector Channel 4
  engine : Engine
  wires : Vector Wire 4
  selection : Vector (Option SelEntry) 32
  reserve : Nat
  notices : Notices
  link : Link
  now : Nat
  pending : List Instr
  deriving DecidableEq, Repr

/-- Why the part would stop with a fault: never. The spec names no event that stops it; every order it cannot do gets a result code (3.7), every key a bell (R90), every line error a notice (R74, R179, R182). -/
inductive Fault where
  deriving DecidableEq, Repr

/-- Why a term of Instr is given no meaning. -/
inductive Refusal where
  /-- Raised by an arm of exec whose command has no meaning yet. Safe: the model stops. -/
  | notModelled (mnemonic : String)
  /-- Raised by UNASSIGNED_KIND when its kind is an assigned order kind: such a term is no command of the part (Instr.wellFormed refuses it). Safe: the model stops. -/
  | illFormed
  deriving DecidableEq, Repr

/-- The part as it stands after power-on (the reset value of each block is stated in its chapter), given the levels of the TYP_READY pins, the bytes that the typesetter lines are sending (R151, log entry 20) and the model's own fields. -/
def State.start (cause : StartCause) (tag : Byte) (ready : Fin 4 → Bool)
    (sending : Fin 4 → OutTx) (now : Nat) (pending : List Instr) : State where
  memory := []
  stories := []
  pressure := false
  desks := Vector.replicate 16 Desk.reset
  slots := Vector.replicate 32 none
  baskets := Vector.replicate 64 Basket.reset
  clock := ⟨.unset, 0, 0⟩
  editions := Vector.replicate 4 ⟨0, .unarmed⟩
  lines := Vector.replicate 32 Line.reset
  keys := []
  screens := Vector.replicate 32 Screen.reset
  panes := Vector.replicate 32 ⟨none, none⟩
  faces := Vector.replicate 8 Face.reset
  fit := ⟨[], none⟩
  lastJob := 0
  channels := Vector.ofFn fun c => { Channel.reset with ready := ready c, sending := sending c }
  engine := Engine.reset
  wires := Vector.replicate 4 Wire.reset
  selection := Vector.replicate 32 none
  reserve := Config.reserveReset
  notices := Notices.start cause tag
  link := Link.start cause none none
  now := now
  pending := pending

/-- The machine right after power-on, with PART raised and no frame begun (R193, R194, log entry 30). -/
def State.reset : State := State.start .powerOn 0 (fun _ => false) (fun _ => .rest) 0 []

end Sys2Proof.Machine
end

