-- ==== Sys2Proof/Machine/Tab.lean ====
section
/-! DEFINITION. Operations over sparse tables and fixed rows, and copy memory's own read and write: the canonical form lives here (INVENTORY.md, Memory and ordering). -/

namespace Sys2Proof.Machine

/-- The entry listed under a number. -/
def Tab.get? {α : Type} : Tab α → Nat → Option α
  | [], _ => none
  | (k, v) :: m, n => if k = n then some v else Tab.get? m n

/-- List a number with an entry, in its place by rising numbers, instead of what stood under it. -/
def Tab.put {α : Type} : Tab α → Nat → α → Tab α
  | [], n, v => [(n, v)]
  | (k, w) :: m, n, v =>
    if n < k then (n, v) :: (k, w) :: m
    else if k = n then (n, v) :: m
    else (k, w) :: Tab.put m n v

/-- Take a number out of the table. -/
def Tab.erase {α : Type} : Tab α → Nat → Tab α
  | [], _ => []
  | (k, w) :: m, n => if k = n then m else (k, w) :: Tab.erase m n

/-- Replace every entry by a function of it. -/
def Tab.mapVal {α : Type} (f : α → α) (m : Tab α) : Tab α := m.map fun e => (e.1, f e.2)

/-- The lowest number from n on that a table with rising numbers does not list. -/
def Tab.lowestFree {α : Type} : Tab α → Nat → Nat
  | [], n => n
  | (k, _) :: m, n =>
    if k < n then Tab.lowestFree m n
    else if k = n then Tab.lowestFree m (n + 1)
    else n

/-- The numbers of a table rise strictly. -/
abbrev Tab.wf {α : Type} (m : Tab α) : Prop := m.Pairwise fun a b => a.1 < b.1

/-! ### Copy memory (R1, R2) -/

/-- The block record under a number: an unlisted block is free. -/
def Memory.read (m : Memory) (b : Nat) : Block := (Tab.get? m b).getD Block.free

/-- Write a block; writing the free block takes the entry out, so equal memories are equal lists. -/
def Memory.write (m : Memory) (b : Nat) (blk : Block) : Memory :=
  if blk = Block.free then Tab.erase m b else Tab.put m b blk

/-- The free count (R1). -/
def Memory.freeCount (m : Memory) : Nat := Config.blocks - m.length

/-- The lowest-numbered block in the free pool, if there is one (R2). -/
def Memory.lowestFree? (m : Memory) : Option Nat :=
  if Tab.lowestFree m 0 < Config.blocks then some (Tab.lowestFree m 0) else none

/-- The canonical form: numbers strictly rising, no entry equal to the free block. -/
abbrev Memory.wf (m : Memory) : Prop := Tab.wf m ∧ ∀ e ∈ m, e.2 ≠ Block.free

end Sys2Proof.Machine
end

