-- ==== Sys2Proof/Machine/Memory.lean ====
section
/-! DEFINITION. Text in chains of blocks: reading, inserting, deleting, replacing and flagging (spec/01, R3 to R7, R9, R11). Each operation works on copy memory and one chain. -/

namespace Sys2Proof.Machine

/-- The number of characters a block holds. -/
def fill (m : Memory) (b : Nat) : Nat := (Memory.read m b).chars.length

/-- The text of a chain: its blocks' characters in chain order (1.2). -/
def chainText (m : Memory) (chain : List Nat) : List Byte :=
  chain.flatMap fun b => (Memory.read m b).chars

/-- The length of a chain's text: the sum of the fills (R3). -/
def chainLength (m : Memory) (chain : List Nat) : Nat := (chain.map (fill m)).sum

/-- The block after another in a chain; none is the end. -/
def nextInChain : List Nat → Nat → Option Nat
  | [], _ => none
  | [_], _ => none
  | x :: y :: rest, b => if x = b then some y else nextInChain (y :: rest) b

/-- The next field of a block record, the block after it in the chain that holds it, or end (Table 1-1; log entry 7). -/
def State.nextField (s : State) (b : Nat) : Option Nat :=
  s.stories.findSome? fun e => nextInChain e.2.chain b

/-- How many blocks of a chain are flagged (R19). -/
def flaggedCount (m : Memory) (chain : List Nat) : Nat :=
  (chain.filter fun b => (Memory.read m b).changed).length

/-- The block that receives an insertion at an insertion point, and the position in it: the block that holds the character just before the point, the first block for point 0 (R4). -/
def locateInsert (m : Memory) : List Nat → Nat → Option (Nat × Nat)
  | [], _ => none
  | [b], k => some (b, min k (fill m b))
  | b :: b' :: rest, k =>
    if k ≤ fill m b then some (b, k) else locateInsert m (b' :: rest) (k - fill m b)

/-- The block and position that hold the character at an offset. -/
def locateChar (m : Memory) : List Nat → Nat → Option (Nat × Nat)
  | [], _ => none
  | b :: rest, k => if k < fill m b then some (b, k) else locateChar m rest (k - fill m b)

/-- Link a block into a chain directly after another (R5). -/
def linkAfter : List Nat → Nat → Nat → List Nat
  | [], _, _ => []
  | x :: xs, b, nb => if x = b then x :: nb :: xs else x :: linkAfter xs b nb

/-- The block before another in a chain, or the block after it where it is the first (R7). -/
def chainNeighbour : List Nat → Nat → Option Nat
  | [], _ => none
  | [_], _ => none
  | x :: y :: rest, b =>
    if x = b then some y else if y = b then some x else chainNeighbour (y :: rest) b

/-- Set a block's change flag (R9). -/
def flagBlock (m : Memory) (b : Nat) : Memory :=
  Memory.write m b { Memory.read m b with changed := true }

/-- Clear a block's change flag (R9). -/
def unflagBlock (m : Memory) (b : Nat) : Memory :=
  Memory.write m b { Memory.read m b with changed := false }

/-- Clear the change flag of every block of a chain (R10, R153). -/
def clearFlags (m : Memory) (chain : List Nat) : Memory := chain.foldl unflagBlock m

/-- Free every block of a chain (R24). -/
def freeChain (m : Memory) (chain : List Nat) : Memory :=
  chain.foldl (fun m b => Memory.write m b Block.free) m

/-- What an insertion comes to: made, refused because the story is at its cap (R3), or refused because it needs a block and the pool is empty (R6). -/
inductive Insertion where
  | made (m : Memory) (chain : List Nat)
  | atCap
  | poolEmpty
  deriving DecidableEq, Repr

/-- Split a full block at position 120 with a new block and insert the character in the half that holds the insertion point (R5). -/
def splitInsert (m : Memory) (chain : List Nat) (b nb p : Nat) (c : Byte) : Memory × List Nat :=
  let lo := (Memory.read m b).chars.take Config.splitAt
  let hi := (Memory.read m b).chars.drop Config.splitAt
  if p ≤ Config.splitAt then
    (Memory.write (Memory.write m b ⟨lo.insertIdx p c, true⟩) nb ⟨hi, true⟩, linkAfter chain b nb)
  else
    (Memory.write (Memory.write m b ⟨lo, true⟩) nb ⟨hi.insertIdx (p - Config.splitAt) c, true⟩,
      linkAfter chain b nb)

/-- Does an insertion at a point need a new block? It does in an empty chain and in a full receiving block (R4, R173). -/
def needsBlock (m : Memory) (chain : List Nat) (k : Nat) : Bool :=
  match locateInsert m chain k with
  | none => true
  | some (b, _) => Config.blockChars ≤ fill m b

/-- The story is at its cap for an insertion at a point: by its length, or by a chain of 256 blocks where a new block is needed (R3). -/
def atCap (m : Memory) (chain : List Nat) (k : Nat) : Bool :=
  Config.storyMax ≤ chainLength m chain ||
    (needsBlock m chain k && Config.chainMax ≤ chain.length)

/-- Insert a character at an insertion point of a chain (R3 to R6). The cap is looked at before the pool (log entry 19). -/
def insertChar (m : Memory) (chain : List Nat) (k : Nat) (c : Byte) : Insertion :=
  if atCap m chain k then .atCap
  else match locateInsert m chain k with
    | none =>
      match Memory.lowestFree? m with
      | none => .poolEmpty
      | some b => .made (Memory.write m b ⟨[c], true⟩) [b]
    | some (b, p) =>
      if fill m b < Config.blockChars then
        .made (Memory.write m b ⟨(Memory.read m b).chars.insertIdx p c, true⟩) chain
      else match Memory.lowestFree? m with
        | none => .poolEmpty
        | some nb => .made (splitInsert m chain b nb p c).1 (splitInsert m chain b nb p c).2

/-- Delete the character at an offset of a chain; a block whose fill falls to 0 is unlinked and freed, its mark passing to its neighbour (R7). The third part says that a block was freed. -/
def deleteChar (m : Memory) (chain : List Nat) (k : Nat) : Memory × List Nat × Bool :=
  match locateChar m chain k with
  | none => (m, chain, false)
  | some (b, p) =>
    if fill m b = 1 then
      match chainNeighbour chain b with
      | none => (Memory.write m b Block.free, chain.erase b, true)
      | some nb => (flagBlock (Memory.write m b Block.free) nb, chain.erase b, true)
    else (Memory.write m b ⟨(Memory.read m b).chars.eraseIdx p, true⟩, chain, false)

/-- Replace the character at an offset of a chain in its place and flag its block (R106). -/
def replaceChar (m : Memory) (chain : List Nat) (k : Nat) (c : Byte) : Memory :=
  match locateChar m chain k with
  | none => m
  | some (b, p) => Memory.write m b ⟨(Memory.read m b).chars.set p c, true⟩

end Sys2Proof.Machine
end

