-- ==== Sys2Proof/WellFormed.lean ====
section
/-! DEFINITION. Which terms of Instr are commands that can reach the part: a body fits its frame (10.1), a received frame is whole, a kind is unassigned where the row says so. Line numbers need no check: their types are Fin. -/

namespace Sys2Proof

/-- A body of 0 to 1024 bytes (10.1). -/
def bodyFits (body : List Byte) : Bool := body.length ≤ 1024

/-- The length field a frame's second and third bytes give, high byte first (Table 11-1). -/
def frameLength (hi lo : Byte) : Nat := 256 * hi.toNat + lo.toNat

/-- A length the receiver takes: 2 to 1026 (R180). -/
def lengthLegal (n : Nat) : Bool := 2 ≤ n && n ≤ 1026

/-- The assigned order kinds are 01h to 35h (Table 11-4, R184). -/
def kindAssigned (kind : Byte) : Bool := 1 ≤ kind.toNat && kind.toNat ≤ 0x35

/-- A whole frame from its lead byte to its second check byte (Table 11-1). -/
def wholeFrame : List Byte → Bool
  | lead :: hi :: lo :: rest =>
    lead = 0xC3#8 && lengthLegal (frameLength hi lo) && rest.length = frameLength hi lo + 2
  | _ => false

/-- The beginning of a frame that still waits for a next byte, from the lead byte to at most the first check byte (R181). -/
def frameBegun : List Byte → Bool
  | [lead] => lead = 0xC3#8
  | [lead, _] => lead = 0xC3#8
  | lead :: hi :: lo :: rest =>
    lead = 0xC3#8 && lengthLegal (frameLength hi lo) && rest.length ≤ frameLength hi lo + 1
  | [] => false

/-- A text character, 20h to 7Eh (3.5). -/
def isText (c : Byte) : Bool := 0x20 ≤ c.toNat && c.toNat ≤ 0x7E

/-- The commands that can reach the part. -/
def Instr.wellFormed : Instr → Bool
  | .powerOn => true
  | .restartMade => true
  | .frameReceived bytes => wholeFrame bytes
  | .gapTimerExpiry bytes => frameBegun bytes
  | .hostLost => true
  | .transmitFrameEnd => true
  | .unassignedKind kind _ body => !kindAssigned kind && bodyFits body
  | .createStory _ body => bodyFits body
  | .readStory _ body => bodyFits body
  | .setFlags _ body => bodyFits body
  | .writeText _ body => bodyFits body
  | .readText _ body => bodyFits body
  | .spikeStory _ body => bodyFits body
  | .clearMarks _ body => bodyFits body
  | .setDesk _ body => bodyFits body
  | .readDesk _ body => bodyFits body
  | .setBasket _ body => bodyFits body
  | .listBasket _ body => bodyFits body
  | .moveStory _ body => bodyFits body
  | .setStoryKey _ body => bodyFits body
  | .sendMessage _ body => bodyFits body
  | .setClock _ body => bodyFits body
  | .startClock _ body => bodyFits body
  | .readClock _ body => bodyFits body
  | .setDeadline _ body => bodyFits body
  | .rearm _ body => bodyFits body
  | .clearDeadline _ body => bodyFits body
  | .assignTerminal _ body => bodyFits body
  | .detachTerminal _ body => bodyFits body
  | .readTerminal _ body => bodyFits body
  | .takeKeys _ body => bodyFits body
  | .putScreenText _ body => bodyFits body
  | .fillBase _ body => bodyFits body
  | .setStatus _ body => bodyFits body
  | .repaint _ body => bodyFits body
  | .setWatch _ body => bodyFits body
  | .setRotation _ body => bodyFits body
  | .readSession _ body => bodyFits body
  | .openWindow _ body => bodyFits body
  | .closeWindow _ body => bodyFits body
  | .setWidths _ body => bodyFits body
  | .readWidths _ body => bodyFits body
  | .setSetting _ body => bodyFits body
  | .fitStory _ body => bodyFits body
  | .readFitQueue _ body => bodyFits body
  | .queueJob _ body => bodyFits body
  | .setArbitration _ body => bodyFits body
  | .setChannel _ body => bodyFits body
  | .resume _ body => bodyFits body
  | .flushChannel _ body => bodyFits body
  | .cancelJob _ body => bodyFits body
  | .readChannel _ body => bodyFits body
  | .setWireLine _ body => bodyFits body
  | .readWireLine _ body => bodyFits body
  | .setSelection _ body => bodyFits body
  | .readSelection _ body => bodyFits body
  | .setWireReserve _ body => bodyFits body
  | .setLinkWatch _ body => bodyFits body
  | .queryPart _ body => bodyFits body
  | .restart _ body => bodyFits body
  | .clockTick => true
  | .terminalCharacterReceived _ _ => true
  | .terminalIdleExpiry _ => true
  | .terminalBreak _ => true
  | .textKey _ code => isText code
  | .newParagraph _ => true
  | .deleteBack _ => true
  | .deleteForward _ => true
  | .insertOvertypeToggle _ => true
  | .cursorLeft _ => true
  | .cursorRight _ => true
  | .cursorUp _ => true
  | .cursorDown _ => true
  | .paneSwitch _ => true
  | .clearMessage _ => true
  | .repaintKey _ => true
  | .functionKeyPrefix _ => true
  | .functionKey _ _ => true
  | .ignoredCode _ _ => true
  | .terminalByteSent _ => true
  | .flashAlertExpiry _ => true
  | .rotationDwellExpiry _ => true
  | .fitGrantEnd => true
  | .channelGrantEnd _ => true
  | .typesetterByteSent _ => true
  | .typReady _ _ => true
  | .batchWaitExpiry _ => true
  | .channelStall _ => true
  | .wireCharacterReceived _ _ => true
  | .wireBreak _ => true
  | .wireIntakeCharacter _ => true
  | .wireSilenceExpiry _ => true
  | .linkLengthError hi lo => !lengthLegal (frameLength hi lo)

end Sys2Proof
end

