-- ==== Sys2Proof/Machine/Operands.lean ====
section
/-! DEFINITION. Fields of order and reply bodies: reading them from a body, bringing settings into range, and writing them into reply data (Tables 11-2, 11-3, 11-4, R17, R60, R122, R154, R195). Numbers go high byte first. -/

namespace Sys2Proof.Machine

/-! ### Reading fields -/

/-- One byte of a body as a number. -/
def u8 (b : List Byte) (i : Nat) : Nat := (b.getD i 0).toNat

/-- Two bytes, high byte first. -/
def u16 (b : List Byte) (i : Nat) : Nat := 256 * u8 b i + u8 b (i + 1)

/-- Three bytes, high byte first: a time of day. -/
def u24 (b : List Byte) (i : Nat) : Nat := 65536 * u8 b i + u16 b (i + 1)

/-- A flag or presence byte: 00h is no, any other value is yes (R195). -/
def flagAt (b : List Byte) (i : Nat) : Bool := u8 b i ≠ 0

/-- A number as a member of a range 0 to n − 1, or none where it lies outside (RANGE). -/
def inRange (n v : Nat) : Option (Fin n) := if h : v < n then some ⟨v, h⟩ else none

/-- An optional version: a presence byte, then the version (Table 11-2). -/
def optVersion (b : List Byte) (i : Nat) : Option Word16 :=
  if flagAt b i then some (BitVec.ofNat 16 (u16 b (i + 1))) else none

/-- A text of n characters from an index on; none where the count reaches beyond the body (R195). -/
def textAt (b : List Byte) (i n : Nat) : Option (List Byte) :=
  if i + n ≤ b.length then some ((b.drop i).take n) else none

/-- Priority codes (Table 11-3). -/
def Priority.ofCode : Nat → Option Priority
  | 0 => some .flash
  | 1 => some .urgent
  | 2 => some .routine
  | _ => none

/-- Layout codes. -/
def Layout.ofCode : Nat → Option Layout
  | 0 => some .full
  | 1 => some .split
  | _ => none

/-- Attribute codes 0 to 3 (spec/05). -/
def Attr.ofCode : Nat → Option Attr
  | 0 => some .normal
  | 1 => some .bright
  | 2 => some .inverse
  | 3 => some .underline
  | _ => none

/-- Entry mode codes. -/
def EntryMode.ofCode : Nat → Option EntryMode
  | 0 => some .whole
  | 1 => some .changed
  | _ => none

/-- Arbitration mode codes. -/
def ArbMode.ofCode : Nat → Option ArbMode
  | 0 => some .rotate
  | 1 => some .rank
  | _ => none

/-- Selection action codes. -/
def SelAction.ofCode : Nat → Option SelAction
  | 0 => some .take
  | 1 => some .reject
  | _ => none

/-- Restart cause codes: COLD 00h, WARM 01h. -/
def restartCause : Nat → Option StartCause
  | 0 => some .cold
  | 1 => some .warm
  | _ => none

/-- Pane codes: edit 00h, reference 01h. -/
def paneIsEdit : Nat → Option Bool
  | 0 => some true
  | 1 => some false
  | _ => none

/-- The rights of a rights byte: VIEW 01h, TAKE 02h, SEND 04h; other bits are ignored (R195). -/
def rightsOf (b : Byte) : Rights := ⟨b.toNat.testBit 0, b.toNat.testBit 1, b.toNat.testBit 2⟩

/-! ### Bringing values into range (3.6) -/

/-- A value brought to the nearer end of a range. -/
def clampTo (lo hi v : Nat) : Nat := max lo (min hi v)

/-- A text byte from the host: 20h to 7Eh as it is, any other as "?" (R17, R27, R42, R77, R84). -/
def plainByte (c : Byte) : Byte := if isText c then c else 0x3F#8

/-- A text byte of WRITE TEXT: the paragraph mark 0Dh is also stored as it is (R17). -/
def storyByte (c : Byte) : Byte := if isText c || c = 0x0D#8 then c else 0x3F#8

/-- A short text cut to its first n characters with the substitutions made, and whether anything was cut or substituted (R18, R27, R42, R84). -/
def cleanText (n : Nat) (t : List Byte) : List Byte × Bool :=
  ((t.take n).map plainByte, decide (n < t.length) || (t.take n).any fun c => !isText c)

/-- The highest member of a rising list of choices that is not above v, or the first choice (R60, R154). -/
def choiceBelow (choices : List Nat) (least v : Nat) : Nat :=
  choices.foldl (fun best c => if c ≤ v then c else best) least

/-- The line rates (Table 4-1). -/
def rates : List Nat := [300, 1200, 2400, 4800, 9600, 19200, 38400]

/-- A rate brought to the highest listed rate not above it, or 300 (R60, R154). -/
def clampRate (v : Nat) : Nat := choiceBelow rates 300 v

/-- A key trigger brought to the largest of 1, 2, 6 and 12 not above it, or 1 (R60). -/
def clampTrigger (v : Nat) : Nat := choiceBelow [1, 2, 6, 12] 1 v

/-- A batch threshold brought to the largest of 16, 32, 48 and 64 not above it, or 16 (R154). -/
def clampThreshold (v : Nat) : Nat := choiceBelow [16, 32, 48, 64] 16 v

/-- Parity codes; any other becomes none (R60). -/
def clampParity : Nat → Parity
  | 1 => .even
  | 2 => .odd
  | _ => .none

/-- A line format of 5 bytes, clamped, and whether anything was clamped (R60). -/
def lineFormatAt (b : List Byte) (i : Nat) : LineFormat × Bool :=
  let f : LineFormat :=
    ⟨clampRate (u16 b i), clampTo 7 8 (u8 b (i + 2)), clampParity (u8 b (i + 3)),
      clampTo 1 2 (u8 b (i + 4))⟩
  (f, decide (f.rate ≠ u16 b i) || decide (f.dataBits ≠ u8 b (i + 2)) ||
    decide (2 < u8 b (i + 3)) || decide (f.stopBits ≠ u8 b (i + 4)))

/-- A setting with every field but the face brought into Table 7-1; the indent after the measure (R122). -/
def clampSetting (s : Setting) : Setting :=
  let m := clampTo 18 1440 s.measure
  ⟨s.face, clampTo 10 144 s.size, m, clampTo 10 288 s.leading, min s.indent (m / 2),
    min s.budget 20000⟩

/-- A setting record of 11 bytes as it is given; none for a face outside 0 to 7 (Table 11-2). -/
def settingAt (b : List Byte) (i : Nat) : Option Setting :=
  (inRange 8 (u8 b i)).map fun f =>
    ⟨f, u16 b (i + 1), u16 b (i + 3), u16 b (i + 5), u16 b (i + 7), u16 b (i + 9)⟩

/-- The batch waits of the choices 0 to 3: none, 10 ms, 100 ms, 1 s (R154). -/
def batchWait : Nat → Option Nat
  | 0 => none
  | 1 => some 10
  | 2 => some 100
  | _ => some Config.second

/-- The stall limits of the choices 0 to 3: none, 1 s, 10 s, 100 s (R154). -/
def stallLimit : Nat → Option Nat
  | 0 => none
  | 1 => some Config.second
  | 2 => some (10 * Config.second)
  | _ => some (100 * Config.second)

/-! ### Frames of a terminal or wire line (R58) -/

/-- The code that a format's data bits hold of a byte (R58). -/
def LineFormat.code (f : LineFormat) (b : Byte) : Byte := if f.dataBits = 7 then b &&& 0x7F#8 else b

/-- The number of set bits of a code. -/
def onesOf (c : Byte) : Nat := ((List.range 8).filter fun i => c.toNat.testBit i).length

/-- The number of set bits, data and parity together, is one that a parity has (R58). -/
def Parity.fits (p : Parity) (ones : Nat) : Bool :=
  match p with
  | .none => true
  | .even => ones % 2 = 0
  | .odd => ones % 2 = 1

/-- The character code of a received frame in a format's width (R58). -/
def frameCode (f : LineFormat) (r : RxFrame) : Byte := f.code r.data

/-- The parity bit of a received frame is right in its format (R58). -/
def parityRight (f : LineFormat) (r : RxFrame) : Bool :=
  f.parity.fits (onesOf (frameCode f r) + if r.parity then 1 else 0)

/-- The parity bit generated for a code: none with parity none, otherwise the bit with which the frame's parity is right (R58). -/
def Parity.bitFor (p : Parity) (c : Byte) : Option Bool :=
  match p with
  | .none => .none
  | .even => some (!p.fits (onesOf c))
  | .odd => some (!p.fits (onesOf c))

/-- The frame in which a line sends a byte: the format's width, the parity bit generated, the format's stop bits (R58). -/
def sendFrame (f : LineFormat) (b : Byte) : TxFrame :=
  ⟨f.code b, f.dataBits, f.parity.bitFor (f.code b), f.stopBits⟩

/-! ### Writing fields -/

/-- One byte. -/
def e8 (n : Nat) : List Byte := [BitVec.ofNat 8 n]

/-- Two bytes, high byte first. -/
def e16 (n : Nat) : List Byte := [BitVec.ofNat 8 (n / 256), BitVec.ofNat 8 n]

/-- Three bytes, high byte first. -/
def e24 (n : Nat) : List Byte := BitVec.ofNat 8 (n / 65536) :: e16 n

/-- Four bytes, high byte first. -/
def e32 (n : Nat) : List Byte := e16 (n / 65536) ++ e16 n

/-- A flag: 00h for no; that yes is sent as 01h, of the values that Table 11-2 reads as yes, is the model's choice (log entry 8). -/
def eFlag (f : Bool) : List Byte := e8 (if f then 1 else 0)

/-- A version or generation. -/
def eWord (v : Word16) : List Byte := e16 v.toNat

/-- A time of day, FFFFFFh where absent (R195). -/
def eTime (t : Option Nat) : List Byte := e24 (t.getD 0xFFFFFF)

/-- Fixed text in replies: characters padded with 00h (Table 11-2). -/
def eFixed (n : Nat) (t : List Byte) : List Byte := (t ++ List.replicate n 0).take n

/-- A setting record (Table 11-2). -/
def eSetting (s : Setting) : List Byte :=
  e8 s.face ++ e16 s.size ++ e16 s.measure ++ e16 s.leading ++ e16 s.indent ++ e16 s.budget

/-- Parity codes. -/
def Parity.code : Parity → Nat
  | .none => 0
  | .even => 1
  | .odd => 2

/-- A line format (Table 11-2). -/
def eFormat (f : LineFormat) : List Byte :=
  e16 f.rate ++ e8 f.dataBits ++ e8 f.parity.code ++ e8 f.stopBits

/-- Lock holder codes (Table 11-2). -/
def Holding.holderCode : Holding → Nat
  | .idle => 0
  | .editing t => 0x20 + t
  | .setting c => 0x40 + c
  | .filing w => 0x50 + w

/-- Story state codes (Table 11-3). -/
def Holding.stateCode : Holding → Nat
  | .idle => 0
  | .filing _ => 1
  | .editing _ => 2
  | .setting _ => 3

/-- The state and the lock holder, the data of a LOCKED reply where the rule names them. -/
def eHolding (h : Holding) : List Byte := e8 h.stateCode ++ e8 h.holderCode

/-- Priority codes. -/
def Priority.code : Priority → Nat
  | .flash => 0
  | .urgent => 1
  | .routine => 2

/-- Fit status codes. -/
def FitStatus.code : FitStatus → Nat
  | .unknown => 0
  | .pending => 1
  | .none => 2
  | .short => 3
  | .on => 4
  | .over => 5

/-- Clock state codes. -/
def ClockState.code : ClockState → Nat
  | .unset => 0
  | .stopped => 1
  | .running => 2

/-- Edition state codes. -/
def EditionState.code : EditionState → Nat
  | .unarmed => 0
  | .armed => 1
  | .passed => 2

/-- Layout codes. -/
def Layout.code : Layout → Nat
  | .full => 0
  | .split => 1

/-- Mode codes. -/
def Mode.code : Mode → Nat
  | .normal => 0
  | .watching _ => 1
  | .rotating _ => 2

/-- Session mode codes. -/
def EditMode.code : EditMode → Nat
  | .insert => 0
  | .overtype => 1

/-- Focus codes. -/
def Focus.code : Focus → Nat
  | .edit => 0
  | .reference => 1

/-- Channel state codes. -/
def ChannelState.code : ChannelState → Nat
  | .idle => 0
  | .running => 1
  | .halted => 2
  | .cancelling => 3

/-- Entry mode codes. -/
def EntryMode.code : EntryMode → Nat
  | .whole => 0
  | .changed => 1

/-- Job outcome codes. -/
def JobOutcome.code : JobOutcome → Nat
  | .done => 0
  | .cancelled => 1

/-- ABANDON mark codes. -/
def AbandonMark.code : AbandonMark → Nat
  | .notApplicable => 0
  | .sent => 1
  | .notSent => 2

/-- Grant in flight codes. -/
def Grant.code : Grant → Nat
  | .none => 0
  | .keep => 1
  | .discard => 2

/-- Arbitration mode codes. -/
def ArbMode.code : ArbMode → Nat
  | .rotate => 0
  | .rank => 1

/-- Client codes: C0 to C3 00h to 03h, FIT 04h; also the client's place in the cyclic order of R149. -/
def Client.code : Client → Nat
  | .channel c => c
  | .fit => 4

/-- Intake state codes. -/
def Intake.code : Intake → Nat
  | .off => 0
  | .hunt => 1
  | .header _ => 2
  | .text _ => 3
  | .skip => 4

/-- Selection action codes. -/
def SelAction.code : SelAction → Nat
  | .take => 0
  | .reject => 1

/-- Reset cause codes: POWER-ON 01h, COLD 02h, WARM 03h; 00h is none. -/
def StartCause.code : StartCause → Nat
  | .powerOn => 1
  | .cold => 2
  | .warm => 3

/-- Pool condition codes; 00h where nothing has been raised. -/
def PoolCond.code : PoolCond → Nat
  | .low => 1
  | .empty => 2
  | .recovered => 3

/-- The sum of the weights of the members that are present. -/
def memberSum (ms : List (Bool × Nat)) : Nat := (ms.map fun m => if m.1 then m.2 else 0).sum

/-- A rights byte (Table 11-2). -/
def eRights (r : Rights) : List Byte := e8 (memberSum [(r.view, 1), (r.take, 2), (r.send, 4)])

/-- A job result of 6 bytes (11.4). -/
def eResult (r : JobResult) : List Byte :=
  e8 r.number ++ e8 r.edition ++ e8 r.outcome.code ++ e8 r.entries ++ e8 r.sent ++ e8 r.abandon.code

/-- A key report of 9 bytes (11.4). -/
def eReport (r : KeyReport) : List Byte :=
  e8 r.terminal ++ e8 r.key ++ e16 r.story ++ e16 r.offset ++ eTime r.time

end Sys2Proof.Machine
end

