-- ==== Sys2Proof/Machine/Text.lean ====
section
/-! DEFINITION. Display rows: how a text is wrapped in a pane, where an offset stands, and how a top offset is kept (spec/06, R102 to R104). Everything here is a function of a text and a width. -/

namespace Sys2Proof.Machine

/-- The paragraph mark (1.2). -/
def markCode : Byte := 0x0D#8

/-- A space. -/
def spaceCode : Byte := 0x20#8

/-- A display row: the offset it begins at and the number of characters it takes, hidden tail included. -/
structure DRow where
  start : Nat
  len : Nat
  deriving DecidableEq, Repr

/-- The place after the last space of a text, or none where it has no space. -/
def afterLastSpace (win : List Byte) : Option Nat :=
  let tail := win.reverse.takeWhile fun c => c ≠ spaceCode
  if tail.length = win.length then none else some (win.length - tail.length)

/-- How many characters the row that begins with this rest of the text takes, the five cases of R102 in order. -/
def rowLength (w : Nat) (rest : List Byte) : Nat :=
  let win := rest.take w
  let before := (win.takeWhile fun c => c ≠ markCode).length
  if before < win.length then before + 1
  else if rest.length ≤ w then rest.length
  else
    let after := rest.drop w
    if after.head? = some spaceCode then
      let spaces := (after.takeWhile fun c => c = spaceCode).length
      w + spaces + (if (after.drop spaces).head? = some markCode then 1 else 0)
    else if after.head? = some markCode then w + 1
    else (afterLastSpace win).getD w

/-- The rows of the rest of a text that begins at an offset; the fuel is its length and one more. endRow says that the text so far is empty or ends with a mark, so that a further end row stands at its end (R102). -/
def rowsFrom (w : Nat) : Nat → Nat → List Byte → Bool → List DRow
  | 0, _, _, _ => []
  | _ + 1, start, [], endRow => if endRow then [⟨start, 0⟩] else []
  | n + 1, start, c :: rest, _ =>
    let k := max 1 (rowLength w (c :: rest))
    ⟨start, k⟩ ::
      rowsFrom w n (start + k) ((c :: rest).drop k)
        (((c :: rest).take k).getLast? = some markCode)

/-- The display rows of a text in a pane of width w (R102). -/
def displayRows (w : Nat) (text : List Byte) : List DRow :=
  rowsFrom w (text.length + 1) 0 text true

/-- The index of the row an offset lies on: the last row that begins at or before it. -/
def rowIndex (rows : List DRow) (off : Nat) : Nat :=
  (rows.takeWhile fun r => r.start ≤ off).length - 1

/-- The row at an index. -/
def rowAt (rows : List DRow) (i : Nat) : DRow := rows.getD i ⟨0, 0⟩

/-- The start of the row an offset lies on. -/
def rowStart (rows : List DRow) (off : Nat) : Nat := (rowAt rows (rowIndex rows off)).start

/-- The column of an offset on its row, at most the width (R103). -/
def columnOf (w : Nat) (rows : List DRow) (off : Nat) : Nat :=
  min w (off - rowStart rows off + 1)

/-- The last offset of the row at an index: the length for the last row, otherwise the offset of its last character (R109). -/
def rowLastOffset (rows : List DRow) (i : Nat) : Nat :=
  let r := rowAt rows i
  if i + 1 = rows.length then r.start + r.len else r.start + r.len - 1

/-- The rows a pane shows from a top offset: up to 22 (R103). -/
def shownRows (rows : List DRow) (top : Nat) : List DRow := (rows.drop (rowIndex rows top)).take 22

/-- A top offset after n characters were inserted at a point: it rises when the point lies below it (R104 step 1). -/
def topAfterInsert (top point n : Nat) : Nat := if point < top then top + n else top

/-- A top offset after n characters were deleted from a point on: it falls by one for each that lay below it (R104 step 1). -/
def topAfterDelete (top point n : Nat) : Nat := top - min n (top - point)

/-- The top offset moved as little as brings the cursor's row into view (R104 step 3). -/
def topForCursor (rows : List DRow) (top cursor : Nat) : Nat :=
  let t := rowIndex rows top
  let c := rowIndex rows cursor
  if c < t then (rowAt rows c).start
  else if t + 21 < c then (rowAt rows (c - 21)).start
  else (rowAt rows t).start

end Sys2Proof.Machine
end

