-- ==== Sys2Proof/Machine/Setting.lean ====
section
/-! DEFINITION. The Setting Engine's method: words, greedy filling, forced breaks, line classes, one grant's work, depth and fit status (spec/07, R124 to R132). Widths are whole fine units. -/

namespace Sys2Proof.Machine

/-- A line's class (R129). -/
inductive LineClass where
  | justified | quadLeft
  deriving DecidableEq, Repr

/-- A line record (R130). -/
structure LineRec where
  para : Nat
  first : Bool
  chars : List Byte
  gaps : Nat
  cls : LineClass
  space : Option Nat
  loose : Bool
  forced : Bool
  deriving DecidableEq, Repr

/-- What the engine sets with: the face's widths and space limits and the effective setting (R132). -/
structure SetWith where
  widths : Vector Nat 95
  minSpace : Nat
  maxSpace : Nat
  setting : Setting
  deriving DecidableEq, Repr

/-- The width entry of a character, in units. -/
def SetWith.units (k : SetWith) (c : Byte) : Nat := k.widths.toList.getD (c.toNat - 0x20) 0

/-- The width of a character in fine units (R124). -/
def SetWith.charWidth (k : SetWith) (c : Byte) : Nat := k.units c * k.setting.size

/-- The width of a word: the sum of its characters' (R124). -/
def SetWith.width (k : SetWith) (w : List Byte) : Nat := (w.map k.charWidth).sum

/-- The normal space: the width entry of 20h. -/
def SetWith.normalSpace (k : SetWith) : Nat := k.units spaceCode

/-- The available width of a line (R124). -/
def SetWith.available (k : SetWith) (first : Bool) : Nat :=
  k.setting.measure * 36 - (if first then k.setting.indent * 36 else 0)

/-- The spaces a text begins with, counted. -/
def leadingSpaces (t : List Byte) : Nat := (t.takeWhile fun c => c = spaceCode).length

/-- The word a text begins with. -/
def headWord (t : List Byte) : List Byte := t.takeWhile fun c => c ≠ spaceCode

/-- The rest of a paragraph from its next word on. -/
def fromWord (t : List Byte) : List Byte := t.drop (leadingSpaces t)

/-- Take words greedily behind those of a line (R127). words are the words taken, width their total width, rest the text after them, not yet stepped over its gap. The fuel is the length of the text. -/
def fillLine (k : SetWith) (avail : Nat) :
    Nat → List (List Byte) → Nat → List Byte → List (List Byte) × Nat × List Byte
  | 0, words, width, rest => (words, width, rest)
  | n + 1, words, width, rest =>
    let next := headWord (fromWord rest)
    if next = [] then (words, width, rest)
    else if width + k.width next + words.length * k.minSpace * k.setting.size ≤ avail then
      fillLine k avail n (words ++ [next]) (width + k.width next) ((fromWord rest).drop next.length)
    else (words, width, rest)

/-- How many characters a forced line takes of its word: while their sum is at most the available width, and at least one (R128). -/
def forcedCount (k : SetWith) (avail : Nat) : Nat → List Byte → Nat
  | _, [] => 0
  | sum, c :: cs =>
    if sum + k.charWidth c ≤ avail then 1 + forcedCount k avail (sum + k.charWidth c) cs else 0

/-- The words of a line with one space for each gap (R130). -/
def joinWords : List (List Byte) → List Byte
  | [] => []
  | [w] => w
  | w :: ws => w ++ spaceCode :: joinWords ws

/-- The gap of a quad-left line with g gaps and words of total width w: the normal space if it fits, otherwise the largest number of units from the minimum on that fits (R130). -/
def quadSpace (k : SetWith) (avail w g : Nat) : Nat :=
  let fits := fun u => decide (w + g * u * k.setting.size ≤ avail)
  if fits k.normalSpace then k.normalSpace
  else ((List.range k.normalSpace).filter fun u => k.minSpace ≤ u && fits u).foldl max k.minSpace

/-- One line set from the text of a paragraph that begins with a word: the record, and the text after it from the next word on (R127 to R130). -/
def setLine (k : SetWith) (para : Nat) (first : Bool) (text : List Byte) : LineRec × List Byte :=
  let avail := k.available first
  let word := headWord text
  if avail < k.width word then
    let n := max 1 (forcedCount k avail 0 word)
    (⟨para, first, word.take n, 0, .quadLeft, none, false, true⟩, fromWord (text.drop n))
  else
    let r := fillLine k avail text.length [word] (k.width word) (text.drop word.length)
    let rest := fromWord r.2.2
    let g := r.1.length - 1
    let chars := joinWords r.1
    if rest = [] then
      (⟨para, first, chars, g, .quadLeft,
        if g = 0 then none else some (quadSpace k avail r.2.1 g), false, false⟩, [])
    else if g = 0 then (⟨para, first, chars, 0, .quadLeft, none, true, false⟩, rest)
    else
      (⟨para, first, chars, g, .justified, none,
        decide (g * k.maxSpace * k.setting.size < avail - r.2.1), false⟩, rest)

/-- The one line of an empty paragraph (R126). -/
def emptyLine (para : Nat) : LineRec := ⟨para, true, [], 0, .quadLeft, none, false, false⟩

/-- Set lines of a paragraph's rest until it ends or the lines run out: the records and the text not yet set (R132). The text begins with a word. -/
def setLines (k : SetWith) (para : Nat) : Nat → Bool → List Byte → List LineRec × List Byte
  | 0, _, text => ([], text)
  | _ + 1, _, [] => ([], [])
  | n + 1, first, c :: cs =>
    let l := setLine k para first (c :: cs)
    let r := setLines k para n false l.2
    (l.1 :: r.1, r.2)

/-- The characters of a text before its first paragraph mark (R125). -/
def paragraphText (t : List Byte) : List Byte := t.takeWhile fun c => c ≠ markCode

/-- One grant's work on a story from a resume point: the lines set, and the resume point of the next grant, or none when no paragraph is left (R132). -/
def grantWork (k : SetWith) (text : List Byte) (r0 : Resume) : List LineRec × Option Resume :=
  let rest := text.drop r0.offset
  if rest = [] then ([], none)
  else
    let par := paragraphText rest
    let body := fromWord par
    let nextOff := r0.offset + par.length + 1
    let nextPara : Option Resume :=
      if nextOff < text.length then some ⟨r0.para + 1, nextOff, true⟩ else none
    if body = [] then
      (if r0.first then [emptyLine r0.para] else [], nextPara)
    else
      let r := setLines k r0.para Config.grantLines r0.first body
      if r.2 = [] then (r.1, nextPara)
      else (r.1, some ⟨r0.para, r0.offset + (par.length - r.2.length), false⟩)

/-- The fit status of a depth D against a budget, both in half-points (R131). -/
def fitStatusOf (s : Setting) (lines : Nat) : FitStatus :=
  let d := lines * s.leading
  let b := s.budget * 2
  if s.budget = 0 then .none
  else if b < d then .over
  else if 2 * s.leading ≤ b - d then .short
  else .on

/-- The number of lines shown beside OVER and SHORT (R131). -/
def fitLines (s : Setting) (depth : Nat) : Nat :=
  let b := s.budget * 2
  if b < depth then (depth - b + s.leading - 1) / s.leading else (b - depth) / s.leading

end Sys2Proof.Machine
end

