-- ==== Sys2Proof/Machine/Compose.lean ====
section
/-! DEFINITION. The Screen Composer's images: layers, panes, message row, status row, rotation display, rest position (spec/05, R76 to R96; spec/06, R103). Every image is a function of the state. -/

namespace Sys2Proof.Machine

/-! ### Small readings -/

/-- The directory entry under an identifier, where it is in use. -/
def storyOf (s : State) (id : Nat) : Option Story := Tab.get? s.stories id

/-- A story's text (1.2). -/
def textOf (s : State) (st : Story) : List Byte := chainText s.memory st.chain

/-- A story's length (R3). -/
def lengthOf (s : State) (st : Story) : Nat := chainLength s.memory st.chain

/-- The deadline record of a basket's edition; none for edition 0 (3.2). -/
def editionOf (s : State) (e : Fin 5) : Option Edition :=
  if h : e.val = 0 then none else some s.editions[e.val - 1]

/-- The edition named by a basket is PASSED, so its stories show LATE (R56). -/
def basketLate (s : State) (b : Basket) : Bool :=
  match editionOf s b.edition with
  | none => false
  | some e => decide (e.state = .passed)

/-- A story shows LATE exactly when the edition of its basket is PASSED (R56). -/
def storyLate (s : State) (st : Story) : Bool := basketLate s s.baskets[st.basket]

/-- The clock's value as a time stamp, absent while UNSET (R57). -/
def stamp (s : State) : Option Nat := if s.clock.state = .unset then none else some s.clock.value

/-! ### Characters -/

/-- The codes of a piece of text. -/
def asc (t : String) : List Byte := t.toList.map fun c => BitVec.ofNat 8 c.toNat

/-- A decimal digit. -/
def digit (n : Nat) : Byte := BitVec.ofNat 8 (0x30 + n % 10)

/-- Two digits. -/
def two (n : Nat) : List Byte := [digit (n / 10), digit n]

/-- A number up to 999 without leading zeros; above 999 it is shown as 999 (R82). -/
def decimal (n : Nat) : List Byte :=
  let m := min n 999
  if m < 10 then [digit m]
  else if m < 100 then [digit (m / 10), digit m]
  else [digit (m / 100), digit (m / 10), digit m]

/-- HH:MM:SS (3.3). -/
def clockText (v : Nat) : List Byte :=
  two (v / 3600) ++ asc ":" ++ two (v / 60 % 60) ++ asc ":" ++ two (v % 60)

/-- A filed time in a rotation row (R95). -/
def timeText : Option Nat → List Byte
  | none => asc "--:--:--"
  | some v => clockText v

/-- Left-aligned in n columns, padded with spaces. -/
def padTo (n : Nat) (t : List Byte) : List Byte := (t ++ List.replicate n spaceCode).take n

/-- Characters as cells with one attribute. -/
def cellsOf (a : Attr) (t : List Byte) : List Cell := t.map fun c => ⟨c, a⟩

/-- Cells of n spaces. -/
def spaces (n : Nat) (a : Attr) : List Cell := List.replicate n ⟨spaceCode, a⟩

/-! ### The fields of the status row (R81 to R85) -/

/-- The text of a fit status (R82). -/
def fitText (st : Story) : List Byte :=
  match st.fit.status with
  | .over => asc "OVER " ++ decimal (fitLines st.setting st.fit.depth) ++ asc "L"
  | .short => asc "SHORT " ++ decimal (fitLines st.setting st.fit.depth) ++ asc "L"
  | .on => asc "ON"
  | .unknown => asc "FIT ?"
  | .pending => asc "FIT .."
  | .none => []

/-- The story of a terminal's edit session. -/
def sessionStory (s : State) (t : Fin 32) : Option Story :=
  match s.panes[t].session with
  | none => none
  | some e => storyOf s e.story

/-- The clock field (Table 3-1). -/
def clockField (s : State) : List Cell :=
  match s.clock.state with
  | .unset => cellsOf .normal (asc "--:--:--")
  | .running => cellsOf .normal (clockText s.clock.value)
  | .stopped => cellsOf .inverse (clockText s.clock.value)

/-- The state field: the first condition that applies (R83). -/
def stateField (s : State) (t : Fin 32) : List Byte :=
  if s.link.hostLost then asc "HOST LOST"
  else match s.screens[t].flash with
    | some f => asc "FLASH " ++ padTo 10 f.slug
    | none =>
      match sessionStory s t with
      | some st => if storyLate s st then asc "LATE" else s.screens[t].status
      | none => s.screens[t].status

/-- The edition countdown (R85). -/
def countdown (s : State) (t : Fin 32) : List Byte :=
  match sessionStory s t with
  | none => []
  | some st =>
    let e := s.baskets[st.basket].edition
    match editionOf s e with
    | none => []
    | some d =>
      match d.state with
      | .passed => asc "E" ++ decimal e ++ asc " LATE"
      | .unarmed => []
      | .armed =>
        if s.clock.state = .unset then []
        else
          let m := (d.time - s.clock.value + 59) / 60
          asc "E" ++ decimal e ++ asc " " ++ decimal (m / 60) ++ asc ":" ++ two (m % 60)

/-- Row 24 of a terminal's own image (R81). -/
def statusRow (s : State) (t : Fin 32) : List Cell :=
  let slug := match sessionStory s t with
    | none => []
    | some st => st.slug
  let fit := match sessionStory s t with
    | none => []
    | some st => fitText st
  clockField s ++ cellsOf .normal
    (padTo 1 [] ++ padTo 16 slug ++ padTo 1 [] ++ padTo 10 fit ++ padTo 1 [] ++
      padTo 16 (stateField s t) ++ padTo 1 [] ++ padTo 8 (countdown s t) ++ padTo 15 [] ++
      padTo 3 (if s.slots[t].isSome then asc "MSG" else []))

/-! ### Panes and the message row (R79, R80, R103) -/

/-- The cells of one display row in a pane: its first W characters, a paragraph mark as a space (R103). -/
def paneRow (w : Nat) (text : List Byte) (r : DRow) : List Cell :=
  let chars := ((text.drop r.start).take r.len).take w
  cellsOf .normal (padTo w (chars.map fun c => if c = markCode then spaceCode else c))

/-- The 22 rows of an open pane of width w (R103). -/
def paneRows (w : Nat) (text : List Byte) (top : Nat) : List (List Cell) :=
  let shown := (shownRows (displayRows w text) top).map (paneRow w text)
  (shown ++ List.replicate 22 (spaces w .normal)).take 22

/-- The width of the edit pane (6.3). -/
def editWidth (l : Layout) : Nat :=
  match l with
  | .full => 80
  | .split => 40

/-- The width of the reference pane (6.3). -/
def refWidth : Nat := 39

/-- The rows of the edit pane where a session is open. -/
def editRows (s : State) (t : Fin 32) : Option (List (List Cell)) :=
  match s.panes[t].session with
  | none => none
  | some e => some <|
    match storyOf s e.story with
    | none => paneRows (editWidth s.lines[t].layout) [] 0
    | some st => paneRows (editWidth s.lines[t].layout) (textOf s st) e.top

/-- The rows of the reference pane where it is open. -/
def refRows (s : State) (t : Fin 32) : Option (List (List Cell)) :=
  match s.panes[t].ref with
  | none => none
  | some r => some <|
    match storyOf s r.story with
    | none => paneRows refWidth [] 0
    | some st => paneRows refWidth (textOf s st) r.top

/-- The slug of the reference pane's story. -/
def refSlug (s : State) (t : Fin 32) : Option (List Byte) :=
  match s.panes[t].ref with
  | none => none
  | some r => (storyOf s r.story).map (·.slug)

/-- Row 1 with a full message slot (R80). -/
def messageRow (s : State) (m : Message) : List Cell :=
  cellsOf .inverse
    (padTo 60 m.text ++ padTo 6 [] ++ padTo 12 s.desks[m.sender].name ++ padTo 2 [])

/-- Rows 1 to 23 of the base layer under the pane layer (R76, R79). -/
def layeredRows (s : State) (t : Fin 32) : List (List Cell) :=
  let base := s.screens[t].base
  match s.lines[t].layout with
  | .full =>
    match editRows s t with
    | none => base
    | some rows => base.take 1 ++ rows
  | .split =>
    let row1 := base.headD blankRow
    let first := match refSlug s t with
      | none => row1
      | some slug => cellsOf .bright (padTo 16 slug) ++ row1.drop 16
    let under := base.drop 1
    let left := (refRows s t).getD (under.map (·.take 39))
    let right := (editRows s t).getD (under.map (·.drop 40))
    first :: (left.zip right).map fun p => p.1 ++ [⟨0x7C#8, .normal⟩] ++ p.2

/-! ### The rotation display (R95) -/

/-- The letter of a priority class. -/
def priorityLetter : Priority → List Byte
  | .flash => asc "F"
  | .urgent => asc "U"
  | .routine => asc "R"

/-- The word of a story state. -/
def holdingWord : Holding → List Byte
  | .idle => asc "IDLE"
  | .filing _ => asc "FILING"
  | .editing _ => asc "EDITING"
  | .setting _ => asc "SETTING"

/-- A story row of the rotation display. -/
def rotationStoryRow (st : Story) : List Cell :=
  cellsOf (if st.priority = .flash then .bright else .normal)
    (padTo 80 (padTo 16 st.slug ++ padTo 1 [] ++ priorityLetter st.priority ++ padTo 1 [] ++
      padTo 7 (holdingWord st.holding) ++ padTo 1 [] ++ padTo 10 (fitText st) ++ padTo 1 [] ++
      timeText st.filed))

/-- The basket a rotation record shows. -/
def Rotation.shown (r : Rotation) : Option (Fin 64) := r.baskets[r.position - 1]?

/-- Rows 1 to 23 of a rotation display. -/
def rotationRows (s : State) (r : Rotation) : List (List Cell) :=
  match r.shown with
  | none => List.replicate 23 blankRow
  | some b =>
    let bk := s.baskets[b]
    let ed := if bk.edition.val = 0 then [] else asc "E" ++ decimal bk.edition
    let late := if basketLate s bk then asc "LATE" else []
    let head := cellsOf .bright
      (padTo 12 bk.name ++ padTo 1 [] ++ padTo 2 ed ++ padTo 1 [] ++ padTo 4 late ++ padTo 54 [] ++
        padTo 6 (decimal r.position ++ asc " OF " ++ decimal r.baskets.length))
    let rows := (bk.list.take 22).filterMap fun id => (storyOf s id).map rotationStoryRow
    head :: (rows ++ List.replicate 22 blankRow).take 22

/-! ### Own and shown images (R76, R90, R93) -/

/-- The 24 rows of a terminal's own image (R76). -/
def ownRows (s : State) (t : Fin 32) : List (List Cell) :=
  let body := match s.screens[t].mode with
    | .rotating r => rotationRows s r
    | _ => layeredRows s t
  let topped := match s.slots[t] with
    | none => body
    | some m => messageRow s m :: body.drop 1
  topped ++ [statusRow s t]

/-- The cursor cell of an open edit session (R103). -/
def cursorCell (s : State) (t : Fin 32) (e : Session) : Nat × Nat :=
  match storyOf s e.story with
  | none => (24, 80)
  | some st =>
    let w := editWidth s.lines[t].layout
    let rows := displayRows w (textOf s st)
    let left := match s.lines[t].layout with
      | .full => 0
      | .split => 40
    (2 + (rowIndex rows e.cursor - rowIndex rows e.top), left + columnOf w rows e.cursor)

/-- The rest position of a terminal's own image (R90). -/
def ownRest (s : State) (t : Fin 32) : Nat × Nat :=
  match s.screens[t].mode with
  | .rotating _ => (24, 80)
  | _ =>
    match s.panes[t].session with
    | none => (24, 80)
    | some e =>
      match e.focus with
      | .edit => cursorCell s t e
      | .reference => (2, 1)

/-- A terminal's own image. -/
def ownImage (s : State) (t : Fin 32) : Image := ⟨ownRows s t, ownRest s t⟩

/-- The image a terminal shows: its own, or its watch target's (R76, R93). -/
def shownImage (s : State) (t : Fin 32) : Image :=
  match s.screens[t].mode with
  | .watching target => ownImage s target
  | _ => ownImage s t

end Sys2Proof.Machine
end

