-- ==== Sys2Proof/Machine/Emitter.lean ====
section
/-! DEFINITION. The row-change set and the emitter: what the Screen Composer places in a transmit FIFO (spec/05, R88 to R91; spec/04, R72, R73). -/

namespace Sys2Proof.Machine

/-- The codes sent to a terminal (R73). -/
def positionCode (p : Nat × Nat) : List Byte :=
  [0x10#8, BitVec.ofNat 8 (0x20 + p.1 - 1), BitVec.ofNat 8 (0x20 + p.2 - 1)]

/-- Attribute numbers 0 to 3. -/
def Attr.code : Attr → Nat
  | .normal => 0
  | .bright => 1
  | .inverse => 2
  | .underline => 3

/-- The attribute code (R73). -/
def attrCode (a : Attr) : List Byte := [0x11#8, BitVec.ofNat 8 (0x30 + a.code)]

/-- Bell, clear to end of row, clear screen (R73). -/
def bellCode : List Byte := [0x07#8]
def clearRowCode : List Byte := [0x12#8]
def clearScreenCode : List Byte := [0x13#8]

/-! ### Row changes (R88) -/

/-- Rows 1 to 24. -/
def allRows : List Nat := List.range' 1 24

/-- Add every row that satisfies a test to a row-change set, kept in rising order. -/
def markWhere (marks : List Nat) (p : Nat → Bool) : List Nat :=
  allRows.filter fun r => marks.contains r || p r

/-- All 24 rows in the set (R88). -/
def Screen.markAll (sc : Screen) : Screen := { sc with marks := allRows }

/-- Recompose: the rows whose cells differ from the image composed before join the set (R76, R88). -/
def Screen.recompose (sc : Screen) (im : Image) : Screen :=
  { sc with
    composed := im
    marks := markWhere sc.marks fun r => sc.composed.rows[r - 1]? != im.rows[r - 1]? }

/-- A repaint: sent image UNKNOWN, row in hand dropped, last row none, all rows in the set (R91). -/
def Screen.repaint (sc : Screen) : Screen :=
  { sc with sent := none, hand := none, last := none, marks := allRows }

/-! ### Taking a row in hand (R89) -/

/-- The columns, from 1, in which two rows differ. -/
def differingColumns (shown sent : List Cell) : List Nat :=
  ((shown.zip sent).zipIdx 1).filterMap fun p => if p.1.1 = p.1.2 then none else some p.2

/-- The lowest column from which every cell of a row is a space with attribute normal; 81 if cell 80 is not (R89 step 2). -/
def clearColumn (shown : List Cell) : Nat :=
  81 - (shown.reverse.takeWhile fun c => c = Cell.blank).length

/-- The codes of cells: an attribute code where the attribute changes, then the character (R89 step 3); and the attribute then current. -/
def cellCodes : Attr → List Cell → List (List Byte) × Attr
  | a, [] => ([], a)
  | a, c :: cs =>
    let r := cellCodes c.attr cs
    ((if c.attr = a then [[c.ch]] else [attrCode c.attr, [c.ch]]) ++ r.1, r.2)

/-- The codes of a row in hand between its first and last differing columns, the cursor cell they leave, and the current attribute they leave (R89 steps 2 to 4, R73). -/
def rowCodes (row : Nat) (shown : List Cell) (f l : Nat) (attr : Attr) :
    List (List Byte) × (Nat × Nat) × Attr :=
  let j := clearColumn shown
  let stop := if j ≤ l then j - 1 else l
  let cells := (shown.take stop).drop (f - 1)
  let r := cellCodes attr cells
  (positionCode (row, f) :: r.1 ++ (if j ≤ l then [clearRowCode] else []),
    (row, min 80 (f + cells.length)), r.2)

/-- The row the emitter takes next: the lowest marked row above the last it took, or else the lowest marked row (R89). -/
def nextRow (sc : Screen) : Option Nat :=
  match sc.marks.find? (fun r => (sc.last.getD 0) < r) with
  | some r => some r
  | none => sc.marks.head?

/-- Take a marked row: it leaves the set; where a cell differs its codes come in hand and the sent image takes it (R89). -/
def takeRow (sc : Screen) (im : Sent) (r : Nat) : Screen :=
  let shown := (sc.composed.rows[r - 1]?).getD blankRow
  let sc := { sc with last := some r, marks := sc.marks.erase r }
  match differingColumns shown ((im.rows[r - 1]?).getD blankRow) with
  | [] => sc
  | f :: more =>
    let c := rowCodes r shown f (more.getLastD f) im.attr
    { sc with
      hand := some (r, c.1)
      sent := some ⟨im.rows.set (r - 1) shown, c.2.1, c.2.2⟩ }

/-! ### Placing codes (R89 to R91) -/

/-- Place codes in the transmit FIFO, whole codes only, until nothing is left to send or the next code does not fit; then wait for a request (R89). A row is taken in hand, and marked as sent, as soon as one byte is free, before its position code fits (log entry 42). The fuel bounds the codes placed and the rows taken. -/
def emit : Nat → Screen → List Byte → Screen × List Byte
  | 0, sc, tx => (sc, tx)
  | n + 1, sc, tx =>
    if sc.waiting then (sc, tx)
    else
      let fits := fun (code : List Byte) => decide (tx.length + code.length ≤ Config.txFifo)
      let stop : Screen × List Byte := ({ sc with waiting := true }, tx)
      match sc.sent with
      | none =>
        if sc.bell then
          if fits bellCode then emit n { sc with bell := false } (tx ++ bellCode) else stop
        else if fits clearScreenCode then
          emit n { sc with sent := some Sent.cleared } (tx ++ clearScreenCode)
        else stop
      | some im =>
        match sc.hand with
        | some (_, []) => emit n { sc with hand := none } tx
        | some (r, code :: codes) =>
          if fits code then
            emit n { sc with hand := if codes = [] then none else some (r, codes) } (tx ++ code)
          else stop
        | none =>
          if sc.bell then
            if fits bellCode then emit n { sc with bell := false } (tx ++ bellCode) else stop
          else match nextRow sc with
            | some r => if fits [0] then emit n (takeRow sc im r) tx else stop
            | none =>
              if im.cursor = sc.composed.rest then (sc, tx)
              else if fits (positionCode sc.composed.rest) then
                emit n { sc with sent := some { im with cursor := sc.composed.rest } }
                  (tx ++ positionCode sc.composed.rest)
              else stop

/-- Enough fuel for a whole refill: 32 bytes, 24 rows taken, and the steps between them. -/
def emitFuel : Nat := 160

/-- What a terminal's screen and line become at the end of an event: the shown image is composed, the emitter places what it can, and a line at rest begins the byte at the head of its FIFO, in the frame of its format (R58, R72, R76, R89). A detached terminal composes and emits nothing (R75). A watcher has its own rows marked where what it shows has changed (R93; log entry 40). -/
def refreshTerminal (s : State) (t : Fin 32) : Screen × Line :=
  let l := s.lines[t]
  if l.attached then
    let r := emit emitFuel (s.screens[t].recompose (shownImage s t)) l.tx
    let l := { l with tx := r.2 }
    (r.1, { l with
      sending := match l.sending with
        | .busy b f => .busy b f
        | .rest => match l.tx with
          | [] => .rest
          | b :: _ => .busy (sendFrame l.format b) true })
  else (s.screens[t], l)

end Sys2Proof.Machine
end

