-- ==== Sys2Proof/Machine/Flags.lean ====
section
/-! DEFINITION. Raising the 48 notice sources and the members of their summaries (Table 10-2, R186; R8, R74, R179, R182). -/

namespace Sys2Proof.Machine

/-! ### The positions of Table 10-2 -/

/-- PART, LINK, POOL and KEYS. -/
def srcPart : Fin 48 := 0
def srcLink : Fin 48 := 1
def srcPool : Fin 48 := 2
def srcKeys : Fin 48 := 47
/-- EDITION 1 to 4; the editions are numbered from 0 here. -/
def srcEdition (e : Fin 4) : Fin 48 := ⟨3 + e, by omega⟩
/-- CHANNEL 0 to 3. -/
def srcChannel (c : Fin 4) : Fin 48 := ⟨7 + c, by omega⟩
/-- WIRE 0 to 3. -/
def srcWire (w : Fin 4) : Fin 48 := ⟨11 + w, by omega⟩
/-- TERMINAL 0 to 31. -/
def srcTerminal (t : Fin 32) : Fin 48 := ⟨15 + t, by omega⟩

/-! ### Raises -/

/-- Make a source pending or clear. -/
def Notices.setPending (n : Notices) (i : Fin 48) (p : Bool) : Notices :=
  { n with pending := n.pending.set i p }

/-- Make a source pending: a raise with nothing to merge (R186). -/
def raiseSource (i : Fin 48) (s : State) : State :=
  { s with notices := s.notices.setPending i true }

/-- Raise LINK with a member of its error set (R182). -/
def raiseLink (f : LinkErrors → LinkErrors) (s : State) : State :=
  { s with notices := { s.notices.setPending srcLink true with link := f s.notices.link } }

/-- The members of the LINK error set. -/
def LinkErrors.addLength (e : LinkErrors) : LinkErrors := { e with length := true }
def LinkErrors.addGap (e : LinkErrors) : LinkErrors := { e with gap := true }
def LinkErrors.addCheck (e : LinkErrors) : LinkErrors := { e with check := true }
def LinkErrors.addOverrun (e : LinkErrors) : LinkErrors := { e with overrun := true }

/-- Raise PART with HOST-BACK (R191). -/
def raiseHostBack (s : State) : State :=
  { s with notices :=
      { s.notices.setPending srcPart true with part := { s.notices.part with hostBack := true } } }

/-- Raise POOL with a condition: the summary takes the present free count, the present wire reserve and the condition (R8). -/
def raisePool (cond : PoolCond) (s : State) : State :=
  { s with notices :=
      { s.notices.setPending srcPool true with
        pool := ⟨Memory.freeCount s.memory, s.reserve, some cond⟩ } }

/-- Raise a TERMINAL source with a member of its event set (R74). -/
def raiseTerminal (t : Fin 32) (f : TermEvents → TermEvents) (s : State) : State :=
  { s with notices :=
      { s.notices.setPending (srcTerminal t) true with
        terminal := s.notices.terminal.set t (f s.notices.terminal[t]) } }

/-- The members of a terminal's event set. -/
def TermEvents.addAttention (e : TermEvents) : TermEvents := { e with attention := true }
def TermEvents.addLineError (e : TermEvents) : TermEvents := { e with lineError := true }
def TermEvents.addMessageCleared (e : TermEvents) : TermEvents := { e with messageCleared := true }
def TermEvents.addKeysRefused (e : TermEvents) : TermEvents := { e with keysRefused := true }
def TermEvents.addWindowClosed (e : TermEvents) : TermEvents := { e with windowClosed := true }

/-- Raise a WIRE source with a change of its summary (R179). -/
def raiseWire (w : Fin 4) (f : WireSummary → WireSummary) (s : State) : State :=
  { s with notices :=
      { s.notices.setPending (srcWire w) true with
        wire := s.notices.wire.set w (f s.notices.wire[w]) } }

/-- The members and counts of a WIRE summary; the counts saturate at 255. -/
def WireSummary.addCharacter (e : WireSummary) : WireSummary := { e with character := true }
def WireSummary.addOverrun (e : WireSummary) : WireSummary := { e with overrun := true }
def WireSummary.addHeader (e : WireSummary) : WireSummary := { e with header := true }
def WireSummary.addCut (e : WireSummary) : WireSummary := { e with cut := true }
def WireSummary.addFiled (e : WireSummary) : WireSummary := { e with filed := min 255 (e.filed + 1) }
def WireSummary.addDropped (e : WireSummary) : WireSummary :=
  { e with dropped := min 255 (e.dropped + 1) }

/-- Withdraw a pending KEYS without a notice (R70, R186). -/
def withdrawKeys (s : State) : State :=
  { s with notices := s.notices.setPending srcKeys false }

end Sys2Proof.Machine
end

