-- ==== Sys2Proof/Machine/Ops.lean ====
section
/-! DEFINITION. The shared operations on stories, panes, the Fit Queue, baskets, editions, bells and screens (spec/01 to spec/07). Each says once what its rule says; the meanings call them. -/

namespace Sys2Proof.Machine

/-! ### One entry of a block's table -/

/-- Change one terminal line. -/
def modLine (t : Fin 32) (f : Line → Line) (s : State) : State :=
  { s with lines := s.lines.set t (f s.lines[t]) }

/-- Change one screen. -/
def modScreen (t : Fin 32) (f : Screen → Screen) (s : State) : State :=
  { s with screens := s.screens.set t (f s.screens[t]) }

/-- Change a terminal's pane records. -/
def modPanes (t : Fin 32) (f : Panes → Panes) (s : State) : State :=
  { s with panes := s.panes.set t (f s.panes[t]) }

/-- Set a terminal's message slot. -/
def setSlot (t : Fin 32) (m : Option Message) (s : State) : State :=
  { s with slots := s.slots.set t m }

/-- Change one channel. -/
def modChannel (c : Fin 4) (f : Channel → Channel) (s : State) : State :=
  { s with channels := s.channels.set c (f s.channels[c]) }

/-- Change one wire line. -/
def modWire (w : Fin 4) (f : Wire → Wire) (s : State) : State :=
  { s with wires := s.wires.set w (f s.wires[w]) }

/-- Change one basket. -/
def modBasket (b : Fin 64) (f : Basket → Basket) (s : State) : State :=
  { s with baskets := s.baskets.set b (f s.baskets[b]) }

/-- Change one edition record; the editions are numbered from 0 here. -/
def modEdition (e : Fin 4) (f : Edition → Edition) (s : State) : State :=
  { s with editions := s.editions.set e (f s.editions[e]) }

/-- Write a story's entry. -/
def setStory (id : Nat) (st : Story) (s : State) : State :=
  { s with stories := Tab.put s.stories id st }

/-- Change a story's entry where it is in use. -/
def modStory (id : Nat) (f : Story → Story) (s : State) : State :=
  match storyOf s id with
  | none => s
  | some st => setStory id (f st) s

/-- Do something for each terminal in ascending order. -/
def forTerminals (f : Fin 32 → State → State) (s : State) : State :=
  (List.finRange 32).foldl (fun s t => f t s) s

/-! ### Bells, repaints and marks (R88, R90, R91) -/

/-- Request a bell (R90). -/
def bell (t : Fin 32) (s : State) : State := modScreen t (fun sc => { sc with bell := true }) s

/-- Repaint a terminal (R91). -/
def repaint (t : Fin 32) (s : State) : State := modScreen t Screen.repaint s

/-- Mark all rows of a terminal (R88). -/
def markAll (t : Fin 32) (s : State) : State := modScreen t Screen.markAll s

/-- Hand a flash alert to a terminal with a slug (R87). -/
def flashAlert (slug : List Byte) (t : Fin 32) (s : State) : State :=
  modScreen t (fun sc => { sc with flash := some ⟨slug.take 10, s.now⟩, bell := true }) s

/-! ### Fit records and the Fit Queue (R16, R120, R134) -/

/-- The status a change of text, setting or table leaves: PENDING stays, any other becomes UNKNOWN (R16). -/
def FitRecord.outdate (f : FitRecord) : FitRecord :=
  if f.status = .pending then f else { f with status := .unknown }

/-- Set a story's fit status. -/
def setFitStatus (id : Nat) (x : FitStatus) (s : State) : State :=
  modStory id (fun st => { st with fit := { st.fit with status := x } }) s

/-- A story stands in the Fit Queue. -/
def inFitQueue (s : State) (id : Nat) : Bool := s.fit.list.any fun i => i.story = id

/-- A story joins the tail of the Fit Queue with restart count 0 and status PENDING (R134, R135). -/
def joinFitQueue (id : Nat) (s : State) : State :=
  setFitStatus id .pending { s with fit := { s.fit with list := s.fit.list ++ [⟨id, 0⟩] } }

/-- An automatic offer (R134). -/
def autoOffer (id : Nat) (s : State) : State :=
  match storyOf s id with
  | none => s
  | some st =>
    if !s.faces[st.setting.face].loaded then s
    else if inFitQueue s id then s
    else if s.fit.list.length < Config.fitMax then joinFitQueue id s
    else setStory id { st with fit := st.fit.outdate } s

/-- A story leaves the Fit Queue's list. -/
def dropFromFitList (id : Nat) (s : State) : State :=
  { s with fit := { s.fit with list := s.fit.list.filter fun i => i.story ≠ id } }

/-- The fit in progress is of this story. -/
def fitIsOf (s : State) (id : Nat) : Bool :=
  match s.fit.progress with
  | none => false
  | some p => p.story = id && !p.abandoned

/-! ### Text changes (R9, R16, R112, R114) -/

/-- A text change of a story: its version rises by one, 65535 followed by 0, and its fit status follows (R16). -/
def Story.textChanged (st : Story) : Story :=
  { st with version := st.version + 1, fit := st.fit.outdate }

/-- The recovery test after a rise of the free count (R8). -/
def recoveryTest (s : State) : State :=
  if s.pressure && decide (s.reserve < Memory.freeCount s.memory) then
    { raisePool .recovered s with pressure := false }
  else s

/-- POOL raised with EMPTY or LOW: pool pressure becomes RAISED (R8). -/
def poolPressed (cond : PoolCond) (s : State) : State := { raisePool cond s with pressure := true }

/-- A reference pane's top offset after a change of its story: moved, and brought to the start of its row (R104 steps 1 and 2). -/
def keepRefTop (s : State) (id : Nat) (move : Nat → Nat) (p : Panes) : Panes :=
  match p.ref, storyOf s id with
  | some r, some st =>
    if r.story = id then
      { p with ref := some ⟨r.story, rowStart (displayRows refWidth (textOf s st)) (move r.top)⟩ }
    else p
  | _, _ => p

/-- Every reference pane that shows a story has its top offset kept (R114). -/
def keepRefTops (id : Nat) (move : Nat → Nat) (s : State) : State :=
  { s with panes := Vector.ofFn fun t => keepRefTop s id move s.panes[t] }

/-- An edit session's top offset after its story or cursor changed (R104 steps 1 to 3). -/
def keepSessionTop (t : Fin 32) (move : Nat → Nat) (s : State) : State :=
  modPanes t (fun p =>
    match p.session with
    | none => p
    | some e =>
      match storyOf s e.story with
      | none => p
      | some st =>
        let rows := displayRows (editWidth s.lines[t].layout) (textOf s st)
        let top := topForCursor rows (rowStart rows (move e.top)) e.cursor
        { p with session := some { e with top := top } }) s

/-- Write a story's new memory and chain. -/
def setText (id : Nat) (st : Story) (m : Memory) (chain : List Nat) (s : State) : State :=
  setStory id { st with chain := chain } { s with memory := m }

/-- Delete the character at an offset of a story; a freed block is followed by the recovery test (R7, R8). The version is the caller's. -/
def deleteAt (id k : Nat) (s : State) : State :=
  match storyOf s id with
  | none => s
  | some st =>
    let r := deleteChar s.memory st.chain k
    let s := setText id st r.1 r.2.1 s
    if r.2.2 then recoveryTest s else s

/-- Insert a character at an insertion point of a story; a refusal leaves everything as it was (R6). The version is the caller's. -/
def insertAt (id k : Nat) (c : Byte) (s : State) : State :=
  match storyOf s id with
  | none => s
  | some st =>
    match insertChar s.memory st.chain k c with
    | .made m chain => setText id st m chain s
    | .atCap => s
    | .poolEmpty => s

/-- Delete n characters from an offset on, one at a time (R22). -/
def deleteMany (id k : Nat) : Nat → State → State
  | 0, s => s
  | n + 1, s => deleteMany id k n (deleteAt id k s)

/-- Insert a text at a point, one character at a time, each just after the one before (R22). -/
def insertMany (id : Nat) : Nat → List Byte → State → State
  | _, [], s => s
  | k, c :: cs, s => insertMany id (k + 1) cs (insertAt id k c s)

/-! ### Panes (R33, R35, R116, R117) -/

/-- The view check of a terminal key against a story (R33). -/
def viewCheck (key : Fin 16) (st : Story) : Bool :=
  key.val = 0 || !st.embargo || key = st.key

/-- The change check of a terminal key against a story (R33). -/
def changeCheck (key : Fin 16) (st : Story) : Bool :=
  key.val = 0 || st.key.val = 0 || key = st.key

/-- The rights of a terminal's desk over a basket. -/
def rightsOver (s : State) (t : Fin 32) (b : Fin 64) : Rights := s.desks[s.lines[t].desk].row[b]

/-- A story returns to IDLE with no holder (R14). -/
def release (id : Nat) (s : State) : State := modStory id (fun st => { st with holding := .idle }) s

/-- A story passes to a new state with its claimant (R14). -/
def claim (id : Nat) (h : Holding) (s : State) : State :=
  modStory id (fun st => { st with holding := h }) s

/-- Close a terminal's edit session: its story is released, offered for a fit if the session was modified and the cause offers one, and the record closes (R116, R117). -/
def closeSession (t : Fin 32) (offer : Bool) (s : State) : State :=
  match s.panes[t].session with
  | none => s
  | some e =>
    let s := release e.story s
    let s := if offer && e.modified then autoOffer e.story s else s
    modPanes t (fun p => { p with session := none }) s

/-- Clear a terminal's reference pane; the focus becomes EDIT if it was REFERENCE (R110, R116). -/
def clearRef (t : Fin 32) (s : State) : State :=
  modPanes t (fun p =>
    { session := p.session.map fun e => { e with focus := .edit }
      ref := none }) s

/-- How many panes of each kind a terminal has open. -/
def openPanes (s : State) (t : Fin 32) : Nat × Nat :=
  (if s.panes[t].session.isSome then 1 else 0, if s.panes[t].ref.isSome then 1 else 0)

/-- Close both panes of a terminal at the host's wish, with the fit offer and without WINDOW-CLOSED (R117). -/
def closePanes (t : Fin 32) (s : State) : State := clearRef t (closeSession t true s)

/-- An open pane on this story is tested: every pane, or the panes that show one story (R35). -/
def concerned (only : Option Nat) (story : Nat) : Bool :=
  match only with
  | none => true
  | some id => id = story

/-- A terminal may see a story: its desk has VIEW on the basket and its key passes the view check (R35). -/
def maySee (s : State) (t : Fin 32) (st : Story) : Bool :=
  (rightsOver s t st.basket).view && viewCheck s.lines[t].key st

/-- The edit session of a terminal fails the pane re-check. -/
def sessionFails (s : State) (t : Fin 32) (only : Option Nat) : Bool :=
  match s.panes[t].session with
  | none => false
  | some e =>
    match storyOf s e.story with
    | none => false
    | some st =>
      concerned only e.story && !(maySee s t st && changeCheck s.lines[t].key st)

/-- The reference pane of a terminal fails the pane re-check. -/
def refFails (s : State) (t : Fin 32) (only : Option Nat) : Bool :=
  match s.panes[t].ref with
  | none => false
  | some r =>
    match storyOf s r.story with
    | none => false
    | some st => concerned only r.story && !maySee s t st

/-- The pane re-check at one terminal: each pane that fails is closed or cleared and raises WINDOW-CLOSED (R35). -/
def recheck (only : Option Nat) (t : Fin 32) (s : State) : State :=
  let s := if sessionFails s t only then
    raiseTerminal t TermEvents.addWindowClosed (closeSession t true s) else s
  if refFails s t only then raiseTerminal t TermEvents.addWindowClosed (clearRef t s) else s

/-- The pane re-check at every attached terminal that satisfies a test, in ascending order (R35; log entry 39). -/
def recheckWhere (p : State → Fin 32 → Bool) (only : Option Nat) (s : State) : State :=
  forTerminals (fun t s => if s.lines[t].attached && p s t then recheck only t s else s) s

/-- How many edit sessions and reference panes are open in all. -/
def panesOpen (s : State) : Nat × Nat :=
  (((List.finRange 32).filter fun t => s.panes[t].session.isSome).length,
    ((List.finRange 32).filter fun t => s.panes[t].ref.isSome).length)

/-! ### Basket lists (R31) -/

/-- The rank of a class in a list: FLASH first. -/
def Priority.rank : Priority → Nat
  | .flash => 0
  | .urgent => 1
  | .routine => 2

/-- The class of a listed story. -/
def classOf (s : State) (id : Nat) : Nat :=
  match storyOf s id with
  | none => 2
  | some st => st.priority.rank

/-- Join a list at the tail of a class: before the first story of a lower class (R31). -/
def joinList (s : State) (rank id : Nat) : List Nat → List Nat
  | [] => [id]
  | x :: xs => if rank < classOf s x then id :: x :: xs else x :: joinList s rank id xs

/-- A story joins its basket's list (R31). -/
def joinBasket (b : Fin 64) (id : Nat) (s : State) : State :=
  modBasket b (fun bk => { bk with list := joinList s (classOf s id) id bk.list }) s

/-- A story leaves its basket's list; those after it close up (R31). -/
def leaveBasket (b : Fin 64) (id : Nat) (s : State) : State :=
  modBasket b (fun bk => { bk with list := bk.list.erase id }) s

/-! ### Creation (R13) -/

/-- The lowest free story identifier, if the directory has room (R13). -/
def freeStory? (s : State) : Option Nat :=
  if Tab.lowestFree s.stories 1 ≤ Config.stories then some (Tab.lowestFree s.stories 1) else none

/-- A new entry (R13). -/
def newStory (s : State) (slug : List Byte) (b : Fin 64) (p : Priority) (key : Fin 16)
    (embargo : Bool) (h : Holding) (origin : Option Origin) : Story where
  slug := slug
  basket := b
  priority := p
  holding := h
  key := key
  embargo := embargo
  garbled := false
  cut := false
  chain := []
  version := 0
  filed := stamp s
  moved := none
  origin := origin
  setting := s.baskets[b].default.getD Setting.partDefault
  fit := FitRecord.fresh

/-- Put a new story in the directory and in its basket's list (R13, R31). -/
def createStory (id : Nat) (st : Story) (s : State) : State :=
  joinBasket st.basket id (setStory id st s)

/-! ### Edition passage (R52) -/

/-- The passage test holds of an edition against the clock (R52). -/
def passes (s : State) (e : Fin 4) : Bool :=
  s.clock.state ≠ .unset && s.editions[e].state = .armed && s.editions[e].time ≤ s.clock.value

/-- The passage test of one edition: it becomes PASSED and its EDITION notice is raised (R52). Screens, lateness and the arbiter's promotion read the record. -/
def passageTest (e : Fin 4) (s : State) : State :=
  if passes s e then raiseSource (srcEdition e) (modEdition e (fun d => { d with state := .passed }) s)
  else s

/-- The passage test of every edition (R46, R47). -/
def passageTests (s : State) : State :=
  (List.finRange 4).foldl (fun s e => passageTest e s) s

/-! ### Rotation (R96) -/

/-- The positions of a rotation record in the order a choice tries them, from the one after k (R96). -/
def rotationOrder (n k : Nat) : List Nat :=
  (List.range' (k + 1) (n - k)) ++ List.range' 1 (min k n)

/-- The position chosen next: the next one, or with skip-empty the next whose basket has a story; position 1 where all of those are passed over (R96; log entry 41). -/
def nextPosition (s : State) (r : Rotation) : Nat :=
  ((rotationOrder r.baskets.length r.position).find? fun p =>
    !r.skipEmpty ||
      match r.baskets[p - 1]? with
      | none => false
      | some b => !s.baskets[b].list.isEmpty).getD 1

/-- The dwell timer starts, showing a position. -/
def Rotation.showAt (r : Rotation) (s : State) (p : Nat) : Rotation :=
  { r with position := p, dwellFrom := s.now }

/-! ### Time (R50, log entry 5) -/

/-- The oscillator reads at least a given count. -/
def advanceTo (n : Nat) (s : State) : State := { s with now := max s.now n }

end Sys2Proof.Machine
end

