-- ==== Sys2Proof/Machine/Output.lean ====
section
/-! DEFINITION. The shared operations of the typesetter channels, the Engine Arbiter and the grants of the Setting Engine (spec/08; spec/07, R132 to R138). -/

namespace Sys2Proof.Machine

/-! ### Entries, effective settings, changed paragraphs (R141, R147, 8.3) -/

/-- The current job of a channel that is not IDLE: the head of its queue (R140). -/
def Channel.current (ch : Channel) : Option Job := ch.jobs.head?

/-- The entries of the current job. -/
def Channel.entries (ch : Channel) : List Entry :=
  match ch.current with
  | none => []
  | some j => j.entries

/-- The effective setting of an entry: each override that is present stands in place of its field; an indent above half the effective measure is clamped (8.3, R141). -/
def Entry.effective (e : Entry) (base : Setting) : Setting where
  face := e.face.getD base.face
  size := e.size.getD base.size
  measure := e.measure.getD base.measure
  leading := e.leading.getD base.leading
  indent := min (e.indent.getD base.indent) (e.measure.getD base.measure / 2)
  budget := base.budget

/-- The engine's tools for a setting: the record of its face as it stands (R132). -/
def setWith (s : State) (x : Setting) : SetWith :=
  ⟨s.faces[x.face].widths, s.faces[x.face].minSpace, s.faces[x.face].maxSpace, x⟩

/-- For each character of a chain, whether its block is flagged. -/
def charFlags (m : Memory) (chain : List Nat) : List Bool :=
  chain.flatMap fun b => (Memory.read m b).chars.map fun _ => (Memory.read m b).changed

/-- The first changed paragraph at or after a resume point; within a paragraph already begun, the point itself (R147). The fuel is the length of the text and one more. -/
def firstChanged (text : List Byte) (flags : List Bool) : Nat → Resume → Option Resume
  | 0, _ => none
  | n + 1, r =>
    if text.drop r.offset = [] then none
    else if !r.first then some r
    else
      let len := (paragraphText (text.drop r.offset)).length + 1
      if ((flags.drop r.offset).take len).any id then some r
      else firstChanged text flags n ⟨r.para + 1, r.offset + len, true⟩

/-- Where a grant of an entry begins from a resume point: there, or in CHANGED mode at the first changed paragraph (R147). -/
def grantStart (s : State) (e : Entry) (st : Story) (r : Resume) : Option Resume :=
  match e.mode with
  | .whole => some r
  | .changed =>
    firstChanged (textOf s st) (charFlags s.memory st.chain) (lengthOf s st + 1) r

/-- An entry is CHANGED and its story has no changed paragraph (R147). -/
def nothingChanged (s : State) (e : Entry) : Bool :=
  e.mode = .changed &&
    match storyOf s e.story with
    | none => true
    | some st => (grantStart s e st Resume.start).isNone

/-! ### Setting codes and the FIFO (R145, R151, R196) -/

/-- The bytes of a setting code, operands high byte first (Table 11-9, R196). -/
def SetCode.bytes : SetCode → List Byte
  | .storyStart n => 0x80#8 :: e16 n
  | .face n => 0x81#8 :: e8 n
  | .size n => 0x82#8 :: e16 n
  | .leading n => 0x83#8 :: e16 n
  | .measure n => 0x84#8 :: e16 n
  | .indent n => 0x85#8 :: e16 n
  | .paragraph n => 0x86#8 :: e16 n
  | .wordSpace n => 0x87#8 :: e8 n
  | .char c => [c]
  | .justifyEnd => [0x88#8]
  | .leftEnd => [0x89#8]
  | .storyEnd n => 0x8A#8 :: e16 n
  | .abandon n => 0x8F#8 :: e8 n

/-- What the sending of a code's last byte ends. -/
def SetCode.ends : SetCode → ByteEnd
  | .storyEnd n => .storyEnd n
  | .abandon _ => .abandon
  | _ => .plain

/-- The code is a STORY END or an ABANDON: its presence in the FIFO opens the batch (R152). -/
def SetCode.opens (c : SetCode) : Bool := c.ends ≠ .plain

/-- The bytes of a code as they stand in the FIFO: the first byte marked where the code opens the batch, the last with what it ends. -/
def SetCode.outBytes (now : Nat) (c : SetCode) : List OutByte :=
  let n := c.bytes.length
  c.bytes.zipIdx.map fun p =>
    ⟨p.1, c.opens && p.2 = 0, if p.2 + 1 = n then c.ends else .plain, now⟩

/-- The codes before a story's first line (Table 8-4). -/
def startCodes (id : Nat) (x : Setting) : List SetCode :=
  [.storyStart id, .face x.face, .size x.size, .leading x.leading, .measure x.measure]

/-- The codes of one line with those placed before it (Table 8-4). -/
def lineCodes (mode : EntryMode) (x : Setting) (r : LineRec) : List SetCode :=
  (if r.first then
    (if mode = .changed then [.paragraph r.para] else []) ++
      (if x.indent = 0 then [] else [.indent x.indent])
  else []) ++
    (match r.space with
      | none => []
      | some u => [.wordSpace u]) ++
    r.chars.map .char ++
    [match r.cls with
      | .justified => .justifyEnd
      | .quadLeft => .leftEnd]

/-- Attach a story's codes before the first and after the last of its entries; a story with no line gives one bare entry (R145). -/
def wrapEntries (first last : List SetCode) : List (List SetCode) → List (List SetCode)
  | [] => if first ++ last = [] then [] else [first ++ last]
  | l :: ls =>
    let ls := (first ++ l) :: ls
    ls.dropLast ++ (ls.getLast?.toList.map fun l => l ++ last)

/-- Move codes from the line queue into the FIFO, one code at a time, while the next fits whole (R151). The fuel bounds the moves. -/
def moveCodes (now : Nat) :
    Nat → List (List SetCode) → List OutByte → List (List SetCode) × List OutByte
  | 0, lines, fifo => (lines, fifo)
  | _ + 1, [], fifo => ([], fifo)
  | n + 1, [] :: lines, fifo => moveCodes now n lines fifo
  | n + 1, (c :: cs) :: lines, fifo =>
    if fifo.length + c.bytes.length ≤ Config.outFifo then
      moveCodes now n (if cs = [] then lines else cs :: lines) (fifo ++ c.outBytes now)
    else ((c :: cs) :: lines, fifo)

/-- Enough fuel: at most 64 codes fit and the queue holds at most 128 entries. -/
def moveFuel : Nat := Config.outFifo + Config.linesMax + 1

/-- The batch test: does a condition to open the batch hold (R152)? -/
def batchTest (now : Nat) (ch : Channel) : Bool :=
  match ch.fifo with
  | [] => false
  | b :: _ =>
    ch.threshold ≤ ch.fifo.length ||
      (match batchWait ch.waitChoice with
        | none => true
        | some w => b.placed + w ≤ now) ||
      ch.fifo.any (·.opens)

/-- Make the batch test: a CLOSED batch opens where a condition holds (R152). -/
def Channel.testBatch (now : Nat) (ch : Channel) : Channel :=
  { ch with batchOpen := ch.batchOpen || batchTest now ch }

/-- Codes move, the batch is tested where a byte was placed, and it is CLOSED while the FIFO is empty (R151, R152). -/
def Channel.moveIn (now : Nat) (ch : Channel) : Channel :=
  let r := moveCodes now moveFuel ch.lines ch.fifo
  let placed := ch.fifo.length < r.2.length
  let ch := { ch with lines := r.1, fifo := r.2 }
  let ch := if placed then ch.testBatch now else ch
  { ch with batchOpen := ch.batchOpen && !ch.fifo.isEmpty }

/-- The channel is RUNNING or CANCELLING: the states in which it sends (R152). -/
def Channel.sends (ch : Channel) : Bool := ch.state = .running || ch.state = .cancelling

/-- The conditions of the stall timer (R155). -/
def Channel.stallRuns (ch : Channel) : Bool := ch.sends && !ch.fifo.isEmpty && !ch.ready

/-- The stall timer starts when its conditions come to hold and stops when they cease (R155). -/
def Channel.keepStall (now : Nat) (ch : Channel) : Channel :=
  { ch with stallFrom := if ch.stallRuns then some (ch.stallFrom.getD now) else none }

/-- A byte begins where the line is at rest and R152's conditions hold. -/
def Channel.beginByte (ch : Channel) : Channel :=
  { ch with
    sending := match ch.sending with
      | .busy b f => .busy b f
      | .rest => match ch.fifo with
        | [] => .rest
        | b :: _ => if ch.sends && ch.ready && ch.batchOpen then .busy b true else .rest }

/-- What a channel becomes at the end of an event. -/
def Channel.settle (now : Nat) (ch : Channel) : Channel :=
  ((ch.moveIn now).keepStall now).beginByte

/-- The sending side when the FIFO is emptied: a byte being sent is finished, and no longer stands in the FIFO (R151). -/
def OutTx.cutOff : OutTx → OutTx
  | .rest => .rest
  | .busy b _ => .busy b false

/-- Empty the line queue and the FIFO (R145, R151). -/
def Channel.emptyOutput (ch : Channel) : Channel :=
  { ch with
    lines := []
    fifo := []
    batchOpen := false
    stallFrom := none
    sending := ch.sending.cutOff }

/-! ### Jobs (R140, R144, R147, R153, R161) -/

/-- Change the current job's entry at an index. -/
def Channel.modEntry (i : Nat) (f : Entry → Entry) (ch : Channel) : Channel :=
  { ch with jobs := match ch.jobs with
    | [] => []
    | j :: js => { j with entries := j.entries.modify i f } :: js }

/-- Every entry of the current job is released. -/
def Channel.allReleased (ch : Channel) : Bool := ch.entries.all (·.released)

/-- Add a result to the finished list: a fifth drops the oldest (R161). -/
def Channel.addResult (r : JobResult) (ch : Channel) : Channel :=
  let list := ch.finished ++ [r]
  { ch with finished := list.drop (list.length - Config.finishedMax) }

/-- The result of a job (R161). -/
def Job.result (j : Job) (o : JobOutcome) (a : AbandonMark) : JobResult :=
  ⟨j.number, j.edition, o, j.entries.length, (j.entries.filter (·.sent)).length, a⟩

/-- Record the job at the head of a queue and take it out of the queue; raise CHANNEL (R161). -/
def recordHead (o : JobOutcome) (a : AbandonMark) (c : Fin 4) (s : State) : State :=
  match s.channels[c].jobs with
  | [] => s
  | j :: js =>
    raiseSource (srcChannel c)
      (modChannel c (fun ch => { ch.addResult (j.result o a) with jobs := js }) s)

/-- Move the setting position on from an entry: a released entry is passed over, a CHANGED entry with no changed paragraph is released at once, the position stops at the first other entry or is complete (R144, R147). -/
def reach (c : Fin 4) : Nat → Nat → State → State
  | 0, _, s => modChannel c (fun ch => { ch with pos := .complete }) s
  | n + 1, i, s =>
    match s.channels[c].entries[i]? with
    | none => modChannel c (fun ch => { ch with pos := .complete }) s
    | some e =>
      if e.released then reach c n (i + 1) s
      else if nothingChanged s e then
        reach c n (i + 1)
          (modChannel c (Channel.modEntry i fun e => { e with released := true })
            (release e.story s))
      else modChannel c (fun ch => { ch with pos := .at i Resume.start false }) s

/-- Enough fuel for the 16 entries of a job. -/
def reachFuel : Nat := 17

/-- The job at the head of the queue becomes current, and so on while jobs are released at once as a whole; with no job left the channel is IDLE (R144, R153), its setting position complete (log entry 6). -/
def startHead (c : Fin 4) : Nat → State → State
  | 0, s => s
  | n + 1, s =>
    match s.channels[c].jobs with
    | [] => modChannel c (fun ch => { ch with state := .idle, pos := .complete }) s
    | _ :: _ =>
      let s := reach c reachFuel 0 (modChannel c (fun ch => { ch with state := .running }) s)
      if s.channels[c].allReleased then startHead c n (recordHead .done .notApplicable c s) else s

/-- Enough fuel for a queue of 4 jobs. -/
def startFuel : Nat := Config.jobsMax + 1

/-- The current job is recorded with an outcome, and the next becomes current (R153, R160). -/
def endJob (o : JobOutcome) (a : AbandonMark) (c : Fin 4) (s : State) : State :=
  startHead c startFuel (recordHead o a c s)

/-- The release of a story whose STORY END has left: flags cleared, IDLE, its entry marked; the job is DONE when every entry is released (R153). -/
def releaseSent (c : Fin 4) (id : Nat) (s : State) : State :=
  match storyOf s id with
  | none => s
  | some st =>
    let s := release id { s with memory := clearFlags s.memory st.chain }
    let s := modChannel c (fun ch =>
      { ch with jobs := match ch.jobs with
        | [] => []
        | j :: js =>
          { j with entries := j.entries.map fun e =>
              if e.story = id then { e with released := true, sent := true } else e } :: js }) s
    if s.channels[c].allReleased then endJob .done .notApplicable c s else s

/-- A stall: in RUNNING the channel is HALTED with its batch closed and CHANNEL raised; in CANCELLING the FIFO is emptied and the job recorded with ABANDON not sent (R155, R160). -/
def stall (c : Fin 4) (s : State) : State :=
  match s.channels[c].state with
  | .running =>
    raiseSource (srcChannel c)
      (modChannel c (fun ch =>
        { ch with state := .halted, batchOpen := false, stallFrom := none }) s)
  | .cancelling => endJob .cancelled .notSent c (modChannel c Channel.emptyOutput s)
  | _ => s

/-! ### The Engine Arbiter (R146, R148, R149, R136) -/

/-- The clients in their cyclic order (R149). -/
def clients : List Client := [.channel 0, .channel 1, .channel 2, .channel 3, .fit]

/-- A grant of the Fit Queue's own is in flight (R136). -/
def fitInFlight (s : State) : Bool :=
  match s.fit.progress with
  | none => false
  | some p => p.inFlight

/-- A client requests the engine (R146, R136). -/
def requesting (s : State) : Client → Bool
  | .channel c =>
    s.channels[c].state = .running && s.channels[c].pos ≠ .complete &&
      s.channels[c].grant = .none &&
      s.channels[c].lines.length + Config.grantLines ≤ Config.linesMax
  | .fit => !s.fit.list.isEmpty && !fitInFlight s

/-- A client's configured level. -/
def configuredLevel (s : State) : Client → Nat
  | .channel c => s.engine.levels[c.val]
  | .fit => s.engine.levels[4]

/-- A channel is promoted while its current job's edition is PASSED (R149). -/
def promoted (s : State) (c : Fin 4) : Bool :=
  match s.channels[c].current with
  | none => false
  | some j =>
    match editionOf s j.edition with
    | none => false
    | some e => decide (e.state = .passed)

/-- A client's effective level (R149). It is derived so in ROTATE too, where only the reply to READ CHANNEL shows it (R162; log entry 43). -/
def effectiveLevel (s : State) (k : Client) : Nat :=
  match k with
  | .fit => configuredLevel s k
  | .channel c => if promoted s c then 3 else configuredLevel s k

/-- The clients in the order in which a choice tries them, from the one after the last granted (R149). -/
def clientsAfter (last : Client) : List Client :=
  clients.drop (last.code + 1) ++ clients.take (last.code + 1)

/-- The client the arbiter chooses among those requesting (R149). -/
def chooseClient (s : State) : Option Client :=
  let asking := (clientsAfter s.engine.last).filter (requesting s)
  match s.engine.mode with
  | .rotate => asking.head?
  | .rank =>
    let top := (asking.map (effectiveLevel s)).foldl max 0
    asking.find? fun k => effectiveLevel s k = top

/-- The client that is granted a FREE engine (R148). -/
def grantee (s : State) : Option Client :=
  match s.engine.owner with
  | some _ => none
  | none => chooseClient s

/-- A fit begins: its version, setting and generation at start are those of the head story (R136). -/
def beginFit (s : State) : Option FitProgress :=
  match s.fit.list.head? with
  | none => none
  | some i =>
    match storyOf s i.story with
    | none => none
    | some st =>
      some ⟨i.story, st.version, st.setting, s.faces[st.setting.face].generation, Resume.start,
        0, 0, 0, true, false⟩

/-- The Fit Queue when it is granted: the fit in progress goes on, or one begins (R136). -/
def fitGranted (s : State) : FitQueue :=
  { s.fit with progress := match s.fit.progress with
    | some p => some { p with inFlight := true }
    | none => beginFit s }

/-- The engine is handed to the client chosen: it becomes the last granted, a channel's grant in flight becomes KEEP, the Fit Queue's fit begins or goes on (R146, R148, R136). -/
def grantEngine (s : State) : State :=
  match grantee s with
  | none => s
  | some k =>
    { s with
      engine := { s.engine with owner := some k, last := k }
      channels := match k with
        | .channel c => s.channels.set c { s.channels[c] with grant := .keep }
        | .fit => s.channels
      fit := match k with
        | .channel _ => s.fit
        | .fit => fitGranted s }

/-- A grant has ended: the engine is free for the next choice (R148). -/
def freeEngine (s : State) : State := { s with engine := { s.engine with owner := none } }

/-! ### A channel's grant ends (R146) -/

/-- The lines of a channel's grant with their codes, and where the grant stopped: none when the story has no paragraph left to set (R146, R147). -/
def channelGrant (s : State) (e : Entry) (st : Story) (r : Resume) (started : Bool) :
    List (List SetCode) × Option Resume :=
  let x := e.effective st.setting
  let text := textOf s st
  let w := match grantStart s e st r with
    | none => ([], none)
    | some r => grantWork (setWith s x) text r
  let more := match w.2 with
    | none => none
    | some r => grantStart s e st r
  (wrapEntries (if started then [] else startCodes e.story x)
      (if more.isNone then [.storyEnd e.story] else [])
      (w.1.map (lineCodes e.mode x)),
    if more.isNone then none else w.2)

/-- A channel takes the result of a grant in KEEP (R146). -/
def takeLines (c : Fin 4) (s : State) : State :=
  match s.channels[c].pos with
  | .complete => s
  | .at i r started =>
    match s.channels[c].entries[i]? with
    | none => s
    | some e =>
      match storyOf s e.story with
      | none => s
      | some st =>
        let g := channelGrant s e st r started
        let s := modChannel c (fun ch => { ch with lines := ch.lines ++ g.1 }) s
        match g.2 with
        | some r => modChannel c (fun ch => { ch with pos := .at i r true }) s
        | none => reach c reachFuel (i + 1) s

end Sys2Proof.Machine
end

