-- ==== Sys2Proof/Machine/Settle.lean ====
section
/-! DEFINITION. The Link Port's shared operations (frames, the inbound queue, replies, notices; spec/10) and what happens at the end of every event: codes move, the engine is granted, screens are refreshed, the transmitter chooses (log entry 15). -/

namespace Sys2Proof.Machine

/-! ### Replies (R185) -/

/-- Result codes (Table 0-5, Table 11-3). -/
inductive ResultCode where
  | ok | clamped | busy | locked | stale | noSuch | full | denied | range | malformed
  deriving DecidableEq, Repr

/-- The code of a result (Table 11-3). -/
def ResultCode.code : ResultCode → Nat
  | .ok => 0
  | .clamped => 1
  | .busy => 2
  | .locked => 3
  | .stale => 4
  | .noSuch => 5
  | .full => 6
  | .denied => 7
  | .range => 8
  | .malformed => 9

/-- An owner's answer: the result and its data. -/
structure Reply where
  result : ResultCode
  data : List Byte
  deriving DecidableEq, Repr

/-- A result without data (R185). -/
def Reply.bare (r : ResultCode) : Reply := ⟨r, []⟩

/-- OK, or CLAMPED where something was clamped, with data (3.6). -/
def Reply.clampedIf (c : Bool) (d : List Byte) : Reply := ⟨if c then .clamped else .ok, d⟩

/-- An owner's answer with the state it leaves. -/
abbrev Answer := State × Reply

/-- A refusal: nothing changes (3.7). -/
def refuse (r : ResultCode) (s : State) : Answer := (s, Reply.bare r)

/-- A refusal with data. -/
def refuseWith (r : ResultCode) (d : List Byte) (s : State) : Answer := (s, ⟨r, d⟩)

/-- OK with data. -/
def okWith (d : List Byte) (s : State) : Answer := (s, ⟨.ok, d⟩)

/-- The frame of a reply: kind 80h, the order's tag, the order's kind and the result code before the data (R185, 11.1). -/
def replyFrame (kind tag : Byte) (r : Reply) : Frame := ⟨0x80#8, tag, kind :: e8 r.result.code ++ r.data⟩

/-- The reply joins the tail of the reply queue (R184). -/
def answer (kind tag : Byte) (a : Answer) : State :=
  { a.1 with link := { a.1.link with replies := a.1.link.replies ++ [replyFrame kind tag a.2] } }

/-! ### Reception (R180 to R183, R190, R191) -/

/-- The sum modulo 65536 that a check field carries (10.1). -/
def checkSum (bytes : List Byte) : Nat := (bytes.map (·.toNat)).sum % 65536

/-- The bytes of a frame on the line (Table 11-1). -/
def Frame.bytes (f : Frame) : List Byte :=
  let counted := e16 (f.body.length + 2) ++ f.kind :: f.tag :: f.body
  0xC3#8 :: counted ++ e16 (checkSum counted)

/-- The level of the output LNK_CTS: asserted while the inbound queue holds fewer than 8 frames, deasserted while it holds 8 (R183, R184, R194). -/
def Link.cts (l : Link) : Bool := decide (l.inbound.length < Config.inboundMax)

/-- A good frame is offered to the inbound queue: it joins the tail, or it is discarded and OVERRUN raised (R183). -/
def offerFrame (f : Frame) (s : State) : State :=
  if s.link.cts then
    { s with link := { s.link with inbound := s.link.inbound ++ [f] } }
  else raiseLink LinkErrors.addOverrun s

/-- The link watch timer starts from zero where the watch is enabled (R190). -/
def restartWatch (s : State) : State :=
  { s with link := { s.link with watchFrom := s.link.watch.map fun _ => s.now } }

/-- The end of HOST LOST: PART is raised with HOST-BACK (R191). -/
def endHostLost (s : State) : State :=
  if s.link.hostLost then
    raiseHostBack { s with link := { s.link with hostLost := false } }
  else s

/-- What every good frame does (R181). -/
def goodFrame (f : Frame) (s : State) : State := offerFrame f (restartWatch (endHostLost s))

/-- Set the receiver. -/
def setReceiver (r : Receiver) (s : State) : State := { s with link := { s.link with receiver := r } }

/-- The receiver takes one byte (R180, R181). got holds the bytes after the lead byte. -/
def receiveByte (s : State) (b : Byte) : State :=
  match s.link.receiver with
  | .hunt => if b = 0xC3#8 then setReceiver (.inFrame [] s.now) s else s
  | .inFrame got _ =>
    let got := got ++ [b]
    let n := frameLength (got.getD 0 0) (got.getD 1 0)
    if got.length < 2 then setReceiver (.inFrame got s.now) s
    else if !lengthLegal n then raiseLink LinkErrors.addLength (setReceiver .hunt s)
    else if got.length < n + 4 then setReceiver (.inFrame got s.now) s
    else
      let s := setReceiver .hunt s
      let counted := got.take (n + 2)
      if checkSum counted = frameLength (got.getD (n + 2) 0) (got.getD (n + 3) 0) then
        goodFrame ⟨got.getD 2 0, got.getD 3 0, (got.drop 4).take (n - 2)⟩ s
      else raiseLink LinkErrors.addCheck s

/-- The receiver takes bytes in order. -/
def receiveBytes (bytes : List Byte) (s : State) : State := bytes.foldl receiveByte s

/-- The gap timer expires where the receiver is in a frame: the frame is discarded and GAP raised (R181). -/
def gapExpires (s : State) : State :=
  match s.link.receiver with
  | .hunt => s
  | .inFrame _ t =>
    raiseLink LinkErrors.addGap (setReceiver .hunt (advanceTo (t + Config.gapMs) s))

/-! ### Notices (R186 to R188, Table 11-8) -/

/-- The summary of the LINK source. -/
def LinkErrors.code (e : LinkErrors) : Nat :=
  memberSum [(e.length, 1), (e.gap, 2), (e.check, 4), (e.overrun, 8)]

/-- The event set of a TERMINAL source. -/
def TermEvents.code (e : TermEvents) : Nat :=
  memberSum [(e.attention, 1), (e.lineError, 2), (e.messageCleared, 4), (e.keysRefused, 8),
    (e.windowClosed, 16)]

/-- The error set of a WIRE source. -/
def WireSummary.code (e : WireSummary) : Nat :=
  memberSum [(e.character, 1), (e.overrun, 2), (e.header, 4), (e.cut, 8)]

/-- The number of a channel's current job, 0 for none. -/
def Channel.currentNumber (ch : Channel) : Nat :=
  match ch.current with
  | none => 0
  | some j => j.number

/-- A channel's finished list in its notice: its count, 1 byte, and its results, oldest first (Table 11-8; log entry 8). -/
def Channel.eFinished (ch : Channel) : List Byte := e8 ch.finished.length ++ ch.finished.flatMap eResult

/-- Cause codes, none 00h. -/
def causeCode (c : Option StartCause) : Nat :=
  match c with
  | none => 0
  | some c => c.code

/-- Pool condition codes (Table 11-3); 00h, where nothing has been raised and no POOL notice is sent, is the model's choice (log entry 8). -/
def condCode (c : Option PoolCond) : Nat :=
  match c with
  | none => 0
  | some c => c.code

/-- The summary a source's notice carries, as it stands at the moment of choice (R188). -/
def noticeSummary (s : State) (i : Fin 48) : List Byte :=
  if i.val = 0 then
    e8 (causeCode s.notices.part.cause) ++ [s.notices.part.tag] ++ eFlag s.notices.part.hostBack
  else if i.val = 1 then e8 s.notices.link.code
  else if i.val = 2 then
    e16 s.notices.pool.free ++ e16 s.notices.pool.reserve ++ e8 (condCode s.notices.pool.cond)
  else if h : 3 ≤ i.val ∧ i.val < 7 then
    let e := s.editions[i.val - 3]
    e24 e.time ++ e8 e.state.code
  else if h : 7 ≤ i.val ∧ i.val < 11 then
    let ch := s.channels[i.val - 7]
    e8 ch.state.code ++ e8 ch.currentNumber ++ ch.eFinished
  else if h : 11 ≤ i.val ∧ i.val < 15 then
    let n := s.notices.wire[i.val - 11]
    e8 s.wires[i.val - 11].intake.code ++ e8 n.code ++ e8 n.filed ++ e8 n.dropped
  else if h : 15 ≤ i.val ∧ i.val < 47 then e8 s.notices.terminal[i.val - 15].code
  else e8 s.keys.length

/-- A source's notice: kind 81h, tag 0, the position and the summary (R188). -/
def noticeFrame (s : State) (i : Fin 48) : Frame := ⟨0x81#8, 0, e8 i ++ noticeSummary s i⟩

/-- The entry becomes clear and what Table 10-3 marks as emptied is emptied (R186). -/
def Notices.taken (n : Notices) (i : Fin 48) : Notices where
  pending := n.pending.set i false
  part := if i.val = 0 then .empty else n.part
  link := if i.val = 1 then .empty else n.link
  pool := if i.val = 2 then .empty else n.pool
  wire :=
    if h : 11 ≤ i.val ∧ i.val < 15 then n.wire.set (i.val - 11) .empty else n.wire
  terminal :=
    if h : 15 ≤ i.val ∧ i.val < 47 then n.terminal.set (i.val - 15) .empty else n.terminal

/-- The first pending source after the last source sent, in the cyclic order (R187). -/
def nextSource (s : State) : Option (Fin 48) :=
  let all := List.finRange 48
  (all.drop (s.link.lastSource + 1) ++ all.take (s.link.lastSource + 1)).find?
    fun i => s.notices.pending[i]

/-- No RESTART is held and the reply queue has room: an order may be dispatched (R184, R193). -/
def orderReady (s : State) : Bool :=
  s.link.held.isNone && decide (s.link.replies.length < Config.repliesMax)

/-- The arbiter may send a notice: not in HOST LOST, no RESTART held, and no order waits to be dispatched (R187; log entry 13). -/
def noticesFlow (s : State) : Bool :=
  !s.link.hostLost && s.link.held.isNone && !(orderReady s && !s.link.inbound.isEmpty)

/-- The outbound arbiter's choice where no frame is being sent (R187). -/
def transmit (s : State) : State :=
  match s.link.sending with
  | some _ => s
  | none =>
    match s.link.replies with
    | r :: _ => { s with link := { s.link with sending := some (true, r) } }
    | [] =>
      if noticesFlow s then
        match nextSource s with
        | none => s
        | some i =>
          { s with
            link := { s.link with sending := some (false, noticeFrame s i), lastSource := i }
            notices := s.notices.taken i }
      else s

/-! ### The end of an event (log entry 15) -/

/-- Every channel's codes move, its stall timer is kept, and its byte begins (R151, R152, R155). -/
def moveAll (s : State) : State :=
  { s with channels := Vector.ofFn fun c => s.channels[c].settle s.now }

/-- Every screen is composed and emitted (R72, R76, R89). -/
def refreshAll (s : State) : State :=
  { s with
    screens := Vector.ofFn fun t => (refreshTerminal s t).1
    lines := Vector.ofFn fun t => (refreshTerminal s t).2 }

/-- What the blocks do at the end of every event. -/
def settle (s : State) : State := transmit (refreshAll (grantEngine (moveAll s)))

/-! ### Orders in hand (R184) -/

/-- The frame may be taken in hand: nothing is queued before it (R184; log entry 2). -/
def atHead (f : Frame) (s : State) : Bool :=
  match s.link.inbound with
  | [] => true
  | g :: _ => g = f

/-- The frame in hand leaves the inbound queue. -/
def dropHead (s : State) : State :=
  { s with link := { s.link with inbound := s.link.inbound.tail } }

/-- An order command: the order is dispatched if it may be; otherwise a frame at the head waits there, and any other joins the inbound queue (R183, R184; log entry 2). -/
def withOrder (f : Frame) (act : State → State) (s : State) : State :=
  if orderReady s && atHead f s then act s
  else if s.link.inbound.head? = some f then s
  else offerFrame f s

/-- An order with its fixed fields: MALFORMED where the body is shorter, otherwise its owner's answer is the reply (R184, Table 11-4). -/
def takeOrder (kind : Byte) (need : Nat) (owner : List Byte → State → Answer) (tag : Byte)
    (body : List Byte) (s : State) : State :=
  settle (withOrder ⟨kind, tag, body⟩ (fun s =>
    answer kind tag
      (if body.length < need then refuse .malformed (dropHead s) else owner body (dropHead s))) s)

end Sys2Proof.Machine
end

