-- ==== Sys2Proof/Machine/CopyOrders.lean ====
section
/-! DEFINITION. The orders of the Copy Memory Controller and the Story Directory (spec/01, R10, R18 to R24). Each owner answers an order whose fixed fields are present; each meaning takes the order. -/

namespace Sys2Proof.Machine

/-- A story named by an order: RANGE outside 1 to 1024, NO-SUCH where the identifier is free. -/
def withStory (id : Nat) (s : State) (k : Story → Answer) : Answer :=
  if id = 0 || Config.stories < id then refuse .range s
  else match storyOf s id with
    | none => refuse .noSuch s
    | some st => k st

/-- A variable text of an order: MALFORMED where its count reaches beyond the body (R195; log entry 9). -/
def withText (b : List Byte) (i n : Nat) (s : State) (k : List Byte → Answer) : Answer :=
  match textAt b i n with
  | none => refuse .malformed s
  | some t => k t

/-- An expected version differs from the story's (R10, R21, R24, R36). -/
def versionStale (expected : Option Word16) (st : Story) : Bool :=
  match expected with
  | none => false
  | some v => v ≠ st.version

/-! ### CREATE STORY (R18) -/

/-- The answer to CREATE STORY. -/
def ownCreateStory (b : List Byte) (s : State) : Answer :=
  withText b 5 (u8 b 4) s fun slug =>
    if slug = [] then refuse .malformed s
    else match inRange 64 (u8 b 0), Priority.ofCode (u8 b 1), inRange 16 (u8 b 2) with
      | some bk, some p, some key =>
        match freeStory? s with
        | none => refuse .full s
        | some id =>
          let t := cleanText 16 slug
          (createStory id (newStory s t.1 bk p key (flagAt b 3) .idle none) s,
            Reply.clampedIf t.2 (e16 id ++ e16 0))
      | _, _, _ => refuse .range s

/-- CREATE_STORY (R18). -/
def execCreateStory (tag : Byte) (body : List Byte) (s : State) : Host.Outcome State Fault Refusal :=
  .next (takeOrder 0x01#8 5 ownCreateStory tag body s)

/-! ### READ STORY (R19) -/

/-- The origin of a story: wire line and code, FFh and zeros where absent (Table 11-5). -/
def eOrigin : Option Origin → List Byte
  | none => [0xFF#8, 0, 0, 0]
  | some o => e8 o.line ++ eFixed 3 o.code

/-- The entry as READ STORY returns it (Table 11-5). -/
def eStory (s : State) (id : Nat) (st : Story) : List Byte :=
  e16 id ++ eFixed 16 st.slug ++ e8 st.basket ++ e8 st.priority.code ++ eHolding st.holding ++
    e8 st.key ++ eFlag st.embargo ++ eFlag st.garbled ++ eFlag st.cut ++ e16 (lengthOf s st) ++
    eWord st.version ++ eTime st.filed ++ eTime st.moved ++ eOrigin st.origin ++
    eSetting st.setting ++ e8 st.fit.status.code ++ e32 st.fit.depth ++ e16 st.fit.lines ++
    e16 st.fit.loose ++ e16 st.fit.forced ++ eWord st.fit.version ++ e16 st.chain.length ++
    e16 (flaggedCount s.memory st.chain)

/-- The answer to READ STORY. -/
def ownReadStory (b : List Byte) (s : State) : Answer :=
  withStory (u16 b 0) s fun st => okWith (eStory s (u16 b 0) st) s

/-- READ_STORY (R19). -/
def execReadStory (tag : Byte) (body : List Byte) (s : State) : Host.Outcome State Fault Refusal :=
  .next (takeOrder 0x02#8 2 ownReadStory tag body s)

/-! ### SET FLAGS (R20) -/

/-- The answer to SET FLAGS. -/
def ownSetFlags (b : List Byte) (s : State) : Answer :=
  withStory (u16 b 0) s fun st =>
    (setStory (u16 b 0) { st with garbled := flagAt b 2, cut := flagAt b 3 } s,
      ⟨.ok, eFlag st.garbled ++ eFlag st.cut⟩)

/-- SET_FLAGS (R20). -/
def execSetFlags (tag : Byte) (body : List Byte) (s : State) : Host.Outcome State Fault Refusal :=
  .next (takeOrder 0x03#8 4 ownSetFlags tag body s)

/-! ### WRITE TEXT (R21, R22) -/

/-- The worst-case block need of n characters (R21 step 6). -/
def worstNeed (n : Nat) : Nat := (n + 119) / 120 + 1

/-- There is no room for a text of n characters after a deletion (R21 steps 5 and 6). -/
def noRoom (s : State) (st : Story) (del n : Nat) : Bool :=
  Config.storyMax < lengthOf s st - del + n ||
    (1 ≤ n && (Memory.freeCount s.memory < worstNeed n ||
      Config.chainMax < st.chain.length + worstNeed n))

/-- The change that WRITE TEXT makes: the deletion, the insertion, one rise of the version, the reference panes kept (R22). -/
def writeText (id off del : Nat) (text : List Byte) (s : State) : State :=
  if del = 0 && text = [] then s
  else
    keepRefTops id (fun top => topAfterInsert (topAfterDelete top off del) off text.length)
      (modStory id Story.textChanged (insertMany id off text (deleteMany id off del s)))

/-- A story's length as the directory now holds it. -/
def lengthNow (s : State) (id : Nat) : Nat :=
  match storyOf s id with
  | none => 0
  | some st => lengthOf s st

/-- A story's version as the directory now holds it. -/
def versionNow (s : State) (id : Nat) : Word16 :=
  match storyOf s id with
  | none => 0
  | some st => st.version

/-- The answer to WRITE TEXT. -/
def ownWriteText (b : List Byte) (s : State) : Answer :=
  let id := u16 b 0
  let n := u16 b 9
  withText b 11 n s fun text =>
    withStory id s fun st =>
      if 1000 < n then refuse .range s
      else if versionStale (optVersion b 2) st then
        refuseWith .stale (eWord st.version ++ e16 (lengthOf s st)) s
      else if st.holding ≠ .idle then refuse .locked s
      else
        let off := min (u16 b 5) (lengthOf s st)
        let del := min (u16 b 7) (lengthOf s st - off)
        if noRoom s st del n then refuse .full s
        else
          let s' := writeText id off del (text.map storyByte) s
          (s', Reply.clampedIf
            (decide (off ≠ u16 b 5) || decide (del ≠ u16 b 7) ||
              text.any fun c => storyByte c ≠ c)
            (e16 off ++ e16 (lengthNow s' id) ++ eWord (versionNow s' id)))

/-- WRITE_TEXT (R21, R22). -/
def execWriteText (tag : Byte) (body : List Byte) (s : State) : Host.Outcome State Fault Refusal :=
  .next (takeOrder 0x04#8 11 ownWriteText tag body s)

/-! ### READ TEXT (R23) -/

/-- The answer to READ TEXT; the characters stand after a 2-byte count of them (R23; log entry 8). -/
def ownReadText (b : List Byte) (s : State) : Answer :=
  withStory (u16 b 0) s fun st =>
    let off := min (u16 b 2) (lengthOf s st)
    let n := min (u16 b 4) 1000
    let got := ((textOf s st).drop off).take n
    (s, Reply.clampedIf (decide (off ≠ u16 b 2) || decide (n ≠ u16 b 4))
      (e16 off ++ e16 (lengthOf s st) ++ eWord st.version ++ e16 got.length ++ got))

/-- READ_TEXT (R23). -/
def execReadText (tag : Byte) (body : List Byte) (s : State) : Host.Outcome State Fault Refusal :=
  .next (takeOrder 0x05#8 6 ownReadText tag body s)

/-! ### SPIKE STORY (R24) -/

/-- A spiked story leaves the Fit Queue; a fit of it whose grant is in flight is abandoned, any other is dropped (R24, R133, R137). -/
def spikeFit (id : Nat) (s : State) : State :=
  let s := dropFromFitList id s
  if fitIsOf s id then
    { s with fit := { s.fit with progress := match s.fit.progress with
      | none => none
      | some p => if p.inFlight then some { p with abandoned := true } else none } }
  else s

/-- A terminal's reference pane shows a story. -/
def refShows (s : State) (t : Fin 32) (id : Nat) : Bool :=
  match s.panes[t].ref with
  | none => false
  | some r => r.story = id

/-- Every reference pane that shows a spiked story is cleared with WINDOW-CLOSED (R115). -/
def spikePanes (id : Nat) (s : State) : State :=
  forTerminals (fun t s =>
    if refShows s t id then raiseTerminal t TermEvents.addWindowClosed (clearRef t s) else s) s

/-- A spike as one event (R24). -/
def spike (id : Nat) (st : Story) (s : State) : State :=
  let s := { s with memory := freeChain s.memory st.chain, stories := Tab.erase s.stories id }
  let s := if st.chain = [] then s else recoveryTest s
  spikePanes id (spikeFit id (leaveBasket st.basket id s))

/-- The answer to SPIKE STORY. -/
def ownSpikeStory (b : List Byte) (s : State) : Answer :=
  withStory (u16 b 0) s fun st =>
    if versionStale (optVersion b 2) st then refuseWith .stale (eWord st.version) s
    else if st.holding ≠ .idle then refuse .locked s
    else (spike (u16 b 0) st s, ⟨.ok, e16 st.chain.length⟩)

/-- SPIKE_STORY (R24). -/
def execSpikeStory (tag : Byte) (body : List Byte) (s : State) : Host.Outcome State Fault Refusal :=
  .next (takeOrder 0x06#8 5 ownSpikeStory tag body s)

/-! ### CLEAR MARKS (R10) -/

/-- A channel holds the story. -/
def Holding.isSetting : Holding → Bool
  | .setting _ => true
  | _ => false

/-- The answer to CLEAR MARKS. -/
def ownClearMarks (b : List Byte) (s : State) : Answer :=
  withStory (u16 b 0) s fun st =>
    if versionStale (optVersion b 2) st then refuseWith .stale (eWord st.version) s
    else if st.holding.isSetting then refuse .locked s
    else ({ s with memory := clearFlags s.memory st.chain },
      ⟨.ok, eWord st.version ++ e16 (flaggedCount s.memory st.chain)⟩)

/-- CLEAR_MARKS (R10). -/
def execClearMarks (tag : Byte) (body : List Byte) (s : State) : Host.Outcome State Fault Refusal :=
  .next (takeOrder 0x07#8 5 ownClearMarks tag body s)

end Sys2Proof.Machine
end

