-- ==== Sys2Proof/Machine/Desk.lean ====
section
/-! DEFINITION. The orders of the Desk Table and the Basket Lists (spec/02, R27 to R43). -/

namespace Sys2Proof.Machine

/-! ### SET DESK, READ DESK (R27, R28) -/

/-- Edit sessions closed and reference panes cleared between two states, as two counts. -/
def eClosed (before after : State) : List Byte :=
  e16 ((panesOpen before).1 - (panesOpen after).1) ++ e16 ((panesOpen before).2 - (panesOpen after).2)

/-- The authority row that 64 rights bytes give (R27, Table 11-2). -/
def rowOf (rights : List Byte) : Vector Rights 64 := Vector.ofFn fun i => rightsOf (rights.getD i 0)

/-- The answer to SET DESK. -/
def ownSetDesk (b : List Byte) (s : State) : Answer :=
  match inRange 16 (u8 b 0) with
  | none => refuse .range s
  | some d =>
    let n := u8 b 1
    match textAt b 2 (n + 64) with
    | none => refuse .malformed s
    | some t =>
      let name := cleanText 12 (t.take n)
      let s' := recheckWhere (fun s t => s.lines[t].desk = d) none
        { s with desks := s.desks.set d ⟨name.1, rowOf (t.drop n)⟩ }
      (s', Reply.clampedIf name.2 (eClosed s s'))

/-- SET_DESK (R27). -/
def execSetDesk (tag : Byte) (body : List Byte) (s : State) : Host.Outcome State Fault Refusal :=
  .next (takeOrder 0x08#8 2 ownSetDesk tag body s)

/-- The attached terminals of a desk in ascending order (R28). -/
def deskTerminals (s : State) (d : Fin 16) : List (Fin 32) :=
  (List.finRange 32).filter fun t => s.lines[t].attached && s.lines[t].desk = d

/-- The answer to READ DESK (R28). The terminals are given a byte each to the end of the body, with no count before them: the model's choice (log entry 8). -/
def ownReadDesk (b : List Byte) (s : State) : Answer :=
  match inRange 16 (u8 b 0) with
  | none => refuse .range s
  | some d =>
    okWith (eFixed 12 s.desks[d].name ++ s.desks[d].row.toList.flatMap eRights ++
      (deskTerminals s d).flatMap fun (t : Fin 32) => e8 t.val) s

/-- READ_DESK (R28). -/
def execReadDesk (tag : Byte) (body : List Byte) (s : State) : Host.Outcome State Fault Refusal :=
  .next (takeOrder 0x09#8 1 ownReadDesk tag body s)

/-! ### SET BASKET, LIST BASKET (R30, R32) -/

/-- The default setting that SET BASKET gives: none where it names a face outside 0 to 7, otherwise the clamped record, or absent (R30). -/
def defaultAt (b : List Byte) : Option (Option Setting) :=
  if flagAt b 2 then (settingAt b 3).map fun x => some (clampSetting x) else some none

/-- The default setting of SET BASKET was clamped. -/
def defaultClamped (b : List Byte) : Bool :=
  match flagAt b 2, settingAt b 3 with
  | true, some x => clampSetting x ≠ x
  | _, _ => false

/-- The answer to SET BASKET. -/
def ownSetBasket (b : List Byte) (s : State) : Answer :=
  withText b 15 (u8 b 14) s fun t =>
    match inRange 64 (u8 b 0), inRange 5 (u8 b 1), defaultAt b with
    | some bk, some e, some d =>
      let name := cleanText 12 t
      (modBasket bk (fun k => ⟨name.1, e, d, k.list⟩) s,
        Reply.clampedIf (name.2 || defaultClamped b) [])
    | _, _, _ => refuse .range s

/-- SET_BASKET (R30). -/
def execSetBasket (tag : Byte) (body : List Byte) (s : State) : Host.Outcome State Fault Refusal :=
  .next (takeOrder 0x0A#8 15 ownSetBasket tag body s)

/-- One item of a LIST BASKET reply (Table 11-6). -/
def eItem (s : State) (id : Nat) : List Byte :=
  match storyOf s id with
  | none => []
  | some st =>
    e16 id ++ eFixed 16 st.slug ++
      e8 (16 * st.fit.status.code + 4 * st.priority.code + st.holding.stateCode) ++
      e8 st.holding.holderCode ++
      e8 (16 * st.key + memberSum [(st.embargo, 1), (st.garbled, 2), (st.cut, 4)]) ++
      e16 (lengthOf s st) ++ eWord st.version ++ e32 st.fit.depth ++ e16 st.fit.lines ++
      e16 st.fit.loose ++ e16 st.fit.forced ++ eTime st.filed ++ eTime st.moved

/-- A basket's edition state, FFh for edition 0 (11.4). -/
def basketEditionCode (s : State) (bk : Basket) : Nat :=
  match editionOf s bk.edition with
  | none => 0xFF
  | some e => e.state.code

/-- A default setting record, zeros where absent (11.4). -/
def eDefault : Option Setting → List Byte
  | none => eFlag false ++ List.replicate 11 0
  | some x => eFlag true ++ eSetting x

/-- The answer to LIST BASKET. -/
def ownListBasket (b : List Byte) (s : State) : Answer :=
  match inRange 64 (u8 b 0) with
  | none => refuse .range s
  | some i =>
    let bk := s.baskets[i]
    let start := min (u16 b 1) bk.list.length
    let n := clampTo 1 24 (u8 b 3)
    (s, Reply.clampedIf (decide (start ≠ u16 b 1) || decide (n ≠ u8 b 3))
      (eFixed 12 bk.name ++ e8 bk.edition ++ e8 (basketEditionCode s bk) ++ eDefault bk.default ++
        e16 bk.list.length ++ ((bk.list.drop start).take n).flatMap (eItem s)))

/-- LIST_BASKET (R32). -/
def execListBasket (tag : Byte) (body : List Byte) (s : State) : Host.Outcome State Fault Refusal :=
  .next (takeOrder 0x0B#8 4 ownListBasket tag body s)

/-! ### MOVE STORY (R36 to R38) -/

/-- An optional terminal, basket: FFh for none (Table 11-2). -/
def optByte (b : List Byte) (i : Nat) : Option Nat := if u8 b i = 0xFF then none else some (u8 b i)

/-- An acting terminal (R34): none for the host; RANGE outside 0 to 31; NO-SUCH where it is not attached. -/
def withActing (b : List Byte) (i : Nat) (s : State) (k : Option (Fin 32) → Answer) : Answer :=
  match optByte b i with
  | none => k none
  | some v =>
    match inRange 32 v with
    | none => refuse .range s
    | some t => if s.lines[t].attached then k (some t) else refuse .noSuch s

/-- The expected basket of MOVE STORY lies outside 0 to 63. -/
def expectedBasketBad (b : List Byte) : Bool :=
  match optByte b 4 with
  | none => false
  | some v => 64 ≤ v

/-- The expectations of MOVE STORY fail (R36 step 2). -/
def moveStale (b : List Byte) (st : Story) : Bool :=
  (match optByte b 4 with
    | none => false
    | some v => v ≠ st.basket.val) || versionStale (optVersion b 5) st

/-- The authority check of MOVE STORY (R36 step 3). -/
def mayMove (s : State) (acting : Option (Fin 32)) (st : Story) (target : Fin 64) : Bool :=
  match acting with
  | none => true
  | some t =>
    (rightsOver s t st.basket).take && (rightsOver s t target).send &&
      viewCheck s.lines[t].key st

/-- The move of an IDLE story as one event (R37). -/
def moveTo (id : Nat) (from_ target : Fin 64) (s : State) : State :=
  let s := leaveBasket from_ id s
  let s := modStory id (fun st => { st with basket := target, moved := stamp s }) s
  recheckWhere (fun _ _ => true) (some id) (joinBasket target id s)

/-- The data of an OK reply to MOVE STORY: the new basket, the position in its list from 0, the version, the moved time (R37). -/
def eMoved (s : State) (id : Nat) (target : Fin 64) : List Byte :=
  e8 target ++ e16 (s.baskets[target].list.idxOf id) ++
    match storyOf s id with
    | none => []
    | some st => eWord st.version ++ eTime st.moved

/-- The answer to MOVE STORY (R36 to R38). That R38's LOCKED gives the holding terminal Tn as the lock holder's byte 20h + n, as R37's gives its holder, is the model's choice (log entry 8). -/
def ownMoveStory (b : List Byte) (s : State) : Answer :=
  let id := u16 b 0
  match inRange 64 (u8 b 2), expectedBasketBad b with
  | some target, false =>
    withStory id s fun st =>
      withActing b 3 s fun acting =>
        if moveStale b st then refuseWith .stale (e8 st.basket ++ eWord st.version) s
        else if !mayMove s acting st target then refuse .denied s
        else match st.holding with
          | .idle =>
            let s' := moveTo id st.basket target s
            (s', ⟨.ok, eMoved s' id target⟩)
          | .editing t =>
            if flagAt b 8 && decide (acting = some t) then
              let s' := moveTo id st.basket target (closeSession t true s)
              (s', ⟨.ok, eMoved s' id target ++ eFlag true⟩)
            else refuseWith .locked (eHolding st.holding) s
          | .filing _ => refuseWith .locked (eHolding st.holding) s
          | .setting _ => refuseWith .locked (eHolding st.holding) s
  | _, _ => refuse .range s

/-- MOVE_STORY (R36 to R38). -/
def execMoveStory (tag : Byte) (body : List Byte) (s : State) : Host.Outcome State Fault Refusal :=
  .next (takeOrder 0x0C#8 9 ownMoveStory tag body s)

/-! ### SET STORY KEY (R39, R40) -/

/-- A story's key and embargo. -/
def eKey (st : Story) : List Byte := e8 st.key ++ eFlag st.embargo

/-- The expected pair of SET STORY KEY differs from the story's (R39). -/
def keyStale (b : List Byte) (st : Story) : Bool :=
  flagAt b 4 && (decide (u8 b 5 ≠ st.key.val) || flagAt b 6 != st.embargo)

/-- The expected key of SET STORY KEY lies outside 0 to 15. -/
def expectedKeyBad (b : List Byte) : Bool := flagAt b 4 && decide (16 ≤ u8 b 5)

/-- The answer to SET STORY KEY; every reply to a story in use carries its key and embargo as found. -/
def ownSetStoryKey (b : List Byte) (s : State) : Answer :=
  let id := u16 b 0
  match inRange 16 (u8 b 2), expectedKeyBad b with
  | some key, false =>
    withStory id s fun st =>
      if keyStale b st then refuseWith .stale (eKey st) s
      else
        (recheckWhere (fun _ _ => true) (some id)
            (setStory id { st with key := key, embargo := flagAt b 3 } s),
          ⟨.ok, eKey st⟩)
  | _, _ =>
    match storyOf s id with
    | none => refuse .range s
    | some st => refuseWith .range (eKey st) s

/-- SET_STORY_KEY (R39, R40). -/
def execSetStoryKey (tag : Byte) (body : List Byte) (s : State) : Host.Outcome State Fault Refusal :=
  .next (takeOrder 0x0D#8 7 ownSetStoryKey tag body s)

/-! ### SEND MESSAGE (R42, R43) -/

/-- Fill the empty slots of the attached terminals of a desk (R43). -/
def deliver (d : Fin 16) (m : Message) (s : State) : State :=
  { s with slots := Vector.ofFn fun t =>
      if s.lines[t].attached && s.lines[t].desk = d && s.slots[t].isNone then some m
      else s.slots[t] }

/-- The delivered and busy counts of a message to a desk (R43). -/
def eDelivered (s : State) (d : Fin 16) : List Byte :=
  e16 ((deskTerminals s d).filter fun t => s.slots[t].isNone).length ++
    e16 ((deskTerminals s d).filter fun t => s.slots[t].isSome).length

/-- The answer to SEND MESSAGE; a text cut or substituted is CLAMPED also where the desk has no attached terminal (R42, R43; log entry 38). -/
def ownSendMessage (b : List Byte) (s : State) : Answer :=
  withText b 4 (u8 b 3) s fun text =>
    if text = [] then refuse .malformed s
    else match inRange 16 (u8 b 2) with
      | none => refuse .range s
      | some sender =>
        let t := cleanText 60 text
        let m : Message := ⟨t.1, sender⟩
        if u8 b 0 = 0 then
          match inRange 32 (u8 b 1) with
          | none => refuse .range s
          | some target =>
            if !s.lines[target].attached then refuse .noSuch s
            else if s.slots[target].isSome then refuse .full s
            else (setSlot target (some m) s, Reply.clampedIf t.2 [])
        else if u8 b 0 = 1 then
          match inRange 16 (u8 b 1) with
          | none => refuse .range s
          | some d => (deliver d m s, Reply.clampedIf t.2 (eDelivered s d))
        else refuse .range s

/-- SEND_MESSAGE (R42, R43). -/
def execSendMessage (tag : Byte) (body : List Byte) (s : State) : Host.Outcome State Fault Refusal :=
  .next (takeOrder 0x0E#8 4 ownSendMessage tag body s)

end Sys2Proof.Machine
end

