-- ==== Sys2Proof/Machine/Fit.lean ====
section
/-! DEFINITION. The Width Tables and the Fit Queue: the orders and the end of a fit's grant (spec/07, R119 to R123, R133 to R139). -/

namespace Sys2Proof.Machine

/-! ### SET WIDTHS, READ WIDTHS (R119 to R121) -/

/-- An entry's effective face: its override or its story's own (R119, R141). -/
def entryFace (s : State) (e : Entry) : Option (Fin 8) :=
  match e.face, storyOf s e.story with
  | some f, _ => some f
  | none, some st => some st.setting.face
  | none, none => none

/-- A channel holds an unreleased entry that will be set in a face (R119 step 4). -/
def channelUses (s : State) (f : Fin 8) (c : Fin 4) : Bool :=
  s.channels[c].jobs.any fun j => j.entries.any fun e => !e.released && entryFace s e = some f

/-- The lowest channel that uses a face. -/
def faceBusy (s : State) (f : Fin 8) : Option (Fin 4) := (List.finRange 4).find? (channelUses s f)

/-- A width table is refused: a width above 36, or spaces out of their ranges (R119 step 3). w holds the 95 widths. -/
def tableBad (w : List Byte) (minSpace maxSpace : Nat) : Bool :=
  let normal := u8 w 0
  w.any (fun x => decide (36 < x.toNat)) || decide (normal = 0) || decide (minSpace = 0) ||
    decide (normal < minSpace) || decide (maxSpace < normal) || decide (36 < maxSpace)

/-- The stories whose setting names a face, ascending. -/
def storiesOfFace (s : State) (f : Fin 8) : List Nat :=
  (s.stories.filter fun e => e.2.setting.face = f).map (·.1)

/-- A story's status follows a new table of its face (R120 step 2). -/
def outdateFace (f : Fin 8) (st : Story) : Story :=
  if st.setting.face = f then { st with fit := st.fit.outdate } else st

/-- A story's fit status is UNKNOWN. -/
def isUnknown (s : State) (id : Nat) : Bool :=
  match storyOf s id with
  | none => false
  | some st => st.fit.status = .unknown

/-- A face takes a table, its stories follow and are offered (R120). -/
def loadFace (f : Fin 8) (w : List Byte) (minSpace maxSpace : Nat) (s : State) : State :=
  let rec_ : Face :=
    ⟨true, Vector.ofFn fun i => u8 w i, minSpace, maxSpace, s.faces[f].generation + 1⟩
  let s :=
    { s with faces := s.faces.set f rec_, stories := Tab.mapVal (outdateFace f) s.stories }
  (storiesOfFace s f).foldl (fun s id => autoOffer id s) s

/-- The answer to SET WIDTHS. -/
def ownSetWidths (b : List Byte) (s : State) : Answer :=
  match inRange 8 (u8 b 0) with
  | none => refuse .range s
  | some f =>
    let w := (b.drop 3).take 95
    if tableBad w (u8 b 1) (u8 b 2) then refuse .range s
    else match faceBusy s f with
      | some c => refuseWith .busy (e8 c) s
      | none =>
        let s' := loadFace f w (u8 b 1) (u8 b 2) s
        let ids := storiesOfFace s' f
        (s', ⟨.ok, eWord s'.faces[f].generation ++ e16 ids.length ++
          e16 (ids.filter (isUnknown s')).length⟩)

/-- SET_WIDTHS (R119, R120). -/
def execSetWidths (tag : Byte) (body : List Byte) (s : State) : Host.Outcome State Fault Refusal :=
  .next (takeOrder 0x22#8 98 ownSetWidths tag body s)

/-- The answer to READ WIDTHS. -/
def ownReadWidths (b : List Byte) (s : State) : Answer :=
  match inRange 8 (u8 b 0) with
  | none => refuse .range s
  | some f =>
    let x := s.faces[f]
    okWith (eFlag x.loaded ++ eWord x.generation ++ x.widths.toList.flatMap e8 ++
      e8 x.minSpace ++ e8 x.maxSpace) s

/-- READ_WIDTHS (R121). -/
def execReadWidths (tag : Byte) (body : List Byte) (s : State) : Host.Outcome State Fault Refusal :=
  .next (takeOrder 0x23#8 1 ownReadWidths tag body s)

/-! ### SET SETTING (R123) -/

/-- The Fit Queue's grant in flight is of this story. -/
def fitFlying (s : State) (id : Nat) : Bool := fitIsOf s id && fitInFlight s

/-- A story waiting in the Fit Queue leaves it for an unloaded face, its partial result discarded and its status UNKNOWN; one with a grant in flight is left to the end-of-grant test (R123). -/
def leaveForFace (id : Nat) (s : State) : State :=
  if !inFitQueue s id || fitFlying s id then s
  else
    let s := setFitStatus id .unknown (dropFromFitList id s)
    if fitIsOf s id then { s with fit := { s.fit with progress := none } } else s

/-- A changed setting is stored, and the story is offered or leaves the queue (R123). -/
def changeSetting (id : Nat) (st : Story) (x : Setting) (s : State) : State :=
  let s := setStory id { st with setting := x, fit := st.fit.outdate } s
  if s.faces[x.face].loaded then autoOffer id s else leaveForFace id s

/-- The answer to SET SETTING; LOCKED carries the holding channel, the channel's number (R123, Table 11-2). -/
def ownSetSetting (b : List Byte) (s : State) : Answer :=
  let id := u16 b 0
  match settingAt b 2 with
  | none => refuse .range s
  | some given =>
    withStory id s fun st =>
      match st.holding with
      | .setting c => refuseWith .locked (e8 c) s
      | _ =>
        let x := clampSetting given
        (if x = st.setting then s else changeSetting id st x s,
          Reply.clampedIf (decide (x ≠ given)) (eSetting st.setting))

/-- SET_SETTING (R123). -/
def execSetSetting (tag : Byte) (body : List Byte) (s : State) : Host.Outcome State Fault Refusal :=
  .next (takeOrder 0x24#8 13 ownSetSetting tag body s)

/-! ### FIT STORY, READ FIT QUEUE (R135, R139) -/

/-- A story's position in the Fit Queue, from 1 at the head. -/
def fitPosition (s : State) (id : Nat) : Nat := (s.fit.list.map (·.story)).idxOf id + 1

/-- The answer to FIT STORY. -/
def ownFitStory (b : List Byte) (s : State) : Answer :=
  let id := u16 b 0
  withStory id s fun st =>
    if !s.faces[st.setting.face].loaded then refuse .noSuch s
    else if inFitQueue s id then okWith (e16 (fitPosition s id)) s
    else if Config.fitMax ≤ s.fit.list.length then refuse .full s
    else (joinFitQueue id s, ⟨.ok, e16 (s.fit.list.length + 1)⟩)

/-- FIT_STORY (R135). -/
def execFitStory (tag : Byte) (body : List Byte) (s : State) : Host.Outcome State Fault Refusal :=
  .next (takeOrder 0x25#8 2 ownFitStory tag body s)

/-- The fit in progress of the head story: version at start, next paragraph, lines, grant in flight (R139). -/
def eProgress (s : State) : List Byte :=
  match s.fit.progress with
  | none => []
  | some p =>
    if p.abandoned then []
    else eWord p.version ++ e16 p.resume.para ++ e16 p.lines ++ eFlag p.inFlight

/-- The answer to READ FIT QUEUE. -/
def ownReadFitQueue (_ : List Byte) (s : State) : Answer :=
  okWith (e16 s.fit.list.length ++ (s.fit.list.flatMap fun i => e16 i.story ++ e16 i.restarts) ++
    eProgress s) s

/-- READ_FIT_QUEUE (R139). -/
def execReadFitQueue (tag : Byte) (body : List Byte) (s : State) : Host.Outcome State Fault Refusal :=
  .next (takeOrder 0x26#8 0 ownReadFitQueue tag body s)

/-! ### FIT GRANT END (R137, R138) -/

/-- Set the fit in progress. -/
def setProgress (p : Option FitProgress) (s : State) : State :=
  { s with fit := { s.fit with progress := p } }

/-- The fit still stands: version, setting and generation are those at its start (R137 step 2). -/
def fitStands (s : State) (p : FitProgress) (st : Story) : Bool :=
  st.version = p.version && decide (st.setting = p.setting) &&
    s.faces[st.setting.face].generation = p.generation

/-- A grant's counts joined to those so far (R136). -/
def FitProgress.count (p : FitProgress) (recs : List LineRec) : FitProgress :=
  { p with
    lines := p.lines + recs.length
    loose := p.loose + (recs.filter (·.loose)).length
    forced := p.forced + (recs.filter (·.forced)).length
    inFlight := false }

/-- The fit record a completed fit writes (R138). -/
def FitProgress.fitRecord (p : FitProgress) : FitRecord :=
  ⟨fitStatusOf p.setting p.lines, p.lines * p.setting.leading, p.lines, p.loose, p.forced,
    p.version⟩

/-- A fit completes: the record is written and the story leaves the list (R138). -/
def completeFit (p : FitProgress) (s : State) : State :=
  setProgress none (dropFromFitList p.story
    (modStory p.story (fun st => { st with fit := p.fitRecord }) s))

/-- A story goes from the head to the tail of the list, its restart count one higher, saturating at 255 (R133, R137). -/
def requeue (id : Nat) (s : State) : State :=
  let up := (s.fit.list.filter fun i => i.story = id).map fun i =>
    { i with restarts := min 255 (i.restarts + 1) }
  { s with fit := { s.fit with list := (s.fit.list.filter fun i => i.story ≠ id) ++ up } }

/-- A fit is discarded: the story goes to the tail, or leaves for an unloaded face (R137 step 4). -/
def discardFit (p : FitProgress) (st : Story) (s : State) : State :=
  setProgress none
    (if s.faces[st.setting.face].loaded then setFitStatus p.story .pending (requeue p.story s)
    else setFitStatus p.story .unknown (dropFromFitList p.story s))

/-- The end-of-grant test (R137). -/
def endFitGrant (p : FitProgress) (s : State) : State :=
  if p.abandoned then setProgress none s
  else match storyOf s p.story with
    | none => setProgress none (dropFromFitList p.story s)
    | some st =>
      if fitStands s p st then
        let w := grantWork (setWith s p.setting) (textOf s st) p.resume
        match w.2 with
        | some r => setProgress (some { p.count w.1 with resume := r }) s
        | none => completeFit (p.count w.1) s
      else discardFit p st s

/-- The Fit Queue takes the end of its grant. -/
def fitGrantEnds (s : State) : State :=
  if s.engine.owner = some .fit then
    match s.fit.progress with
    | none => freeEngine s
    | some p => freeEngine (endFitGrant p s)
  else s

/-- FIT_GRANT_END (R137, R138). -/
def execFitGrantEnd (s : State) : Host.Outcome State Fault Refusal := .next (settle (fitGrantEnds s))

end Sys2Proof.Machine
end

