-- ==== Sys2Proof/Machine/Channels.lean ====
section
/-! DEFINITION. The orders and events of the typesetter channels and the Engine Arbiter (spec/08, R140 to R162). -/

namespace Sys2Proof.Machine

/-! ### QUEUE JOB (R141, R142) -/

/-- A bit of an entry's presence byte (Table 11-7). Bits other than the five of the table are ignored (log entry 44). -/
def hasOverride (e : List Byte) (i : Nat) : Bool := (u8 e 3).testBit i

/-- An override of two bytes where its presence bit is set (Table 11-7). -/
def override16 (e : List Byte) (bit i : Nat) : Option Nat :=
  if hasOverride e bit then some (u16 e i) else none

/-- The 13-byte entries of a job body. -/
def rawEntries (b : List Byte) : Nat → List (List Byte)
  | 0 => []
  | n + 1 => b.take 13 :: rawEntries (b.drop 13) n

/-- The face override: absent, a face, or outside 0 to 7. -/
def faceOverride (e : List Byte) : Option (Option (Fin 8)) :=
  if hasOverride e 0 then (inRange 8 (u8 e 4)).map some else some none

/-- An entry as given; none where a story, mode or face is out of range (R141 step 2). -/
def entryOf (e : List Byte) : Option Entry :=
  match EntryMode.ofCode (u8 e 2), faceOverride e with
  | some m, some f =>
    if u16 e 0 = 0 || Config.stories < u16 e 0 then none
    else some ⟨u16 e 0, m, f, override16 e 1 5, override16 e 2 7, override16 e 3 9,
      override16 e 4 11, false, false⟩
  | _, _ => none

/-- Every entry, or none where one is out of range. -/
def entriesOf : List (List Byte) → Option (List Entry)
  | [] => some []
  | e :: es =>
    match entryOf e, entriesOf es with
    | some x, some xs => some (x :: xs)
    | _, _ => none

/-- The overrides brought into range, the indent against the effective measure (R141, R122). -/
def clampEntry (s : State) (e : Entry) : Entry :=
  let measure := e.measure.map (clampTo 18 1440)
  let own := match storyOf s e.story with
    | none => 0
    | some st => st.setting.measure
  { e with
    size := e.size.map (clampTo 10 144)
    measure := measure
    leading := e.leading.map (clampTo 10 288)
    indent := e.indent.map fun i => min i (measure.getD own / 2) }

/-- An entry names a free story or an effective face that is not loaded (R141 step 3). -/
def entryMissing (s : State) (e : Entry) : Bool :=
  match storyOf s e.story, entryFace s e with
  | some _, some f => !s.faces[f].loaded
  | _, _ => true

/-- The entry's story is not IDLE (R141 step 5). -/
def entryHeld (s : State) (e : Entry) : Bool :=
  match storyOf s e.story with
  | none => false
  | some st => st.holding ≠ .idle

/-- A job number is held by a job in a channel's queue (R140). -/
def numberHeld (s : State) (n : Nat) : Bool :=
  (List.finRange 4).any fun c => s.channels[c].jobs.any fun j => j.number = n

/-- The next job number: after the last given, 255 followed by 1, held numbers passed over (R140). -/
def nextNumber (s : State) : Nat :=
  (((List.range 255).map fun k => (s.lastJob + k) % 255 + 1).find? fun n => !numberHeld s n).getD 1

/-- A job is accepted as one event (R142). -/
def acceptJob (c : Fin 4) (ed : Fin 5) (es : List Entry) (s : State) : State :=
  let n := nextNumber s
  let idle := s.channels[c].state = .idle
  let s := es.foldl (fun s e => claim e.story (.setting c) s) { s with lastJob := n }
  let s := modChannel c (fun ch => { ch with jobs := ch.jobs ++ [⟨n, ed, es⟩] }) s
  if idle then startHead c startFuel s else s

/-- The data of a LOCKED reply to QUEUE JOB: the story, its state and holder (R141 step 5). -/
def eHeld (s : State) (e : Entry) : List Byte :=
  match storyOf s e.story with
  | none => []
  | some st => e16 e.story ++ eHolding st.holding

/-- QUEUE JOB from its third check on. -/
def queueJob (c : Fin 4) (ed : Fin 5) (es : List Entry) (s : State) : Answer :=
  match es.findIdx? (entryMissing s) with
  | some i => refuseWith .noSuch (e8 (i + 1)) s
  | none =>
    if Config.jobsMax ≤ s.channels[c].jobs.length then refuse .full s
    else match es.find? (entryHeld s) with
      | some e => refuseWith .locked (eHeld s e) s
      | none =>
        let clamped := es.map (clampEntry s)
        (acceptJob c ed clamped s,
          Reply.clampedIf (decide (clamped ≠ es))
            (e8 (nextNumber s) ++ e16 (s.channels[c].jobs.length + 1)))

/-- The stories of raw entries. -/
def rawStories (raw : List (List Byte)) : List Nat := raw.map fun e => u16 e 0

/-- The answer to QUEUE JOB. -/
def ownQueueJob (b : List Byte) (s : State) : Answer :=
  let n := u8 b 2
  let raw := rawEntries (b.drop 3) n
  if n = 0 || 16 < n || b.length < 3 + 13 * n || !decide (rawStories raw).Nodup then
    refuse .malformed s
  else match inRange 4 (u8 b 0), inRange 5 (u8 b 1), entriesOf raw with
    | some c, some ed, some es => queueJob c ed es s
    | _, _, _ => refuse .range s

/-- QUEUE_JOB (R141, R142). -/
def execQueueJob (tag : Byte) (body : List Byte) (s : State) : Host.Outcome State Fault Refusal :=
  .next (takeOrder 0x27#8 3 ownQueueJob tag body s)

/-! ### SET ARBITRATION (R150) -/

/-- The arbitration mode and configured levels as replies give them. -/
def eArbitration (e : Engine) : List Byte := e8 e.mode.code ++ e.levels.toList.flatMap e8

/-- The answer to SET ARBITRATION. -/
def ownSetArbitration (b : List Byte) (s : State) : Answer :=
  match ArbMode.ofCode (u8 b 0) with
  | none => refuse .range s
  | some m =>
    let given := (b.drop 1).take 5
    ({ s with engine := { s.engine with
        mode := m, levels := Vector.ofFn fun i => min 3 (u8 given i) } },
      Reply.clampedIf (given.any fun x => decide (3 < x.toNat)) (eArbitration s.engine))

/-- SET_ARBITRATION (R150). -/
def execSetArbitration (tag : Byte) (body : List Byte) (s : State) : Host.Outcome State Fault Refusal :=
  .next (takeOrder 0x28#8 6 ownSetArbitration tag body s)

/-! ### SET CHANNEL (R154) -/

/-- A channel named by an order: RANGE outside 0 to 3. -/
def withChannel (b : List Byte) (s : State) (k : Fin 4 → Answer) : Answer :=
  match inRange 4 (u8 b 0) with
  | none => refuse .range s
  | some c => k c

/-- A channel's settings as replies give them (R154). -/
def eSettings (ch : Channel) : List Byte :=
  e16 ch.rate ++ e8 ch.threshold ++ e8 ch.waitChoice ++ e8 ch.stallChoice

/-- A running stall timer has reached the limit (R154, R155). -/
def stallDue (s : State) (c : Fin 4) : Bool :=
  match s.channels[c].stallFrom, stallLimit s.channels[c].stallChoice with
  | some f, some limit => f + limit ≤ s.now
  | _, _ => false

/-- New settings are taken: the batch is tested and the stall timer compared at once; a limit of none stops the timer (R154; log entry 32). -/
def changeSettings (c : Fin 4) (rate threshold wait limit : Nat) (s : State) : State :=
  let s := modChannel c (fun ch =>
    Channel.testBatch s.now { ch with
      rate := rate, threshold := threshold, waitChoice := wait, stallChoice := limit
      stallFrom := if limit = 0 then none else ch.stallFrom }) s
  if stallDue s c then stall c s else s

/-- The answer to SET CHANNEL. -/
def ownSetChannel (b : List Byte) (s : State) : Answer :=
  withChannel b s fun c =>
    let rate := clampRate (u16 b 1)
    let thr := clampThreshold (u8 b 3)
    (changeSettings c rate thr (min 3 (u8 b 4)) (min 3 (u8 b 5)) s,
      Reply.clampedIf
        (decide (rate ≠ u16 b 1) || decide (thr ≠ u8 b 3) || decide (3 < u8 b 4) ||
          decide (3 < u8 b 5))
        (eSettings s.channels[c]))

/-- SET_CHANNEL (R154). -/
def execSetChannel (tag : Byte) (body : List Byte) (s : State) : Host.Outcome State Fault Refusal :=
  .next (takeOrder 0x29#8 6 ownSetChannel tag body s)

/-! ### RESUME, FLUSH CHANNEL, CANCEL JOB (R156 to R159) -/

/-- The answer to RESUME. -/
def ownResume (b : List Byte) (s : State) : Answer :=
  withChannel b s fun c =>
    match s.channels[c].state with
    | .halted =>
      (modChannel c (fun ch => Channel.testBatch s.now { ch with state := .running }) s,
        ⟨.ok, e8 ChannelState.running.code⟩)
    | .running => okWith (e8 ChannelState.running.code) s
    | .idle => refuseWith .busy (e8 ChannelState.idle.code) s
    | .cancelling => refuseWith .busy (e8 ChannelState.cancelling.code) s

/-- RESUME (R156). -/
def execResume (tag : Byte) (body : List Byte) (s : State) : Host.Outcome State Fault Refusal :=
  .next (takeOrder 0x2A#8 1 ownResume tag body s)

/-- A grant in flight is marked DISCARD (R157, R159). -/
def Grant.discarded : Grant → Grant
  | .none => .none
  | .keep => .discard
  | .discard => .discard

/-- A flush: the output is emptied, a grant in flight is discarded, the setting position returns to an entry (R157). -/
def Channel.flush (i : Nat) (ch : Channel) : Channel :=
  { ch.emptyOutput with grant := ch.grant.discarded, pos := .at i Resume.start false }

/-- The answer to FLUSH CHANNEL. -/
def ownFlushChannel (b : List Byte) (s : State) : Answer :=
  withChannel b s fun c =>
    match s.channels[c].state with
    | .idle => okWith [] s
    | .running => refuse .busy s
    | .cancelling => refuse .busy s
    | .halted =>
      let es := s.channels[c].entries
      let i := es.findIdx fun e => !e.released
      (modChannel c (Channel.flush i) s,
        ⟨.ok, match es[i]? with
          | none => e16 0
          | some e => e16 e.story⟩)

/-- FLUSH_CHANNEL (R157). -/
def execFlushChannel (tag : Byte) (body : List Byte) (s : State) : Host.Outcome State Fault Refusal :=
  .next (takeOrder 0x2B#8 1 ownFlushChannel tag body s)

/-- The unreleased entries of a job. -/
def Job.unreleased (j : Job) : List Entry := j.entries.filter fun e => !e.released

/-- The stories of a job's unreleased entries return to IDLE (R158, R159). -/
def releaseJob (j : Job) (s : State) : State := j.unreleased.foldl (fun s e => release e.story s) s

/-- A queued job that is not current is cancelled (R158). -/
def cancelQueued (c : Fin 4) (j : Job) (s : State) : State :=
  raiseSource (srcChannel c)
    (modChannel c (fun ch =>
      { ch.addResult (j.result .cancelled .notApplicable) with jobs := ch.jobs.erase j })
      (releaseJob j s))

/-- A job with every entry marked released (log entry 18). -/
def Job.givenBack (j : Job) : Job :=
  { j with entries := j.entries.map fun e => { e with released := true } }

/-- The current job is cancelled: the output emptied, the grant discarded, the position complete, ABANDON placed and the batch open (R159). -/
def Channel.cancel (now : Nat) (j : Job) (ch : Channel) : Channel :=
  { ch.emptyOutput with
    state := .cancelling
    jobs := j.givenBack :: ch.jobs.tail
    grant := ch.grant.discarded
    pos := .complete
    fifo := (SetCode.abandon j.number).outBytes now
    batchOpen := true }

/-- The answer to CANCEL JOB for the current job. -/
def cancelCurrent (c : Fin 4) (j : Job) (s : State) : Answer :=
  if s.channels[c].state = .cancelling then refuse .busy s
  else
    (modChannel c (Channel.cancel s.now j) (releaseJob j s),
      ⟨.ok, e16 j.unreleased.length ++ e16 (j.entries.length - j.unreleased.length)⟩)

/-- The answer to CANCEL JOB. -/
def ownCancelJob (b : List Byte) (s : State) : Answer :=
  withChannel b s fun c =>
    let n := u8 b 1
    if n = 0 then refuse .range s
    else match s.channels[c].jobs with
      | [] => refuse .noSuch s
      | j :: js =>
        if j.number = n then cancelCurrent c j s
        else match js.find? fun j => j.number = n with
          | none => refuse .noSuch s
          | some q => (cancelQueued c q s, ⟨.ok, e16 q.unreleased.length⟩)

/-- CANCEL_JOB (R158, R159). -/
def execCancelJob (tag : Byte) (body : List Byte) (s : State) : Host.Outcome State Fault Refusal :=
  .next (takeOrder 0x2C#8 2 ownCancelJob tag body s)

/-! ### READ CHANNEL (R162) -/

/-- An override's 2 bytes; that an absent one is sent as zeros, which Table 11-7 does not say, is the model's choice (log entry 8). -/
def eOver (n : Option Nat) : List Byte := e16 (n.getD 0)

/-- A face override's byte; that an absent one is sent as 00h, which Table 11-7 does not say, is the model's choice (log entry 8). -/
def faceNumber : Option (Fin 8) → Nat
  | none => 0
  | some f => f

/-- A job entry of 14 bytes (Table 11-7). -/
def eEntry (e : Entry) : List Byte :=
  e16 e.story ++ e8 e.mode.code ++
    e8 (memberSum [(e.face.isSome, 1), (e.size.isSome, 2), (e.measure.isSome, 4),
      (e.leading.isSome, 8), (e.indent.isSome, 16)]) ++
    e8 (faceNumber e.face) ++ eOver e.size ++ eOver e.measure ++ eOver e.leading ++
    eOver e.indent ++ eFlag e.released

/-- A job with its entries (11.4). -/
def eJob (j : Job) : List Byte :=
  e8 j.number ++ e8 j.edition ++ e8 j.entries.length ++ j.entries.flatMap eEntry

/-- The setting position: the entry from 1 in 1 byte and the paragraph's ordinal in 2, zeros where complete; R162 gives no encoding, so the widths are the model's choice (log entry 8). -/
def ePosition : SetPos → List Byte
  | .complete => e8 0 ++ e16 0
  | .at i r _ => e8 (i + 1) ++ e16 r.para

/-- The engine's owner: a flag, 00h for FREE and 01h for GRANTED, and the client, 00h where it is FREE (R162; log entry 8). -/
def eOwner : Option Client → List Byte
  | none => eFlag false ++ e8 0
  | some k => eFlag true ++ e8 k.code

/-- The arbiter's part of a READ CHANNEL reply. -/
def eEngine (s : State) : List Byte :=
  eArbitration s.engine ++ clients.flatMap (fun k => e8 (effectiveLevel s k)) ++
    e8 s.engine.last.code ++ eOwner s.engine.owner

/-- The answer to READ CHANNEL (R162). By the model's choice (log entry 8) a 2-byte count stands before the jobs and before the results of the finished list, and with no current job the reply still carries a setting position, of zeros, and the grant in flight. -/
def ownReadChannel (b : List Byte) (s : State) : Answer :=
  withChannel b s fun c =>
    let ch := s.channels[c]
    okWith (e8 ch.state.code ++ eSettings ch ++ eFlag ch.ready ++ e16 ch.jobs.length ++
      ch.jobs.flatMap eJob ++ ePosition ch.pos ++ e8 ch.grant.code ++ e16 ch.lines.length ++
      e16 ch.fifo.length ++ eFlag ch.batchOpen ++ e16 ch.finished.length ++
      ch.finished.flatMap eResult ++ eEngine s) s

/-- READ_CHANNEL (R162). -/
def execReadChannel (tag : Byte) (body : List Byte) (s : State) : Host.Outcome State Fault Refusal :=
  .next (takeOrder 0x2D#8 1 ownReadChannel tag body s)

/-! ### Events -/

/-- A channel takes the end of its grant: KEEP takes the lines, DISCARD drops them (R146). -/
def channelGrantEnds (c : Fin 4) (s : State) : State :=
  if s.engine.owner = some (.channel c) then
    let s := if s.channels[c].grant = .keep then takeLines c s else s
    freeEngine (modChannel c (fun ch => { ch with grant := .none }) s)
  else s

/-- CHANNEL_GRANT_END (R146). -/
def execChannelGrantEnd (c : Fin 4) (s : State) : Host.Outcome State Fault Refusal :=
  .next (settle (channelGrantEnds c s))

/-- What the byte that has been sent ends (R153, R160). -/
def byteEnds (c : Fin 4) (e : ByteEnd) (s : State) : State :=
  match e with
  | .plain => s
  | .storyEnd id => releaseSent c id s
  | .abandon => endJob .cancelled .sent c s

/-- The byte that has been sent leaves the FIFO; an emptied FIFO closes the batch (R152). -/
def Channel.byteSent (ch : Channel) : Channel :=
  { ch with
    sending := .rest
    fifo := ch.fifo.tail
    batchOpen := ch.batchOpen && !ch.fifo.tail.isEmpty }

/-- The stop bit of the byte on a typesetter line has been sent (R152, R153, R160). -/
def typesetterByteSent (c : Fin 4) (s : State) : State :=
  match s.channels[c].sending with
  | .rest => s
  | .busy _ false => modChannel c (fun ch => { ch with sending := .rest }) s
  | .busy b true => byteEnds c b.ends (modChannel c Channel.byteSent s)

/-- TYPESETTER_BYTE_SENT (R152). -/
def execTypesetterByteSent (c : Fin 4) (s : State) : Host.Outcome State Fault Refusal :=
  .next (settle (typesetterByteSent c s))

/-- TYP_READY (R155): the input takes a level; the timer and the next byte follow at the event's end. -/
def execTypReady (c : Fin 4) (level : Bool) (s : State) : Host.Outcome State Fault Refusal :=
  .next (settle (modChannel c (fun ch => { ch with ready := level }) s))

/-- The batch wait of the oldest byte runs out: the batch test is made (R152). -/
def batchWaitExpires (c : Fin 4) (s : State) : State :=
  match s.channels[c].fifo, batchWait s.channels[c].waitChoice with
  | b :: _, some w =>
    if s.channels[c].batchOpen then s
    else
      let s := advanceTo (b.placed + w) s
      modChannel c (Channel.testBatch s.now) s
  | _, _ => s

/-- BATCH_WAIT_EXPIRY (R152). -/
def execBatchWaitExpiry (c : Fin 4) (s : State) : Host.Outcome State Fault Refusal :=
  .next (settle (batchWaitExpires c s))

/-- The stall timer reaches the stall limit (R155, R160). -/
def channelStalls (c : Fin 4) (s : State) : State :=
  match s.channels[c].stallFrom, stallLimit s.channels[c].stallChoice with
  | some f, some limit => stall c (advanceTo (f + limit) s)
  | _, _ => s

/-- CHANNEL_STALL (R155). -/
def execChannelStall (c : Fin 4) (s : State) : Host.Outcome State Fault Refusal :=
  .next (settle (channelStalls c s))

end Sys2Proof.Machine
end

