-- ==== Sys2Proof/Machine/Clock.lean ====
section
/-! DEFINITION. The orders of the Clock and Edition Unit and the clock tick (spec/03, R46 to R55). -/

namespace Sys2Proof.Machine

/-- The clock's state and value as replies give them, the value given as 0 in UNSET (R49). -/
def eClock (s : State) : List Byte :=
  e8 s.clock.state.code ++ e24 (if s.clock.state = .unset then 0 else s.clock.value)

/-! ### CLOCK TICK (R46) -/

/-- The value after a tick: 86399 is followed by 0, the midnight wrap (R46). -/
def tickValue (v : Nat) : Nat := if v + 1 < Config.daySeconds then v + 1 else 0

/-- A tick of a RUNNING clock, one second after the tick it is counted from, then the passage tests (R46, R52). -/
def tick (s : State) : State :=
  passageTests
    { advanceTo (s.clock.tickFrom + Config.second) s with
      clock := ⟨s.clock.state, tickValue s.clock.value, s.clock.tickFrom + Config.second⟩ }

/-- CLOCK_TICK (R46): no tick comes while the clock is STOPPED or UNSET. -/
def execClockTick (s : State) : Host.Outcome State Fault Refusal :=
  .next (settle (if s.clock.state = .running then tick s else s))

/-! ### SET CLOCK, START CLOCK, READ CLOCK (R47 to R49) -/

/-- The editions, numbered from 1, that are PASSED after and were ARMED before. -/
def newlyPassed (before after : State) : List Nat :=
  ((List.finRange 4).filter fun e =>
    before.editions[e].state = .armed && after.editions[e].state = .passed).map fun e => e.val + 1

/-- The answer to SET CLOCK. -/
def ownSetClock (b : List Byte) (s : State) : Answer :=
  if Config.daySeconds ≤ u24 b 0 then refuse .range s
  else
    let s' := passageTests
      { s with clock := ⟨if flagAt b 3 then .stopped else .running, u24 b 0, s.now⟩ }
    (s', ⟨.ok, eClock s ++ eClock s' ++ (newlyPassed s s').flatMap e8⟩)

/-- SET_CLOCK (R47). -/
def execSetClock (tag : Byte) (body : List Byte) (s : State) : Host.Outcome State Fault Refusal :=
  .next (takeOrder 0x0F#8 4 ownSetClock tag body s)

/-- The answer to START CLOCK. -/
def ownStartClock (_ : List Byte) (s : State) : Answer :=
  match s.clock.state with
  | .unset => refuseWith .busy (eClock s) s
  | .running => okWith (eClock s) s
  | .stopped =>
    let s' := { s with clock := ⟨.running, s.clock.value, s.now⟩ }
    (s', ⟨.ok, eClock s'⟩)

/-- START_CLOCK (R48). -/
def execStartClock (tag : Byte) (body : List Byte) (s : State) : Host.Outcome State Fault Refusal :=
  .next (takeOrder 0x10#8 0 ownStartClock tag body s)

/-- An edition's time and state as replies give them. -/
def eEdition (e : Edition) : List Byte := e24 e.time ++ e8 e.state.code

/-- The answer to READ CLOCK. -/
def ownReadClock (_ : List Byte) (s : State) : Answer :=
  okWith (eClock s ++ (List.finRange 4).flatMap fun e => eEdition s.editions[e]) s

/-- READ_CLOCK (R49). -/
def execReadClock (tag : Byte) (body : List Byte) (s : State) : Host.Outcome State Fault Refusal :=
  .next (takeOrder 0x11#8 0 ownReadClock tag body s)

/-! ### Deadlines (R53 to R55) -/

/-- The edition 1 to 4 that an order names, as an index from 0. -/
def editionIndex (v : Nat) : Option (Fin 4) := if v = 0 then none else inRange 4 (v - 1)

/-- OK with an edition's record after the order. -/
def editionReply (r : ResultCode) (e : Fin 4) (s : State) : Answer := (s, ⟨r, eEdition s.editions[e]⟩)

/-- The answer to SET DEADLINE. -/
def ownSetDeadline (b : List Byte) (s : State) : Answer :=
  match editionIndex (u8 b 0) with
  | none => refuse .range s
  | some e =>
    if Config.daySeconds ≤ u24 b 1 then refuse .range s
    else if s.editions[e].state = .passed then
      editionReply .ok e (modEdition e (fun d => { d with time := u24 b 1 }) s)
    else editionReply .ok e (passageTest e (modEdition e (fun _ => ⟨u24 b 1, .armed⟩) s))

/-- SET_DEADLINE (R53). -/
def execSetDeadline (tag : Byte) (body : List Byte) (s : State) : Host.Outcome State Fault Refusal :=
  .next (takeOrder 0x12#8 4 ownSetDeadline tag body s)

/-- A deadline is later than the clock; every deadline is, while the clock is UNSET (R52, R54). -/
def deadlineAhead (s : State) (e : Fin 4) : Bool :=
  s.clock.state = .unset || s.clock.value < s.editions[e].time

/-- The answer to REARM. -/
def ownRearm (b : List Byte) (s : State) : Answer :=
  match editionIndex (u8 b 0) with
  | none => refuse .range s
  | some e =>
    match s.editions[e].state with
    | .unarmed => editionReply .busy e s
    | .armed => editionReply .ok e s
    | .passed =>
      editionReply .ok e
        (if deadlineAhead s e then modEdition e (fun d => { d with state := .armed }) s else s)

/-- REARM (R54). -/
def execRearm (tag : Byte) (body : List Byte) (s : State) : Host.Outcome State Fault Refusal :=
  .next (takeOrder 0x13#8 1 ownRearm tag body s)

/-- The answer to CLEAR DEADLINE. -/
def ownClearDeadline (b : List Byte) (s : State) : Answer :=
  match editionIndex (u8 b 0) with
  | none => refuse .range s
  | some e => editionReply .ok e (modEdition e (fun d => { d with state := .unarmed }) s)

/-- CLEAR_DEADLINE (R55). -/
def execClearDeadline (tag : Byte) (body : List Byte) (s : State) : Host.Outcome State Fault Refusal :=
  .next (takeOrder 0x14#8 1 ownClearDeadline tag body s)

end Sys2Proof.Machine
end

