-- ==== Sys2Proof/Machine/Edit.lean ====
section
/-! DEFINITION. The Edit Session Unit: the orders on panes and what each text and edit key does once it is handed over (spec/06, R97 to R117). -/

namespace Sys2Proof.Machine

/-! ### READ SESSION (R98) -/

/-- An edit session record, zeros where closed (R98; log entry 8). -/
def eSession : Option Session → List Byte
  | none => List.replicate 9 0
  | some e =>
    e16 e.story ++ e16 e.top ++ e16 e.cursor ++ e8 e.mode.code ++ e8 e.focus.code ++
      eFlag e.modified

/-- A reference pane record, zeros where closed (R98). -/
def eRef : Option RefPane → List Byte
  | none => List.replicate 4 0
  | some r => e16 r.story ++ e16 r.top

/-- A terminal named by an order: RANGE outside 0 to 31. -/
def withTerminal (b : List Byte) (i : Nat) (s : State) (k : Fin 32 → Answer) : Answer :=
  match inRange 32 (u8 b i) with
  | none => refuse .range s
  | some t => k t

/-- The answer to READ SESSION. -/
def ownReadSession (b : List Byte) (s : State) : Answer :=
  withTerminal b 0 s fun t => okWith (eSession s.panes[t].session ++ eRef s.panes[t].ref) s

/-- READ_SESSION (R98). -/
def execReadSession (tag : Byte) (body : List Byte) (s : State) : Host.Outcome State Fault Refusal :=
  .next (takeOrder 0x1F#8 1 ownReadSession tag body s)

/-! ### OPEN WINDOW (R99 to R101) -/

/-- The display rows of a story in a pane of a width. -/
def rowsOf (s : State) (w : Nat) (st : Story) : List DRow := displayRows w (textOf s st)

/-- Open the edit pane on a story at an offset (R100). -/
def openEdit (t : Fin 32) (id off : Nat) (st : Story) (s : State) : State :=
  let s := claim id (.editing t) (closeSession t true s)
  let top := rowStart (rowsOf s (editWidth s.lines[t].layout) st) off
  modPanes t (fun p => { p with session := some ⟨id, top, off, .insert, .edit, false⟩ }) s

/-- Open the reference pane on a story at an offset; one that is open is cleared first (R101, R110; log entry 36). -/
def openRef (t : Fin 32) (id off : Nat) (st : Story) (s : State) : State :=
  let s := if s.panes[t].ref.isSome then clearRef t s else s
  modPanes t (fun p => { p with ref := some ⟨id, rowStart (rowsOf s refWidth st) off⟩ }) s

/-- The story may be held by this terminal's edit pane: it is IDLE, or in EDITING held by the terminal's own session (R99 step 4). -/
def mayHold (t : Fin 32) (st : Story) : Bool :=
  st.holding = .idle || st.holding = .editing t

/-- The top offset of a terminal's reference pane. -/
def refTop (s : State) (t : Fin 32) : Nat :=
  match s.panes[t].ref with
  | none => 0
  | some r => r.top

/-- The answer to OPEN WINDOW. -/
def ownOpenWindow (b : List Byte) (s : State) : Answer :=
  match inRange 32 (u8 b 0), paneIsEdit (u8 b 1) with
  | some t, some isEdit =>
    let id := u16 b 2
    withStory id s fun st =>
      let len := lengthOf s st
      let off := min (u16 b 4) len
      let clamped := decide (off ≠ u16 b 4)
      if !s.lines[t].attached then refuse .noSuch s
      else if s.screens[t].mode ≠ .normal then refuse .busy s
      else if !maySee s t st then refuse .denied s
      else if isEdit then
        if !changeCheck s.lines[t].key st then refuse .denied s
        else if !mayHold t st then refuseWith .locked (eHolding st.holding) s
        else
          (openEdit t id off st s,
            Reply.clampedIf clamped (eWord st.version ++ e16 len ++ e16 off))
      else if s.lines[t].layout = .full then refuse .range s
      else
        let s' := openRef t id off st s
        (s', Reply.clampedIf clamped (eWord st.version ++ e16 len ++ e16 (refTop s' t)))
  | _, _ => refuse .range s

/-- OPEN_WINDOW (R99 to R101). -/
def execOpenWindow (tag : Byte) (body : List Byte) (s : State) : Host.Outcome State Fault Refusal :=
  .next (takeOrder 0x20#8 6 ownOpenWindow tag body s)

/-! ### CLOSE WINDOW (R116) -/

/-- The answer to CLOSE WINDOW. -/
def ownCloseWindow (b : List Byte) (s : State) : Answer :=
  match inRange 32 (u8 b 0), paneIsEdit (u8 b 1) with
  | some t, some true =>
    match s.lines[t].attached, s.panes[t].session with
    | true, some e =>
      (closeSession t true s, ⟨.ok, e16 e.story ++ eWord (versionNow s e.story) ++ eFlag e.modified⟩)
    | _, _ => refuse .noSuch s
  | some t, some false =>
    match s.lines[t].attached, s.panes[t].ref with
    | true, some r => (clearRef t s, ⟨.ok, e16 r.story⟩)
    | _, _ => refuse .noSuch s
  | _, _ => refuse .range s

/-- CLOSE_WINDOW (R116). -/
def execCloseWindow (tag : Byte) (body : List Byte) (s : State) : Host.Outcome State Fault Refusal :=
  .next (takeOrder 0x21#8 2 ownCloseWindow tag body s)

/-! ### Keys on the edit session (R105 to R109) -/

/-- Change a terminal's open edit session. -/
def modSession (t : Fin 32) (f : Session → Session) (s : State) : State :=
  modPanes t (fun p => { p with session := p.session.map f }) s

/-- A key that acts on an open edit session with focus EDIT; the bell otherwise (R105). -/
def withEdit (t : Fin 32) (s : State) (k : Session → Story → State) : State :=
  match s.panes[t].session with
  | none => bell t s
  | some e =>
    match e.focus, storyOf s e.story with
    | .edit, some st => k e st
    | _, _ => bell t s

/-- The effects of a keystroke's text change: the version and fit status, the modified flag and the cursor, the top offsets of this pane and of every reference pane that shows the story (R112). -/
def textEffects (t : Fin 32) (id cursor : Nat) (move : Nat → Nat) (s : State) : State :=
  let s := modStory id Story.textChanged s
  let s := modSession t (fun e => { e with cursor := cursor, modified := true }) s
  keepRefTops id move (keepSessionTop t move s)

/-- Insert a character at the cursor; at the cap the bell, with an empty pool the bell and POOL with EMPTY (R106, R113). -/
def insertKey (t : Fin 32) (c : Byte) (e : Session) (st : Story) (s : State) : State :=
  match insertChar s.memory st.chain e.cursor c with
  | .made m chain =>
    textEffects t e.story (e.cursor + 1) (fun top => topAfterInsert top e.cursor 1)
      (setText e.story st m chain s)
  | .atCap => bell t s
  | .poolEmpty => poolPressed .empty (bell t s)

/-- The character at an offset of a story's text. -/
def charAt (s : State) (st : Story) (k : Nat) : Option Byte := (textOf s st)[k]?

/-- OVERTYPE replaces the character at the cursor: there is one, and it is no paragraph mark (R106). -/
def replaces (s : State) (e : Session) (st : Story) : Bool :=
  e.mode = .overtype &&
    match charAt s st e.cursor with
    | none => false
    | some c => c ≠ markCode

/-- A text key (R106). -/
def editText (t : Fin 32) (c : Byte) (s : State) : State :=
  withEdit t s fun e st =>
    if replaces s e st then
      textEffects t e.story (e.cursor + 1) id
        { s with memory := replaceChar s.memory st.chain e.cursor c }
    else insertKey t c e st s

/-- The new paragraph key (R106). -/
def editParagraph (t : Fin 32) (s : State) : State :=
  withEdit t s fun e st => insertKey t markCode e st s

/-- Delete the character at an offset and leave the cursor there (R107). -/
def deleteKey (t : Fin 32) (e : Session) (k : Nat) (s : State) : State :=
  textEffects t e.story k (fun top => topAfterDelete top k 1) (deleteAt e.story k s)

/-- Delete back (R107). -/
def editDeleteBack (t : Fin 32) (s : State) : State :=
  withEdit t s fun e _ => if e.cursor = 0 then bell t s else deleteKey t e (e.cursor - 1) s

/-- Delete forward (R107). -/
def editDeleteForward (t : Fin 32) (s : State) : State :=
  withEdit t s fun e st =>
    if e.cursor < lengthOf s st then deleteKey t e e.cursor s else bell t s

/-- INSERT and OVERTYPE change places. -/
def EditMode.other : EditMode → EditMode
  | .insert => .overtype
  | .overtype => .insert

/-- The insert/overtype key (R108). -/
def editToggle (t : Fin 32) (s : State) : State :=
  withEdit t s fun _ _ => modSession t (fun e => { e with mode := e.mode.other }) s

/-- Move the cursor, keeping it in view (R104, R109). -/
def moveCursor (t : Fin 32) (k : Nat) (s : State) : State :=
  keepSessionTop t id (modSession t (fun e => { e with cursor := k }) s)

/-- Cursor left (R109). -/
def editLeft (t : Fin 32) (s : State) : State :=
  withEdit t s fun e _ => if e.cursor = 0 then bell t s else moveCursor t (e.cursor - 1) s

/-- Cursor right (R109). -/
def editRight (t : Fin 32) (s : State) : State :=
  withEdit t s fun e st =>
    if e.cursor = lengthOf s st then bell t s else moveCursor t (e.cursor + 1) s

/-- The offset a move to another display row comes to: the present column, or the row's last offset if that is smaller (R109). -/
def rowTarget (w : Nat) (rows : List DRow) (cursor i : Nat) : Nat :=
  min ((rowAt rows i).start + columnOf w rows cursor - 1) (rowLastOffset rows i)

/-- The keys 1Eh and 1Fh scroll the reference pane: a session with focus REFERENCE, or no session and an open reference pane (R105). -/
def scrollsRef (p : Panes) : Bool :=
  match p.session with
  | none => p.ref.isSome
  | some e => e.focus = .reference

/-- Move the reference pane to another display row, or give the bell (R111). -/
def scrollRef (t : Fin 32) (s : State) (target : List DRow → RefPane → Option Nat) : State :=
  match s.panes[t].ref with
  | none => bell t s
  | some r =>
    match storyOf s r.story with
    | none => bell t s
    | some st =>
      match target (rowsOf s refWidth st) r with
      | none => bell t s
      | some top => modPanes t (fun p => { p with ref := some ⟨r.story, top⟩ }) s

/-- The top offset after a scroll up; none where the pane shows the text's beginning (R111). -/
def scrollUpTop (rows : List DRow) (r : RefPane) : Option Nat :=
  if r.top = 0 then none else some (rowAt rows (rowIndex rows r.top - 1)).start

/-- The top offset after a scroll down; none where the last display row is already shown (R111). -/
def scrollDownTop (rows : List DRow) (r : RefPane) : Option Nat :=
  if rows.length ≤ rowIndex rows r.top + 22 then none
  else some (rowAt rows (rowIndex rows r.top + 1)).start

/-- Cursor up, or a scroll of the reference pane (R105, R109, R111). -/
def editUp (t : Fin 32) (s : State) : State :=
  if scrollsRef s.panes[t] then scrollRef t s scrollUpTop
  else withEdit t s fun e st =>
    let w := editWidth s.lines[t].layout
    let rows := rowsOf s w st
    let i := rowIndex rows e.cursor
    if i = 0 then bell t s else moveCursor t (rowTarget w rows e.cursor (i - 1)) s

/-- Cursor down, or a scroll of the reference pane (R105, R109, R111). -/
def editDown (t : Fin 32) (s : State) : State :=
  if scrollsRef s.panes[t] then scrollRef t s scrollDownTop
  else withEdit t s fun e st =>
    let w := editWidth s.lines[t].layout
    let rows := rowsOf s w st
    let i := rowIndex rows e.cursor
    if i + 1 = rows.length then bell t s else moveCursor t (rowTarget w rows e.cursor (i + 1)) s

/-- The pane switch key (R105, R110). -/
def editSwitch (t : Fin 32) (s : State) : State :=
  match s.panes[t].session with
  | none => bell t s
  | some e =>
    match e.focus, s.panes[t].ref with
    | .reference, _ => modSession t (fun e => { e with focus := .edit }) s
    | .edit, some _ => modSession t (fun e => { e with focus := .reference }) s
    | .edit, none => bell t s

end Sys2Proof.Machine
end

