-- ==== Sys2Proof/Machine/Screen.lean ====
section
/-! DEFINITION. The orders of the Screen Composer and its two timers (spec/05, R77, R78, R84, R87, R91 to R96). -/

namespace Sys2Proof.Machine

/-! ### PUT SCREEN TEXT, FILL BASE, SET STATUS (R77, R78, R84) -/

/-- A row with cells written from a column on, cut at column 80 (R77). -/
def writeCells (row : List Cell) (col : Nat) (cells : List Cell) : List Cell :=
  row.take (col - 1) ++ (cells.take (81 - col) ++ row.drop (col - 1 + cells.length))

/-- A number from a range lo to hi, or RANGE. -/
def between (lo hi v : Nat) : Option Nat := if lo ≤ v && v ≤ hi then some v else none

/-- The answer to PUT SCREEN TEXT (R77). A text of more than 80 characters is taken and cut at column 80 with CLAMPED, where Table 0-5 could be read as MALFORMED: the model's choice (log entry 45). -/
def ownPutScreenText (b : List Byte) (s : State) : Answer :=
  withText b 5 (u8 b 4) s fun text =>
    match inRange 32 (u8 b 0), between 1 23 (u8 b 1), between 1 80 (u8 b 2), Attr.ofCode (u8 b 3) with
    | some t, some row, some col, some a =>
      let cells := cellsOf a (text.map plainByte)
      (modScreen t (fun sc => { sc with base := sc.base.modify (row - 1) fun r => writeCells r col cells }) s,
        Reply.clampedIf (decide (81 - col < text.length) || text.any fun c => !isText c) [])
    | _, _, _, _ => refuse .range s

/-- PUT_SCREEN_TEXT (R77). -/
def execPutScreenText (tag : Byte) (body : List Byte) (s : State) : Host.Outcome State Fault Refusal :=
  .next (takeOrder 0x19#8 5 ownPutScreenText tag body s)

/-- The base layer with rows first to last filled with one cell (R78). -/
def fillRows (base : List (List Cell)) (first last : Nat) (c : Cell) : List (List Cell) :=
  base.mapIdx fun i r => if first ≤ i + 1 && i + 1 ≤ last then List.replicate 80 c else r

/-- The answer to FILL BASE. -/
def ownFillBase (b : List Byte) (s : State) : Answer :=
  let c := b.getD 3 0
  match inRange 32 (u8 b 0), between 1 23 (u8 b 1), between (u8 b 1) 23 (u8 b 2),
      Attr.ofCode (u8 b 4) with
  | some t, some first, some last, some a =>
    (modScreen t (fun sc => { sc with base := fillRows sc.base first last ⟨plainByte c, a⟩ }) s,
      Reply.clampedIf (!isText c) [])
  | _, _, _, _ => refuse .range s

/-- FILL_BASE (R78). -/
def execFillBase (tag : Byte) (body : List Byte) (s : State) : Host.Outcome State Fault Refusal :=
  .next (takeOrder 0x1A#8 5 ownFillBase tag body s)

/-- The answer to SET STATUS. -/
def ownSetStatus (b : List Byte) (s : State) : Answer :=
  withText b 2 (u8 b 1) s fun text =>
    withTerminal b 0 s fun t =>
      let x := cleanText 16 text
      (modScreen t (fun sc => { sc with status := x.1 }) s, Reply.clampedIf x.2 [])

/-- SET_STATUS (R84). -/
def execSetStatus (tag : Byte) (body : List Byte) (s : State) : Host.Outcome State Fault Refusal :=
  .next (takeOrder 0x1B#8 2 ownSetStatus tag body s)

/-! ### REPAINT (R91) -/

/-- The answer to REPAINT. -/
def ownRepaint (b : List Byte) (s : State) : Answer :=
  withTerminal b 0 s fun t =>
    if s.lines[t].attached then (repaint t s, Reply.bare .ok) else refuse .noSuch s

/-- REPAINT (R91). -/
def execRepaint (tag : Byte) (body : List Byte) (s : State) : Host.Outcome State Fault Refusal :=
  .next (takeOrder 0x1C#8 1 ownRepaint tag body s)

/-! ### SET WATCH (R92) -/

/-- A terminal is WATCHING. -/
def isWatching (s : State) (t : Fin 32) : Bool :=
  match s.screens[t].mode with
  | .watching _ => true
  | _ => false

/-- A terminal watches another. -/
def watches (s : State) (t target : Fin 32) : Bool := s.screens[t].mode = .watching target

/-- A terminal is the watch target of some terminal (R92 step 5). -/
def isWatched (s : State) (t : Fin 32) : Bool := (List.finRange 32).any fun w => watches s w t

/-- Change a terminal's mode and mark all rows, since what is shown changes (R88). -/
def setMode (t : Fin 32) (m : Mode) (s : State) : State :=
  modScreen t (fun sc => { sc with mode := m, marks := allRows }) s

/-- SET WATCH with a target, from its second check on. -/
def watchTarget (w target : Fin 32) (s : State) : Answer :=
  if target = w then refuse .range s
  else if s.lines[w].key ≠ 0 then refuse .denied s
  else if !s.lines[target].attached then refuse .noSuch s
  else if isWatching s target then refuse .range s
  else if isWatched s w then refuse .range s
  else (setMode w (.watching target) s, Reply.bare .ok)

/-- The answer to SET WATCH. -/
def ownSetWatch (b : List Byte) (s : State) : Answer :=
  withTerminal b 0 s fun w =>
    match optByte b 1 with
    | none => (if isWatching s w then setMode w .normal s else s, Reply.bare .ok)
    | some v =>
      match inRange 32 v with
      | none => refuse .range s
      | some target =>
        if !s.lines[w].attached then refuse .noSuch s else watchTarget w target s

/-- SET_WATCH (R92). -/
def execSetWatch (tag : Byte) (body : List Byte) (s : State) : Host.Outcome State Fault Refusal :=
  .next (takeOrder 0x1D#8 2 ownSetWatch tag body s)

/-! ### SET ROTATION (R94) -/

/-- The baskets that SET ROTATION announces; none where one lies outside 0 to 63. -/
def basketsOf : List Byte → Option (List (Fin 64))
  | [] => some []
  | c :: cs =>
    match inRange 64 c.toNat, basketsOf cs with
    | some b, some bs => some (b :: bs)
    | _, _ => none

/-- The position of the basket a terminal shows (R94); where it shows none, a count of 0 having ended the rotation, the position is sent as 0 (log entry 8). -/
def positionShown (s : State) (t : Fin 32) : Nat :=
  match s.screens[t].mode with
  | .rotating r => r.position
  | _ => 0

/-- A ROTATING terminal becomes NORMAL (R94 with a count of 0). -/
def endRotation (t : Fin 32) (s : State) : State :=
  match s.screens[t].mode with
  | .rotating _ => setMode t .normal s
  | _ => s

/-- A terminal becomes ROTATING: its panes end, the first basket is chosen as from before position 1, the dwell timer starts (R94). -/
def beginRotation (t : Fin 32) (bs : List (Fin 64)) (dwell : Nat) (skip : Bool) (s : State) :
    State :=
  let s := closePanes t s
  let r : Rotation := ⟨bs, dwell, skip, 0, s.now⟩
  setMode t (.rotating (r.showAt s (nextPosition s r))) s

/-- The answer to SET ROTATION. -/
def ownSetRotation (b : List Byte) (s : State) : Answer :=
  withTerminal b 0 s fun t =>
    if !s.lines[t].attached then refuse .noSuch s
    else
      let n := u8 b 4
      let dwell := clampTo 5 600 (u16 b 1)
      if 4 < n then refuse .malformed s
      else match textAt b 5 n with
        | none => refuse .malformed s
        | some raw =>
          match basketsOf raw with
          | none => refuse .range s
          | some bs =>
            let s' := if n = 0 then endRotation t s else beginRotation t bs dwell (flagAt b 3) s
            let closed := if n = 0 then 0 else (openPanes s t).1 + (openPanes s t).2
            (s', Reply.clampedIf (decide (dwell ≠ u16 b 1)) (e16 (positionShown s' t) ++ e16 closed))

/-- SET_ROTATION (R94). -/
def execSetRotation (tag : Byte) (body : List Byte) (s : State) : Host.Outcome State Fault Refusal :=
  .next (takeOrder 0x1E#8 5 ownSetRotation tag body s)

/-! ### Timers (R87, R96) -/

/-- A flash alert's 60 seconds have passed (R87). -/
def flashExpires (t : Fin 32) (s : State) : State :=
  match s.screens[t].flash with
  | none => s
  | some f =>
    modScreen t (fun sc => { sc with flash := none }) (advanceTo (f.since + Config.flashMs) s)

/-- FLASH_ALERT_EXPIRY (R87). -/
def execFlashAlertExpiry (t : Fin 32) (s : State) : Host.Outcome State Fault Refusal :=
  .next (settle (flashExpires t s))

/-- A dwell has passed: the next basket is chosen and the timer starts again (R96). -/
def dwellExpires (t : Fin 32) (s : State) : State :=
  match s.screens[t].mode with
  | .rotating r =>
    let s := advanceTo (r.dwellFrom + r.dwell * Config.second) s
    modScreen t (fun sc => { sc with mode := .rotating (r.showAt s (nextPosition s r)) }) s
  | _ => s

/-- ROTATION_DWELL_EXPIRY (R96). -/
def execRotationDwellExpiry (t : Fin 32) (s : State) : Host.Outcome State Fault Refusal :=
  .next (settle (dwellExpires t s))

end Sys2Proof.Machine
end

