-- ==== Sys2Proof/Machine/Terminal.lean ====
section
/-! DEFINITION. The Terminal Line Units and the Key Report Queue: assignment, reception, the key decoder, the keys, transmission (spec/04, R58 to R74). -/

namespace Sys2Proof.Machine

/-! ### Hand-up (R65) -/

/-- A hand-up is due: the decoder is taking no batch, characters wait, and they reach the trigger or the line is idle (R65). -/
def Line.handUpDue (l : Line) : Bool :=
  l.batch.isEmpty && !l.rx.isEmpty && (decide (l.trigger ≤ l.rx.length) || l.idle)

/-- The hand-up test: every waiting character passes to the decoder (R65). -/
def Line.handUp (l : Line) : Line := if l.handUpDue then { l with batch := l.rx, rx := [] } else l

/-! ### Reception (R58, R64, R66) -/

/-- A good character is offered to the receive FIFO: it joins the tail and the hand-up test is made, or it is lost with LINE-ERROR (R64, R65). -/
def offerChar (t : Fin 32) (code : Byte) (s : State) : State :=
  if s.lines[t].rx.length < Config.rxFifo then
    modLine t (fun l => Line.handUp { l with rx := l.rx ++ [code] }) s
  else raiseTerminal t TermEvents.addLineError s

/-- Line activity: the idle time runs anew (R65). -/
def lineActive (t : Fin 32) (s : State) : State := modLine t (fun l => { l with idle := false }) s

/-- A frame on a terminal line (R64). A frame of any kind is line activity (R65). -/
def receiveFrame (t : Fin 32) (r : RxFrame) (s : State) : State :=
  if s.lines[t].attached then
    let s := lineActive t s
    if !r.stop || !parityRight s.lines[t].format r then raiseTerminal t TermEvents.addLineError s
    else offerChar t (frameCode s.lines[t].format r) s
  else s

/-- TERMINAL_CHARACTER_RECEIVED (R64). -/
def execTerminalCharacterReceived (t : Fin 32) (r : RxFrame) (s : State) :
    Host.Outcome State Fault Refusal :=
  .next (settle (receiveFrame t r s))

/-- The idle time has run out (R65). -/
def idleExpires (t : Fin 32) (s : State) : State :=
  if s.lines[t].attached then modLine t (fun l => Line.handUp { l with idle := true }) s else s

/-- TERMINAL_IDLE_EXPIRY (R65). -/
def execTerminalIdleExpiry (t : Fin 32) (s : State) : Host.Outcome State Fault Refusal :=
  .next (settle (idleExpires t s))

/-- A break: the receive FIFO is emptied, the prefix forgotten, ATTENTION raised, the terminal repainted (R66). -/
def breakSeen (t : Fin 32) (s : State) : State :=
  if s.lines[t].attached then
    repaint t (raiseTerminal t TermEvents.addAttention
      (modLine t (fun l => { l with rx := [], pfx := false }) s))
  else s

/-- TERMINAL_BREAK (R66). -/
def execTerminalBreak (t : Fin 32) (s : State) : Host.Outcome State Fault Refusal :=
  .next (settle (breakSeen t s))

/-! ### Keys (R67 to R69, R44) -/

/-- A key (Table 4-3). -/
inductive Key where
  | text (c : Byte)
  | deleteBack | deleteForward | paragraph | left | right | up | down | switch | toggle
  | clearMessage | repaint
  | function (k : Fin 16)
  deriving DecidableEq, Repr

/-- The function key that follows a prefix: 30h to 39h or 41h to 46h (R67). -/
def functionOf (c : Byte) : Option (Fin 16) :=
  if 0x30 ≤ c.toNat && c.toNat ≤ 0x39 then inRange 16 (c.toNat - 0x30)
  else if 0x41 ≤ c.toNat && c.toNat ≤ 0x46 then inRange 16 (c.toNat - 0x41 + 10)
  else none

/-- The code that follows the prefix for a function key. -/
def functionCode (k : Fin 16) : Byte :=
  if k.val < 10 then BitVec.ofNat 8 (0x30 + k) else BitVec.ofNat 8 (0x41 + (k - 10))

/-- The key of a code that forms one by itself (Table 4-3). -/
def plainKey (c : Byte) : Option Key :=
  if isText c then some (.text c)
  else if c = 0x08#8 then some .deleteBack
  else if c = 0x7F#8 then some .deleteForward
  else if c = 0x0D#8 then some .paragraph
  else if c = 0x1C#8 then some .left
  else if c = 0x1D#8 then some .right
  else if c = 0x1E#8 then some .up
  else if c = 0x1F#8 then some .down
  else if c = 0x09#8 then some .switch
  else if c = 0x0F#8 then some .toggle
  else if c = 0x0B#8 then some .clearMessage
  else if c = 0x18#8 then some .repaint
  else none

/-- The function-key prefix. -/
def prefixCode : Byte := 0x1A#8

/-- A text or edit key: the Edit Session Unit in NORMAL, the bell in the other modes (R68). -/
def editKey (t : Fin 32) (act : State → State) (s : State) : State :=
  if s.screens[t].mode = .normal then act s else bell t s

/-- The clear-message key: a full slot is emptied with MESSAGE-CLEARED (R44). -/
def clearSlot (t : Fin 32) (s : State) : State :=
  if s.slots[t].isSome then raiseTerminal t TermEvents.addMessageCleared (setSlot t none s) else s

/-- The report of a function key (Table 4-4). -/
def keyReport (t : Fin 32) (k : Fin 16) (s : State) : KeyReport :=
  match s.panes[t].session with
  | none => ⟨t, k, 0, 0, stamp s⟩
  | some e => ⟨t, k, e.story, e.cursor, stamp s⟩

/-- A function key refused: the bell and KEYS-REFUSED (R69). -/
def refuseKey (t : Fin 32) (s : State) : State := raiseTerminal t TermEvents.addKeysRefused (bell t s)

/-- The terminal is ROTATING. -/
def isRotating (s : State) (t : Fin 32) : Bool :=
  match s.screens[t].mode with
  | .rotating _ => true
  | _ => false

/-- A function key (R68, R69): the bell in ROTATING; refused in HOST LOST and with 64 reports; otherwise a report is queued and KEYS raised. -/
def strikeFunction (t : Fin 32) (k : Fin 16) (s : State) : State :=
  if isRotating s t then bell t s
  else if s.link.hostLost then refuseKey t s
  else if Config.keysMax ≤ s.keys.length then refuseKey t s
  else raiseSource srcKeys { s with keys := s.keys ++ [keyReport t k s] }

/-- A key formed is handed to its block (R68). -/
def handKey (t : Fin 32) (k : Key) (s : State) : State :=
  match k with
  | .text c => editKey t (editText t c) s
  | .deleteBack => editKey t (editDeleteBack t) s
  | .deleteForward => editKey t (editDeleteForward t) s
  | .paragraph => editKey t (editParagraph t) s
  | .left => editKey t (editLeft t) s
  | .right => editKey t (editRight t) s
  | .up => editKey t (editUp t) s
  | .down => editKey t (editDown t) s
  | .switch => editKey t (editSwitch t) s
  | .toggle => editKey t (editToggle t) s
  | .clearMessage => clearSlot t s
  | .repaint => repaint t s
  | .function k => strikeFunction t k s

/-- Set or clear prefix pending. -/
def setPrefix (t : Fin 32) (p : Bool) (s : State) : State := modLine t (fun l => { l with pfx := p }) s

/-- The decoder takes one character (R67). -/
def decodeChar (t : Fin 32) (c : Byte) (s : State) : State :=
  if s.lines[t].pfx then
    match functionOf c with
    | some k => handKey t (.function k) (setPrefix t false s)
    | none => setPrefix t false s
  else if c = prefixCode then setPrefix t true s
  else match plainKey c with
    | some k => handKey t k s
    | none => s

/-- The decoder has taken a character of its batch; with the last of them the hand-up test is made (R65). -/
def batchTaken (t : Fin 32) (s : State) : State :=
  modLine t (fun l => Line.handUp { l with batch := l.batch.tail }) s

/-- Nothing waits before a character that comes on the line: no batch and an empty FIFO (R65). -/
def Line.nothingWaits (l : Line) : Bool := l.batch.isEmpty && l.rx.isEmpty

/-- A good character arrives: it is line activity and is offered to the FIFO (R64, R65). -/
def arrive (t : Fin 32) (c : Byte) (s : State) : State := offerChar t c (lineActive t s)

/-- A key command's character: the decoder takes it from the head of its batch, or at once where nothing waits before it; otherwise it arrives behind what waits (log entry 3). -/
def takeCode (t : Fin 32) (c : Byte) (s : State) : State :=
  let l := s.lines[t]
  if !l.attached then s
  else if l.batch.head? = some c then batchTaken t (decodeChar t c s)
  else if l.nothingWaits then decodeChar t c s
  else arrive t c s

/-- A function key's characters: with the prefix pending its second; otherwise both, which the decoder takes together from the head of its batch, or at once where nothing waits, or which arrive together behind what waits (R67; log entries 3, 33). -/
def takeFunction (t : Fin 32) (k : Fin 16) (s : State) : State :=
  let l := s.lines[t]
  if !l.attached then s
  else if l.pfx then takeCode t (functionCode k) s
  else if l.batch.take 2 = [prefixCode, functionCode k] || l.nothingWaits then
    takeCode t (functionCode k) (takeCode t prefixCode s)
  else arrive t (functionCode k) (arrive t prefixCode s)

/-- TEXT_KEY (R106). -/
def execTextKey (t : Fin 32) (code : Byte) (s : State) : Host.Outcome State Fault Refusal :=
  .next (settle (takeCode t code s))

/-- NEW_PARAGRAPH (R106). -/
def execNewParagraph (t : Fin 32) (s : State) : Host.Outcome State Fault Refusal :=
  .next (settle (takeCode t 0x0D#8 s))

/-- DELETE_BACK (R107). -/
def execDeleteBack (t : Fin 32) (s : State) : Host.Outcome State Fault Refusal :=
  .next (settle (takeCode t 0x08#8 s))

/-- DELETE_FORWARD (R107). -/
def execDeleteForward (t : Fin 32) (s : State) : Host.Outcome State Fault Refusal :=
  .next (settle (takeCode t 0x7F#8 s))

/-- INSERT_OVERTYPE_TOGGLE (R108). -/
def execInsertOvertypeToggle (t : Fin 32) (s : State) : Host.Outcome State Fault Refusal :=
  .next (settle (takeCode t 0x0F#8 s))

/-- CURSOR_LEFT (R109). -/
def execCursorLeft (t : Fin 32) (s : State) : Host.Outcome State Fault Refusal :=
  .next (settle (takeCode t 0x1C#8 s))

/-- CURSOR_RIGHT (R109). -/
def execCursorRight (t : Fin 32) (s : State) : Host.Outcome State Fault Refusal :=
  .next (settle (takeCode t 0x1D#8 s))

/-- CURSOR_UP (R109, R111). -/
def execCursorUp (t : Fin 32) (s : State) : Host.Outcome State Fault Refusal :=
  .next (settle (takeCode t 0x1E#8 s))

/-- CURSOR_DOWN (R109, R111). -/
def execCursorDown (t : Fin 32) (s : State) : Host.Outcome State Fault Refusal :=
  .next (settle (takeCode t 0x1F#8 s))

/-- PANE_SWITCH (R110). -/
def execPaneSwitch (t : Fin 32) (s : State) : Host.Outcome State Fault Refusal :=
  .next (settle (takeCode t 0x09#8 s))

/-- CLEAR_MESSAGE (R44). -/
def execClearMessage (t : Fin 32) (s : State) : Host.Outcome State Fault Refusal :=
  .next (settle (takeCode t 0x0B#8 s))

/-- REPAINT_KEY (R68, R91). -/
def execRepaintKey (t : Fin 32) (s : State) : Host.Outcome State Fault Refusal :=
  .next (settle (takeCode t 0x18#8 s))

/-- FUNCTION_KEY_PREFIX (R67). -/
def execFunctionKeyPrefix (t : Fin 32) (s : State) : Host.Outcome State Fault Refusal :=
  .next (settle (takeCode t prefixCode s))

/-- FUNCTION_KEY (R67, R69): with the prefix pending its second character, otherwise both (log entry 33). -/
def execFunctionKey (t : Fin 32) (k : Fin 16) (s : State) : Host.Outcome State Fault Refusal :=
  .next (settle (takeFunction t k s))

/-- The code is one the decoder ignores as it stands: after a prefix any that names no function key, otherwise any that Table 4-3 does not list (R67). -/
def isIgnored (pfx : Bool) (c : Byte) : Bool :=
  if pfx then (functionOf c).isNone else (plainKey c).isNone && c ≠ prefixCode

/-- IGNORED_CODE (R67): a code that would form a key or set the prefix is no ignored code (log entry 1). -/
def execIgnoredCode (t : Fin 32) (code : Byte) (s : State) : Host.Outcome State Fault Refusal :=
  .next (settle (if isIgnored s.lines[t].pfx code then takeCode t code s else s))

/-! ### Transmission (R72) -/

/-- The byte being sent has been sent: it leaves the FIFO, and a FIFO that then holds 8 or fewer asks the emitter for more (R72). -/
def Line.byteSent (l : Line) : Line :=
  match l.sending with
  | .rest => l
  | .busy _ inFifo => { l with sending := .rest, tx := if inFifo then l.tx.tail else l.tx }

/-- A terminal byte has been sent (R72). -/
def terminalByteSent (t : Fin 32) (s : State) : State :=
  match s.lines[t].sending with
  | .rest => s
  | .busy _ _ =>
    let s := modLine t Line.byteSent s
    if s.lines[t].tx.length ≤ Config.txLow then
      modScreen t (fun sc => { sc with waiting := false }) s
    else s

/-- TERMINAL_BYTE_SENT (R72). -/
def execTerminalByteSent (t : Fin 32) (s : State) : Host.Outcome State Fault Refusal :=
  .next (settle (terminalByteSent t s))

/-- Empty a line's FIFOs: a byte being sent is finished and stands in no FIFO, a prefix is forgotten (R61, R62). -/
def Line.emptied (l : Line) : Line :=
  { l with
    rx := []
    tx := []
    pfx := false
    sending := match l.sending with
      | .rest => .rest
      | .busy b _ => .busy b false }

/-- Empty a line's FIFOs and let its emitter place bytes again. -/
def emptyFifos (t : Fin 32) (s : State) : State :=
  modScreen t (fun sc => { sc with waiting := false }) (modLine t Line.emptied s)

/-! ### ASSIGN TERMINAL (R60, R61) -/

/-- The assignment an order gives, after its clamps. -/
structure Assignment where
  desk : Fin 16
  key : Fin 16
  layout : Layout
  format : LineFormat
  trigger : Nat
  clamped : Bool
  deriving DecidableEq, Repr

/-- The assignment in a body; none where an identity or the layout is out of range (R60). -/
def assignmentOf (b : List Byte) : Option Assignment :=
  match inRange 16 (u8 b 1), inRange 16 (u8 b 2), Layout.ofCode (u8 b 3) with
  | some d, some k, some l =>
    let f := lineFormatAt b 4
    let given := 9 < b.length
    let trig := if given then clampTrigger (u8 b 9) else 1
    some ⟨d, k, l, f.1, trig, f.2 || (given && decide (trig ≠ u8 b 9))⟩
  | _, _, _ => none

/-- Attach a DETACHED terminal (R60). -/
def attach (t : Fin 32) (a : Assignment) (s : State) : State :=
  let s := emptyFifos t s
  let s := modLine t (fun l =>
    { l with
      attached := true, desk := a.desk, key := a.key, layout := a.layout, format := a.format
      trigger := a.trigger, batch := [], idle := false }) s
  repaint t (setSlot t none (modScreen t (fun sc => { sc with mode := .normal }) s))

/-- Step 1 of a reassignment: the line format and the key trigger (R61). -/
def reassignLine (t : Fin 32) (a : Assignment) (s : State) : State :=
  let s :=
    if s.lines[t].format = a.format then s
    else repaint t (emptyFifos t (modLine t (fun l => { l with format := a.format }) s))
  if s.lines[t].trigger = a.trigger then s
  else modLine t (fun l => Line.handUp { l with trigger := a.trigger }) s

/-- Step 2 of a reassignment: the layout (R61). -/
def reassignLayout (t : Fin 32) (a : Assignment) (s : State) : State :=
  if s.lines[t].layout = a.layout then s
  else modLine t (fun l => { l with layout := a.layout }) (closePanes t s)

/-- Step 3 of a reassignment: desk and key, and the pane re-check (R61). -/
def reassignAuthority (t : Fin 32) (a : Assignment) (s : State) : State :=
  if s.lines[t].desk = a.desk && s.lines[t].key = a.key then s
  else recheck none t (modLine t (fun l => { l with desk := a.desk, key := a.key }) s)

/-- Step 4 of a reassignment: a watcher whose new key is not 0 stops watching (R61). -/
def reassignWatch (t : Fin 32) (s : State) : State :=
  if isWatching s t && s.lines[t].key ≠ 0 then setMode t .normal s else s

/-- A reassignment (R61). -/
def reassign (t : Fin 32) (a : Assignment) (s : State) : State :=
  reassignWatch t (reassignAuthority t a (reassignLayout t a (reassignLine t a s)))

/-- The answer to ASSIGN TERMINAL. -/
def ownAssignTerminal (b : List Byte) (s : State) : Answer :=
  match inRange 32 (u8 b 0), assignmentOf b with
  | some t, some a =>
    if s.lines[t].attached then
      let s' := reassign t a s
      (s', Reply.clampedIf a.clamped
        (eClosed s s' ++ eFlag (decide (s.lines[t].format ≠ a.format))))
    else (attach t a s, Reply.clampedIf a.clamped [])
  | _, _ => refuse .range s

/-- ASSIGN_TERMINAL (R60, R61). -/
def execAssignTerminal (tag : Byte) (body : List Byte) (s : State) : Host.Outcome State Fault Refusal :=
  .next (takeOrder 0x15#8 9 ownAssignTerminal tag body s)

/-! ### DETACH TERMINAL, READ TERMINAL (R62, R63) -/

/-- Every terminal that watches a terminal ends its watch and is repainted (R62, R93). -/
def endWatchers (target : Fin 32) (s : State) : State :=
  forTerminals (fun w s =>
    if watches s w target then repaint w (setMode w .normal s) else s) s

/-- A detached terminal's screen: NORMAL, nothing shown, no bell (R62), the sent image UNKNOWN (R75). That no row is in hand or marked, that no row is the last taken, and that the composed image stays as last composed, is the model's choice (log entry 46). -/
def Screen.detached (sc : Screen) : Screen :=
  { sc with
    mode := .normal, flash := none, bell := false, hand := none, last := none, marks := []
    sent := none }

/-- Detach a terminal (R62). -/
def detach (t : Fin 32) (s : State) : State :=
  let s := endWatchers t (closePanes t s)
  let s := setSlot t none (modScreen t Screen.detached s)
  modLine t (fun l => { l with attached := false, batch := [], idle := false }) (emptyFifos t s)

/-- The answer to DETACH TERMINAL. -/
def ownDetachTerminal (b : List Byte) (s : State) : Answer :=
  withTerminal b 0 s fun t =>
    if s.lines[t].attached then (detach t s, Reply.bare .ok) else refuse .noSuch s

/-- DETACH_TERMINAL (R62). -/
def execDetachTerminal (tag : Byte) (body : List Byte) (s : State) : Host.Outcome State Fault Refusal :=
  .next (takeOrder 0x16#8 1 ownDetachTerminal tag body s)

/-- The watch target of a mode, FFh for none. -/
def Mode.targetCode : Mode → Nat
  | .watching t => t
  | _ => 0xFF

/-- The story of an edit session or 0. -/
def sessionId (p : Panes) : Nat :=
  match p.session with
  | none => 0
  | some e => e.story

/-- The story of a reference pane or 0. -/
def refId (p : Panes) : Nat :=
  match p.ref with
  | none => 0
  | some r => r.story

/-- The answer to READ TERMINAL; a DETACHED terminal is answered with the whole record (log entry 8). -/
def ownReadTerminal (b : List Byte) (s : State) : Answer :=
  withTerminal b 0 s fun t =>
    let l := s.lines[t]
    okWith (eFlag l.attached ++ e8 l.desk ++ e8 l.key ++ e8 l.layout.code ++ eFormat l.format ++
      e8 l.trigger ++ e8 s.screens[t].mode.code ++ e8 s.screens[t].mode.targetCode ++
      e16 (sessionId s.panes[t]) ++ e16 (refId s.panes[t]) ++ eFlag s.slots[t].isSome ++
      e16 l.rx.length ++ e16 l.tx.length ++ eFlag l.pfx) s

/-- READ_TERMINAL (R63). -/
def execReadTerminal (tag : Byte) (body : List Byte) (s : State) : Host.Outcome State Fault Refusal :=
  .next (takeOrder 0x17#8 1 ownReadTerminal tag body s)

/-! ### TAKE KEYS (R70, R71) -/

/-- Take reports off the head of the queue; a queue left empty withdraws KEYS (R70, R71). -/
def removeKeys (n : Nat) (s : State) : State :=
  let s := { s with keys := s.keys.drop n }
  if s.keys = [] then withdrawKeys s else s

/-- The answer to TAKE KEYS; the two counts of its reply take the 2 bytes of Table 11-2 (log entry 8). -/
def ownTakeKeys (b : List Byte) (s : State) : Answer :=
  let n := clampTo 1 16 (u8 b 0)
  let got := s.keys.take n
  let s' := if flagAt b 1 then removeKeys n s else s
  (s', Reply.clampedIf (decide (n ≠ u8 b 0))
    (e16 got.length ++ e16 s'.keys.length ++ got.flatMap eReport))

/-- TAKE_KEYS (R71). -/
def execTakeKeys (tag : Byte) (body : List Byte) (s : State) : Host.Outcome State Fault Refusal :=
  .next (takeOrder 0x18#8 2 ownTakeKeys tag body s)

end Sys2Proof.Machine
end

