-- ==== Sys2Proof/Machine/Wires.lean ====
section
/-! DEFINITION. The Wire Line Units and the Selection Table: orders, reception, intake, filing, the silence limit (spec/09, R163 to R179). -/

namespace Sys2Proof.Machine

/-! ### Filing (R174, R175, R178) -/

/-- Set a line's intake state; on entering HEADER or TEXT the silence is measured from now (R176). -/
def setIntake (w : Fin 4) (i : Intake) (s : State) : State :=
  modWire w (fun l => { l with intake := i, silenceFrom := s.now }) s

/-- The flash alert of a FLASH story: each attached terminal whose desk has TAKE on its basket (R178). -/
def flashAlerts (st : Story) (s : State) : State :=
  if st.priority = .flash then
    forTerminals (fun t s =>
      if s.lines[t].attached && (rightsOver s t st.basket).take then flashAlert st.slug t s else s) s
  else s

/-- File a line's current story, complete or CUT, and enter a state (R174, R175). -/
def fileStory (w : Fin 4) (id : Nat) (cut : Bool) (next : Intake) (s : State) : State :=
  let s := if cut then modStory id (fun st => { st with cut := true }) s else s
  let s := release id s
  let s := raiseWire w (fun e => if cut then e.addFiled.addCut else e.addFiled) s
  let s := autoOffer id s
  let s := match storyOf s id with
    | none => s
    | some st => flashAlerts st s
  setIntake w next s

/-! ### Storing text (R172, R173) -/

/-- A store's effects: one text change, and the reference panes follow (R172, R114). -/
def stored (id : Nat) (st : Story) (m : Memory) (chain : List Nat) (s : State) : State :=
  let point := lengthOf s st
  keepRefTops id (fun top => topAfterInsert top point 1)
    (modStory id Story.textChanged (setText id st m chain s))

/-- A store that the reserve or the pool refuses: POOL with LOW, the story filed CUT, SKIP (R173 step 2). -/
def storeLow (w : Fin 4) (id : Nat) (s : State) : State := fileStory w id true .skip (poolPressed .low s)

/-- Store a character at the end of the current story (R173). -/
def storeChar (w : Fin 4) (id : Nat) (c : Byte) (s : State) : State :=
  match storyOf s id with
  | none => s
  | some st =>
    let k := lengthOf s st
    if atCap s.memory st.chain k then fileStory w id true .skip s
    else if needsBlock s.memory st.chain k && decide (Memory.freeCount s.memory ≤ s.reserve) then
      storeLow w id s
    else match insertChar s.memory st.chain k c with
      | .made m chain => stored id st m chain s
      | .atCap => fileStory w id true .skip s
      | .poolEmpty => storeLow w id s

/-- GARBLED is set on the current story (R172). -/
def garble (id : Nat) (s : State) : State := modStory id (fun st => { st with garbled := true }) s

/-- The codes SOH, ETX. -/
def sohCode : Byte := 0x01#8
def etxCode : Byte := 0x03#8

/-- A damaged character in TEXT: "?" is stored, GARBLED set, CHARACTER raised (R172). -/
def storeDamaged (w : Fin 4) (id : Nat) (s : State) : State :=
  storeChar w id 0x3F#8 (garble id (raiseWire w WireSummary.addCharacter s))

/-- A good character in TEXT (R172). -/
def takeText (w : Fin 4) (id : Nat) (c : Byte) (s : State) : State :=
  if isText c || c = 0x0D#8 then storeChar w id c s
  else if c = etxCode then fileStory w id false .hunt s
  else if c = sohCode then fileStory w id true (.header []) s
  else s

/-! ### Headings (R168 to R171) -/

/-- An upper-case letter. -/
def isUpper (c : Byte) : Bool := 0x41 ≤ c.toNat && c.toNat ≤ 0x5A

/-- A digit. -/
def isDigit (c : Byte) : Bool := 0x30 ≤ c.toNat && c.toNat ≤ 0x39

/-- The priority of position 5 (Table 9-2). -/
def wirePriority (c : Byte) : Option Priority :=
  if c = 0x46#8 then some .flash
  else if c = 0x55#8 then some .urgent
  else if c = 0x52#8 then some .routine
  else none

/-- A character is right for its position in the heading; n characters are in hand (R168). -/
def headingFits (n : Nat) (c : Byte) : Bool :=
  match n with
  | 0 => isUpper c
  | 1 => isDigit c
  | 2 => isDigit c
  | 3 => (wirePriority c).isSome
  | 4 => c = 0x45#8 || c = 0x20#8
  | _ => isText c

/-- A pattern position matches a character: "*" matches any (R169). -/
def patternFits (p c : Byte) : Bool := p = 0x2A#8 || p = c

/-- An entry matches a selection code (R169). -/
def SelEntry.fits (e : SelEntry) (code : List Byte) : Bool :=
  patternFits e.p0 (code.getD 0 0) && patternFits e.p1 (code.getD 1 0) &&
    patternFits e.p2 (code.getD 2 0)

/-- The deciding entry for a code: the lowest-numbered entry in use that matches (R169). -/
def decidingEntry (s : State) (code : List Byte) : Option SelEntry :=
  (s.selection.toList.filterMap id).find? fun e => e.fits code

/-- The story a heading creates (R171). -/
def wireStory (w : Fin 4) (got : List Byte) (e : SelEntry) (s : State) : Story :=
  newStory s (got.drop 5) e.basket ((wirePriority (got.getD 3 0)).getD .routine) e.key
    (got.getD 4 0 = 0x45#8) (.filing w) (some ⟨w, got.take 3⟩)

/-- A heading is complete: the lookup and its outcome (R171). -/
def headingDone (w : Fin 4) (got : List Byte) (s : State) : State :=
  match decidingEntry s (got.take 3) with
  | none => setIntake w .skip s
  | some e =>
    match e.action with
    | .reject => setIntake w .skip s
    | .take =>
      match freeStory? s with
      | none => raiseWire w WireSummary.addDropped (setIntake w .skip s)
      | some id => setIntake w (.text id) (createStory id (wireStory w got e s) s)

/-- A good character in HEADER (R168). An SOH empties the header in hand; the line stays in HEADER, so its silence is not measured anew (R176). -/
def takeHeading (w : Fin 4) (got : List Byte) (c : Byte) (s : State) : State :=
  if c = sohCode then modWire w (fun l => { l with intake := .header [] }) s
  else if c = 0x0D#8 && 6 ≤ got.length then headingDone w got s
  else if headingFits got.length c then
    modWire w (fun l => { l with intake := .header (if got.length < 21 then got ++ [c] else got) }) s
  else raiseWire w WireSummary.addHeader (setIntake w .skip s)

/-! ### Intake (R166 to R172) -/

/-- Intake acts on a character (R167, R168, R172). -/
def intakeChar (w : Fin 4) (c : WireChar) (s : State) : State :=
  match s.wires[w].intake with
  | .off => s
  | .hunt => if c.code = sohCode && !c.damaged then setIntake w (.header []) s else s
  | .skip => if c.code = sohCode && !c.damaged then setIntake w (.header []) s else s
  | .header got =>
    if c.damaged then raiseWire w WireSummary.addCharacter (setIntake w .skip s)
    else takeHeading w got c.code s
  | .text id => if c.damaged then storeDamaged w id s else takeText w id c.code s

/-- Intake acts on a loss mark (R167, R168, R172). -/
def intakeLoss (w : Fin 4) (s : State) : State :=
  match s.wires[w].intake with
  | .header _ => setIntake w .skip s
  | .text id => garble id s
  | _ => s

/-- Intake acts on a break (R167, R168, R172). -/
def intakeBreak (w : Fin 4) (s : State) : State :=
  match s.wires[w].intake with
  | .off => s
  | .hunt => s
  | .header _ => setIntake w .hunt s
  | .skip => setIntake w .hunt s
  | .text id => fileStory w id true .hunt s

/-- Intake takes the character at the head of the FIFO: the character, then its loss mark, then its break mark (R166). -/
def takeIntake (w : Fin 4) (s : State) : State :=
  match s.wires[w].fifo with
  | [] => s
  | c :: cs =>
    let s := intakeChar w c (modWire w (fun l => { l with fifo := cs }) s)
    let s := if c.loss then intakeLoss w s else s
    if c.brk then intakeBreak w s else s

/-- WIRE_INTAKE_CHARACTER (R166). -/
def execWireIntakeCharacter (w : Fin 4) (s : State) : Host.Outcome State Fault Refusal :=
  .next (settle (takeIntake w s))

/-! ### Reception (R166) -/

/-- Change the tail of a FIFO. -/
def markTail (f : WireChar → WireChar) (fifo : List WireChar) : List WireChar :=
  fifo.modify (fifo.length - 1) f

/-- A character is lost to a full FIFO: a loss mark on the tail, and OVERRUN (R166). -/
def loseChar (w : Fin 4) (s : State) : State :=
  raiseWire w WireSummary.addOverrun
    (modWire w (fun l =>
      { l with fifo := markTail (fun c => { c with loss := true }) l.fifo }) s)

/-- A frame on a wire line (R166). -/
def receiveWire (w : Fin 4) (r : RxFrame) (s : State) : State :=
  if s.wires[w].intake = .off then s
  else
    let s := modWire w (fun l => { l with silenceFrom := s.now }) s
    let l := s.wires[w]
    let damaged := !r.stop || !parityRight l.format r
    if l.fifo.length < Config.rxFifo then
      modWire w (fun l =>
        { l with fifo := l.fifo ++ [⟨frameCode l.format r, damaged, false, false⟩] }) s
    else loseChar w s

/-- WIRE_CHARACTER_RECEIVED (R166). -/
def execWireCharacterReceived (w : Fin 4) (r : RxFrame) (s : State) :
    Host.Outcome State Fault Refusal :=
  .next (settle (receiveWire w r s))

/-- A break on a wire line: a break mark on the tail, or taken by intake at once (R166). -/
def wireBreak (w : Fin 4) (s : State) : State :=
  if s.wires[w].fifo = [] then intakeBreak w s
  else if s.wires[w].intake = .off then s
  else modWire w (fun l => { l with fifo := markTail (fun c => { c with brk := true }) l.fifo }) s

/-- WIRE_BREAK (R166). -/
def execWireBreak (w : Fin 4) (s : State) : Host.Outcome State Fault Refusal :=
  .next (settle (wireBreak w s))

/-! ### Silence (R176) -/

/-- The silence timer's conditions hold: HEADER or TEXT, and the FIFO empty (R176). -/
def Wire.silenceRuns (l : Wire) : Bool :=
  l.fifo.isEmpty &&
    match l.intake with
    | .header _ => true
    | .text _ => true
    | _ => false

/-- The silence timer expires (R176). -/
def silenceExpires (w : Fin 4) (s : State) : State :=
  if s.wires[w].silenceRuns then
    let s := advanceTo (s.wires[w].silenceFrom + Config.silenceMs) s
    match s.wires[w].intake with
    | .text id => fileStory w id true .hunt s
    | _ => setIntake w .hunt s
  else s

/-- WIRE_SILENCE_EXPIRY (R176). -/
def execWireSilenceExpiry (w : Fin 4) (s : State) : Host.Outcome State Fault Refusal :=
  .next (settle (silenceExpires w s))

/-! ### SET WIRE LINE, READ WIRE LINE (R164, R165) -/

/-- A line is enabled exactly when it is not OFF (R163). -/
def Wire.enabled (l : Wire) : Bool := l.intake ≠ .off

/-- The state an enabled flag leaves: HUNT or OFF (R164 step 4). -/
def enabledIntake (on : Bool) : Intake := if on then .hunt else .off

/-- A change of a wire line's flag or format (R164). -/
def changeWire (w : Fin 4) (on : Bool) (f : LineFormat) (s : State) : State :=
  let s := match s.wires[w].intake with
    | .text id => fileStory w id true (enabledIntake on) s
    | _ => s
  modWire w (fun l => { l with fifo := [], format := f, intake := enabledIntake on }) s

/-- The answer to SET WIRE LINE. -/
def ownSetWireLine (b : List Byte) (s : State) : Answer :=
  match inRange 4 (u8 b 0) with
  | none => refuse .range s
  | some w =>
    let l := s.wires[w]
    let on := flagAt b 1
    let f := lineFormatAt b 2
    (if l.enabled = on && l.format = f.1 then s else changeWire w on f.1 s,
      Reply.clampedIf f.2 (eFlag l.enabled ++ eFormat l.format ++ e8 l.intake.code))

/-- SET_WIRE_LINE (R164). -/
def execSetWireLine (tag : Byte) (body : List Byte) (s : State) : Host.Outcome State Fault Refusal :=
  .next (takeOrder 0x2E#8 7 ownSetWireLine tag body s)

/-- The current story of a line, 0 for none. -/
def Wire.currentStory (l : Wire) : Nat :=
  match l.intake with
  | .text id => id
  | _ => 0

/-- The answer to READ WIRE LINE; with no current story its identifier and its length are sent as 0000h, and the error set is sent as the 1-byte sum that Table 11-8 gives for the notice (log entry 8). -/
def ownReadWireLine (b : List Byte) (s : State) : Answer :=
  match inRange 4 (u8 b 0) with
  | none => refuse .range s
  | some w =>
    let l := s.wires[w]
    let n := s.notices.wire[w]
    okWith (eFlag l.enabled ++ eFormat l.format ++ e8 l.intake.code ++ e16 l.currentStory ++
      e16 (lengthNow s l.currentStory) ++ e16 l.fifo.length ++ e8 n.code ++ e16 n.filed ++
      e16 n.dropped ++ e16 s.reserve) s

/-- READ_WIRE_LINE (R165). -/
def execReadWireLine (tag : Byte) (body : List Byte) (s : State) : Host.Outcome State Fault Refusal :=
  .next (takeOrder 0x2F#8 1 ownReadWireLine tag body s)

/-! ### SET SELECTION, READ SELECTION (R170) -/

/-- An entry of the Selection Table as replies give it; zeros where unused (R170; log entry 8). -/
def eSelection : Option SelEntry → List Byte
  | none => List.replicate 7 0
  | some e => eFlag true ++ [e.p0, e.p1, e.p2] ++ e8 e.action.code ++ e8 e.basket ++ e8 e.key

/-- A pattern of three positions is as R169 allows. -/
def patternOk (p0 p1 p2 : Byte) : Bool :=
  (p0 = 0x2A#8 || isUpper p0) && (p1 = 0x2A#8 || isDigit p1) && (p2 = 0x2A#8 || isDigit p2)

/-- The contents SET SELECTION gives; none where they are out of range (R170). -/
def selectionOf (b : List Byte) : Option (Option SelEntry) :=
  if flagAt b 1 then
    match SelAction.ofCode (u8 b 5), inRange 64 (u8 b 6), inRange 16 (u8 b 7) with
    | some a, some bk, some k =>
      if patternOk (b.getD 2 0) (b.getD 3 0) (b.getD 4 0) then
        some (some ⟨b.getD 2 0, b.getD 3 0, b.getD 4 0, a, bk, k⟩)
      else none
    | _, _, _ => none
  else some none

/-- The answer to SET SELECTION. -/
def ownSetSelection (b : List Byte) (s : State) : Answer :=
  match inRange 32 (u8 b 0), selectionOf b with
  | some i, some e =>
    ({ s with selection := s.selection.set i e }, ⟨.ok, eSelection s.selection[i]⟩)
  | _, _ => refuse .range s

/-- SET_SELECTION (R170). -/
def execSetSelection (tag : Byte) (body : List Byte) (s : State) : Host.Outcome State Fault Refusal :=
  .next (takeOrder 0x30#8 8 ownSetSelection tag body s)

/-- The answer to READ SELECTION. -/
def ownReadSelection (_ : List Byte) (s : State) : Answer :=
  okWith (s.selection.toList.flatMap eSelection) s

/-- READ_SELECTION (R170). -/
def execReadSelection (tag : Byte) (body : List Byte) (s : State) : Host.Outcome State Fault Refusal :=
  .next (takeOrder 0x31#8 0 ownReadSelection tag body s)

/-! ### SET WIRE RESERVE (R177) -/

/-- The answer to SET WIRE RESERVE. -/
def ownSetWireReserve (b : List Byte) (s : State) : Answer :=
  let r := min Config.reserveMax (u16 b 0)
  ({ s with reserve := r },
    Reply.clampedIf (decide (r ≠ u16 b 0)) (e16 s.reserve ++ e16 (Memory.freeCount s.memory)))

/-- SET_WIRE_RESERVE (R177). -/
def execSetWireReserve (tag : Byte) (body : List Byte) (s : State) : Host.Outcome State Fault Refusal :=
  .next (takeOrder 0x32#8 2 ownSetWireReserve tag body s)

end Sys2Proof.Machine
end

