-- ==== Sys2Proof/Machine/Link.lean ====
section
/-! DEFINITION. The Link Port's own commands and the starts of the part (spec/10, R180 to R194; the WARM rules of every chapter). -/

namespace Sys2Proof.Machine

/-! ### Frames and errors on the line (R180 to R184) -/

/-- FRAME_RECEIVED (R181): the receiver takes the bytes of a whole frame. -/
def execFrameReceived (bytes : List Byte) (s : State) : Host.Outcome State Fault Refusal :=
  .next (settle (receiveBytes bytes s))

/-- GAP_TIMER_EXPIRY (R181): the receiver takes the beginning of a frame, and then the gap timer expires. -/
def execGapTimerExpiry (bytes : List Byte) (s : State) : Host.Outcome State Fault Refusal :=
  .next (settle (gapExpires (receiveBytes bytes s)))

/-- LINK_LENGTH_ERROR (R180): the receiver takes a lead byte and the two bytes of a length. -/
def execLinkLengthError (hi lo : Byte) (s : State) : Host.Outcome State Fault Refusal :=
  .next (settle (receiveBytes [0xC3#8, hi, lo] s))

/-- UNASSIGNED_KIND (R184): an order of a kind outside Table 11-4 is answered MALFORMED. A term with an assigned kind is no such command (log entry 28). -/
def execUnassignedKind (kind tag : Byte) (body : List Byte) (s : State) :
    Host.Outcome State Fault Refusal :=
  if kindAssigned kind then .refused .illFormed
  else
    .next (settle (withOrder ⟨kind, tag, body⟩
      (fun s => answer kind tag (refuse .malformed (dropHead s))) s))

/-- The frame being sent has been sent whole; a reply leaves the reply queue (R185, R187). -/
def frameSent (s : State) : State :=
  match s.link.sending with
  | none => s
  | some (true, _) =>
    { s with link := { s.link with sending := none, replies := s.link.replies.tail } }
  | some (false, _) => { s with link := { s.link with sending := none } }

/-- TRANSMIT_FRAME_END (R187). -/
def execTransmitFrameEnd (s : State) : Host.Outcome State Fault Refusal := .next (settle (frameSent s))

/-! ### Link watch (R189, R190) -/

/-- The watch timer reaches the period: HOST LOST begins (R190). -/
def hostIsLost (s : State) : State :=
  match s.link.watch, s.link.watchFrom, s.link.hostLost with
  | some p, some f, false =>
    let s := advanceTo (f + p * Config.second) s
    { s with link := { s.link with hostLost := true, watchFrom := none } }
  | _, _, _ => s

/-- HOST_LOST (R190). -/
def execHostLost (s : State) : Host.Outcome State Fault Refusal := .next (settle (hostIsLost s))

/-- The answer to SET LINK WATCH. -/
def ownSetLinkWatch (b : List Byte) (s : State) : Answer :=
  match s.link.watch with
  | some p => refuseWith .locked (e8 p) s
  | none =>
    let p := clampTo 1 60 (u8 b 0)
    ({ s with link := { s.link with watch := some p, watchFrom := some s.now } },
      Reply.clampedIf (decide (p ≠ u8 b 0)) (e8 p))

/-- SET_LINK_WATCH (R189). -/
def execSetLinkWatch (tag : Byte) (body : List Byte) (s : State) : Host.Outcome State Fault Refusal :=
  .next (takeOrder 0x33#8 1 ownSetLinkWatch tag body s)

/-! ### QUERY PART (R192) -/

/-- The link watch as QUERY PART gives it: whether it is enabled, its period, whether the part is in HOST LOST. -/
def eWatch (s : State) : List Byte :=
  eFlag s.link.watch.isSome ++ e8 (s.link.watch.getD 0) ++ eFlag s.link.hostLost

/-- The answer to QUERY PART. -/
def ownQueryPart (_ : List Byte) (s : State) : Answer :=
  okWith (e16 Config.vendor ++ e16 Config.part ++ e16 Config.revision ++
    Config.capacities.flatMap e16 ++ e8 s.link.lastCause.code ++ e8 s.clock.state.code ++
    e16 (Memory.freeCount s.memory) ++ eWatch s) s

/-- QUERY_PART (R192). -/
def execQueryPart (tag : Byte) (body : List Byte) (s : State) : Host.Outcome State Fault Refusal :=
  .next (takeOrder 0x34#8 0 ownQueryPart tag body s)

/-! ### RESTART held (R193) -/

/-- A RESTART is held: it stays the order in hand at the head of the inbound queue (R193). -/
def holdRestart (f : Frame) (c : StartCause) (s : State) : State :=
  { s with link := { s.link with
      inbound := if s.link.inbound = [] then [f] else s.link.inbound
      held := some (c, f.tag) } }

/-- The Link Port takes RESTART in hand (R193). -/
def takeRestart (f : Frame) (s : State) : State :=
  if f.body.length < 1 then answer f.kind f.tag (refuse .malformed (dropHead s))
  else match restartCause (u8 f.body 0) with
    | none => answer f.kind f.tag (refuse .range (dropHead s))
    | some c => holdRestart f c s

/-- RESTART (R193). -/
def execRestart (tag : Byte) (body : List Byte) (s : State) : Host.Outcome State Fault Refusal :=
  .next (settle (withOrder ⟨0x35#8, tag, body⟩ (takeRestart ⟨0x35#8, tag, body⟩) s))

/-! ### Starts (R193, R194 and the restart rules of each chapter) -/

/-- The levels of the TYP_READY pins, which no start changes (log entry 20). -/
def pins (s : State) (c : Fin 4) : Bool := s.channels[c].ready

/-- The bytes that the typesetter lines are sending: each is finished, at a COLD restart as at every restart (R151; log entry 20). -/
def bytesBegun (s : State) (c : Fin 4) : OutTx := s.channels[c].sending.cutOff

/-- POWER_ON (R193). -/
def execPowerOn (s : State) : Host.Outcome State Fault Refusal :=
  .next (settle (State.start .powerOn 0 (pins s) (bytesBegun s) s.now s.pending))

/-- A story at a WARM restart: IDLE, CUT if it was being filed, UNKNOWN if it was PENDING (R25). -/
def warmStory (st : Story) : Story :=
  { st with
    holding := .idle
    cut := st.cut || match st.holding with
      | .filing _ => true
      | _ => false
    fit := { st.fit with
      status := if st.fit.status = .pending then .unknown else st.fit.status } }

/-- A terminal line at a WARM restart (R59; log entry 21). -/
def warmLine (l : Line) : Line := { l.emptied with batch := [], idle := false }

/-- A mode at a WARM restart: kept, the dwell timer afresh (R96). -/
def warmMode (now : Nat) : Mode → Mode
  | .rotating r => .rotating { r with dwellFrom := now }
  | m => m

/-- A screen at a WARM restart: alerts, bells and rows in hand end; an attached terminal is repainted (R75). -/
def warmScreen (now : Nat) (attached : Bool) (sc : Screen) : Screen :=
  let sc := { sc with
    mode := warmMode now sc.mode, flash := none, bell := false, hand := none, waiting := false }
  if attached then sc.repaint else sc

/-- The results of a channel's jobs at a WARM restart: the current with ABANDON not sent, the queued with not applicable (R143). -/
def warmResults : List Job → List JobResult
  | [] => []
  | j :: js =>
    j.result .cancelled .notSent :: js.map fun q => q.result .cancelled .notApplicable

/-- A channel at a WARM restart (R143); its setting position is complete (log entry 6). -/
def warmChannel (ch : Channel) : Channel :=
  { (warmResults ch.jobs).foldl (fun ch r => ch.addResult r) ch.emptyOutput with
    state := .idle, jobs := [], pos := .complete, grant := .none }

/-- A wire line at a WARM restart (R163). -/
def warmWire (now : Nat) (l : Wire) : Wire := ⟨l.format, enabledIntake l.enabled, [], now⟩

/-- The WARM restart as one event throughout the part (R193). -/
def warmStart (tag : Byte) (s : State) : State where
  memory := s.memory
  stories := Tab.mapVal warmStory s.stories
  pressure := false
  desks := s.desks
  slots := Vector.replicate 32 none
  baskets := s.baskets
  clock := s.clock
  editions := s.editions
  lines := Vector.ofFn fun t => warmLine s.lines[t]
  keys := []
  screens := Vector.ofFn fun t => warmScreen s.now s.lines[t].attached s.screens[t]
  panes := Vector.replicate 32 ⟨none, none⟩
  faces := s.faces
  fit := ⟨[], none⟩
  lastJob := s.lastJob
  channels := Vector.ofFn fun c => warmChannel s.channels[c]
  engine := { s.engine with last := .fit, owner := none }
  wires := Vector.ofFn fun w => warmWire s.now s.wires[w]
  selection := s.selection
  reserve := s.reserve
  notices := Notices.start .warm tag
  link := Link.start .warm s.link.watch (s.link.watch.map fun _ => s.now)
  now := s.now
  pending := s.pending

/-- The restart of a cause (R193): WARM keeps, any other cause begins afresh. -/
def startAs (c : StartCause) (tag : Byte) (s : State) : State :=
  match c with
  | .warm => warmStart tag s
  | .cold => State.start .cold tag (pins s) (bytesBegun s) s.now s.pending
  | .powerOn => State.start .powerOn tag (pins s) (bytesBegun s) s.now s.pending

/-- A held RESTART is due: the reply queue is empty and no frame is being sent (R193). -/
def restartDue (s : State) : Option (StartCause × Byte) :=
  if s.link.replies.isEmpty && s.link.sending.isNone then s.link.held else none

/-- RESTART_MADE (R193). -/
def execRestartMade (s : State) : Host.Outcome State Fault Refusal :=
  .next (settle (match restartDue s with
    | none => s
    | some (c, tag) => startAs c tag s))

end Sys2Proof.Machine
end

