-- ==== Sys2Proof/Machine/Dispatch.lean ====
section
/-! DEFINITION. The dispatch: one arm for each command, one direct call of its meaning. -/

namespace Sys2Proof.Machine

def exec (i : Instr) (s : State) : Host.Outcome State Fault Refusal :=
  match i with
  | .powerOn => Sys2Proof.Machine.execPowerOn s
  | .restartMade => Sys2Proof.Machine.execRestartMade s
  | .frameReceived bytes => Sys2Proof.Machine.execFrameReceived bytes s
  | .gapTimerExpiry bytes => Sys2Proof.Machine.execGapTimerExpiry bytes s
  | .hostLost => Sys2Proof.Machine.execHostLost s
  | .transmitFrameEnd => Sys2Proof.Machine.execTransmitFrameEnd s
  | .unassignedKind kind tag body => Sys2Proof.Machine.execUnassignedKind kind tag body s
  | .createStory tag body => Sys2Proof.Machine.execCreateStory tag body s
  | .readStory tag body => Sys2Proof.Machine.execReadStory tag body s
  | .setFlags tag body => Sys2Proof.Machine.execSetFlags tag body s
  | .writeText tag body => Sys2Proof.Machine.execWriteText tag body s
  | .readText tag body => Sys2Proof.Machine.execReadText tag body s
  | .spikeStory tag body => Sys2Proof.Machine.execSpikeStory tag body s
  | .clearMarks tag body => Sys2Proof.Machine.execClearMarks tag body s
  | .setDesk tag body => Sys2Proof.Machine.execSetDesk tag body s
  | .readDesk tag body => Sys2Proof.Machine.execReadDesk tag body s
  | .setBasket tag body => Sys2Proof.Machine.execSetBasket tag body s
  | .listBasket tag body => Sys2Proof.Machine.execListBasket tag body s
  | .moveStory tag body => Sys2Proof.Machine.execMoveStory tag body s
  | .setStoryKey tag body => Sys2Proof.Machine.execSetStoryKey tag body s
  | .sendMessage tag body => Sys2Proof.Machine.execSendMessage tag body s
  | .setClock tag body => Sys2Proof.Machine.execSetClock tag body s
  | .startClock tag body => Sys2Proof.Machine.execStartClock tag body s
  | .readClock tag body => Sys2Proof.Machine.execReadClock tag body s
  | .setDeadline tag body => Sys2Proof.Machine.execSetDeadline tag body s
  | .rearm tag body => Sys2Proof.Machine.execRearm tag body s
  | .clearDeadline tag body => Sys2Proof.Machine.execClearDeadline tag body s
  | .assignTerminal tag body => Sys2Proof.Machine.execAssignTerminal tag body s
  | .detachTerminal tag body => Sys2Proof.Machine.execDetachTerminal tag body s
  | .readTerminal tag body => Sys2Proof.Machine.execReadTerminal tag body s
  | .takeKeys tag body => Sys2Proof.Machine.execTakeKeys tag body s
  | .putScreenText tag body => Sys2Proof.Machine.execPutScreenText tag body s
  | .fillBase tag body => Sys2Proof.Machine.execFillBase tag body s
  | .setStatus tag body => Sys2Proof.Machine.execSetStatus tag body s
  | .repaint tag body => Sys2Proof.Machine.execRepaint tag body s
  | .setWatch tag body => Sys2Proof.Machine.execSetWatch tag body s
  | .setRotation tag body => Sys2Proof.Machine.execSetRotation tag body s
  | .readSession tag body => Sys2Proof.Machine.execReadSession tag body s
  | .openWindow tag body => Sys2Proof.Machine.execOpenWindow tag body s
  | .closeWindow tag body => Sys2Proof.Machine.execCloseWindow tag body s
  | .setWidths tag body => Sys2Proof.Machine.execSetWidths tag body s
  | .readWidths tag body => Sys2Proof.Machine.execReadWidths tag body s
  | .setSetting tag body => Sys2Proof.Machine.execSetSetting tag body s
  | .fitStory tag body => Sys2Proof.Machine.execFitStory tag body s
  | .readFitQueue tag body => Sys2Proof.Machine.execReadFitQueue tag body s
  | .queueJob tag body => Sys2Proof.Machine.execQueueJob tag body s
  | .setArbitration tag body => Sys2Proof.Machine.execSetArbitration tag body s
  | .setChannel tag body => Sys2Proof.Machine.execSetChannel tag body s
  | .resume tag body => Sys2Proof.Machine.execResume tag body s
  | .flushChannel tag body => Sys2Proof.Machine.execFlushChannel tag body s
  | .cancelJob tag body => Sys2Proof.Machine.execCancelJob tag body s
  | .readChannel tag body => Sys2Proof.Machine.execReadChannel tag body s
  | .setWireLine tag body => Sys2Proof.Machine.execSetWireLine tag body s
  | .readWireLine tag body => Sys2Proof.Machine.execReadWireLine tag body s
  | .setSelection tag body => Sys2Proof.Machine.execSetSelection tag body s
  | .readSelection tag body => Sys2Proof.Machine.execReadSelection tag body s
  | .setWireReserve tag body => Sys2Proof.Machine.execSetWireReserve tag body s
  | .setLinkWatch tag body => Sys2Proof.Machine.execSetLinkWatch tag body s
  | .queryPart tag body => Sys2Proof.Machine.execQueryPart tag body s
  | .restart tag body => Sys2Proof.Machine.execRestart tag body s
  | .clockTick => Sys2Proof.Machine.execClockTick s
  | .terminalCharacterReceived t frame => Sys2Proof.Machine.execTerminalCharacterReceived t frame s
  | .terminalIdleExpiry t => Sys2Proof.Machine.execTerminalIdleExpiry t s
  | .terminalBreak t => Sys2Proof.Machine.execTerminalBreak t s
  | .textKey t code => Sys2Proof.Machine.execTextKey t code s
  | .newParagraph t => Sys2Proof.Machine.execNewParagraph t s
  | .deleteBack t => Sys2Proof.Machine.execDeleteBack t s
  | .deleteForward t => Sys2Proof.Machine.execDeleteForward t s
  | .insertOvertypeToggle t => Sys2Proof.Machine.execInsertOvertypeToggle t s
  | .cursorLeft t => Sys2Proof.Machine.execCursorLeft t s
  | .cursorRight t => Sys2Proof.Machine.execCursorRight t s
  | .cursorUp t => Sys2Proof.Machine.execCursorUp t s
  | .cursorDown t => Sys2Proof.Machine.execCursorDown t s
  | .paneSwitch t => Sys2Proof.Machine.execPaneSwitch t s
  | .clearMessage t => Sys2Proof.Machine.execClearMessage t s
  | .repaintKey t => Sys2Proof.Machine.execRepaintKey t s
  | .functionKeyPrefix t => Sys2Proof.Machine.execFunctionKeyPrefix t s
  | .functionKey t key => Sys2Proof.Machine.execFunctionKey t key s
  | .ignoredCode t code => Sys2Proof.Machine.execIgnoredCode t code s
  | .terminalByteSent t => Sys2Proof.Machine.execTerminalByteSent t s
  | .flashAlertExpiry t => Sys2Proof.Machine.execFlashAlertExpiry t s
  | .rotationDwellExpiry t => Sys2Proof.Machine.execRotationDwellExpiry t s
  | .fitGrantEnd => Sys2Proof.Machine.execFitGrantEnd s
  | .channelGrantEnd c => Sys2Proof.Machine.execChannelGrantEnd c s
  | .typesetterByteSent c => Sys2Proof.Machine.execTypesetterByteSent c s
  | .typReady c level => Sys2Proof.Machine.execTypReady c level s
  | .batchWaitExpiry c => Sys2Proof.Machine.execBatchWaitExpiry c s
  | .channelStall c => Sys2Proof.Machine.execChannelStall c s
  | .wireCharacterReceived w frame => Sys2Proof.Machine.execWireCharacterReceived w frame s
  | .wireBreak w => Sys2Proof.Machine.execWireBreak w s
  | .wireIntakeCharacter w => Sys2Proof.Machine.execWireIntakeCharacter w s
  | .wireSilenceExpiry w => Sys2Proof.Machine.execWireSilenceExpiry w s
  | .linkLengthError hi lo => Sys2Proof.Machine.execLinkLengthError hi lo s

end Sys2Proof.Machine
end

