-- ==== Sys2Proof/Machine/Internal.lean ====
section
/-! DEFINITION. The work the part does on its own when no command waits: a held RESTART that is due, the dispatch of an order, the intake of a wire character, the decoder's next character (R184, R193, R166, R65; log entry 4). Each is one of the commands. -/

namespace Sys2Proof.Machine

/-- The command a frame in hand is: its order, or UNASSIGNED_KIND (R184, Table 11-4). -/
def instrOfFrame (f : Frame) : Instr :=
  match f.kind.toNat with
  | 0x01 => .createStory f.tag f.body
  | 0x02 => .readStory f.tag f.body
  | 0x03 => .setFlags f.tag f.body
  | 0x04 => .writeText f.tag f.body
  | 0x05 => .readText f.tag f.body
  | 0x06 => .spikeStory f.tag f.body
  | 0x07 => .clearMarks f.tag f.body
  | 0x08 => .setDesk f.tag f.body
  | 0x09 => .readDesk f.tag f.body
  | 0x0A => .setBasket f.tag f.body
  | 0x0B => .listBasket f.tag f.body
  | 0x0C => .moveStory f.tag f.body
  | 0x0D => .setStoryKey f.tag f.body
  | 0x0E => .sendMessage f.tag f.body
  | 0x0F => .setClock f.tag f.body
  | 0x10 => .startClock f.tag f.body
  | 0x11 => .readClock f.tag f.body
  | 0x12 => .setDeadline f.tag f.body
  | 0x13 => .rearm f.tag f.body
  | 0x14 => .clearDeadline f.tag f.body
  | 0x15 => .assignTerminal f.tag f.body
  | 0x16 => .detachTerminal f.tag f.body
  | 0x17 => .readTerminal f.tag f.body
  | 0x18 => .takeKeys f.tag f.body
  | 0x19 => .putScreenText f.tag f.body
  | 0x1A => .fillBase f.tag f.body
  | 0x1B => .setStatus f.tag f.body
  | 0x1C => .repaint f.tag f.body
  | 0x1D => .setWatch f.tag f.body
  | 0x1E => .setRotation f.tag f.body
  | 0x1F => .readSession f.tag f.body
  | 0x20 => .openWindow f.tag f.body
  | 0x21 => .closeWindow f.tag f.body
  | 0x22 => .setWidths f.tag f.body
  | 0x23 => .readWidths f.tag f.body
  | 0x24 => .setSetting f.tag f.body
  | 0x25 => .fitStory f.tag f.body
  | 0x26 => .readFitQueue f.tag f.body
  | 0x27 => .queueJob f.tag f.body
  | 0x28 => .setArbitration f.tag f.body
  | 0x29 => .setChannel f.tag f.body
  | 0x2A => .resume f.tag f.body
  | 0x2B => .flushChannel f.tag f.body
  | 0x2C => .cancelJob f.tag f.body
  | 0x2D => .readChannel f.tag f.body
  | 0x2E => .setWireLine f.tag f.body
  | 0x2F => .readWireLine f.tag f.body
  | 0x30 => .setSelection f.tag f.body
  | 0x31 => .readSelection f.tag f.body
  | 0x32 => .setWireReserve f.tag f.body
  | 0x33 => .setLinkWatch f.tag f.body
  | 0x34 => .queryPart f.tag f.body
  | 0x35 => .restart f.tag f.body
  | _ => .unassignedKind f.kind f.tag f.body

/-- The frame that carries an order (Table 11-4); an event comes in no frame. -/
def orderFrame : Instr → Option Frame
  | .createStory tag body => some ⟨0x01#8, tag, body⟩
  | .readStory tag body => some ⟨0x02#8, tag, body⟩
  | .setFlags tag body => some ⟨0x03#8, tag, body⟩
  | .writeText tag body => some ⟨0x04#8, tag, body⟩
  | .readText tag body => some ⟨0x05#8, tag, body⟩
  | .spikeStory tag body => some ⟨0x06#8, tag, body⟩
  | .clearMarks tag body => some ⟨0x07#8, tag, body⟩
  | .setDesk tag body => some ⟨0x08#8, tag, body⟩
  | .readDesk tag body => some ⟨0x09#8, tag, body⟩
  | .setBasket tag body => some ⟨0x0A#8, tag, body⟩
  | .listBasket tag body => some ⟨0x0B#8, tag, body⟩
  | .moveStory tag body => some ⟨0x0C#8, tag, body⟩
  | .setStoryKey tag body => some ⟨0x0D#8, tag, body⟩
  | .sendMessage tag body => some ⟨0x0E#8, tag, body⟩
  | .setClock tag body => some ⟨0x0F#8, tag, body⟩
  | .startClock tag body => some ⟨0x10#8, tag, body⟩
  | .readClock tag body => some ⟨0x11#8, tag, body⟩
  | .setDeadline tag body => some ⟨0x12#8, tag, body⟩
  | .rearm tag body => some ⟨0x13#8, tag, body⟩
  | .clearDeadline tag body => some ⟨0x14#8, tag, body⟩
  | .assignTerminal tag body => some ⟨0x15#8, tag, body⟩
  | .detachTerminal tag body => some ⟨0x16#8, tag, body⟩
  | .readTerminal tag body => some ⟨0x17#8, tag, body⟩
  | .takeKeys tag body => some ⟨0x18#8, tag, body⟩
  | .putScreenText tag body => some ⟨0x19#8, tag, body⟩
  | .fillBase tag body => some ⟨0x1A#8, tag, body⟩
  | .setStatus tag body => some ⟨0x1B#8, tag, body⟩
  | .repaint tag body => some ⟨0x1C#8, tag, body⟩
  | .setWatch tag body => some ⟨0x1D#8, tag, body⟩
  | .setRotation tag body => some ⟨0x1E#8, tag, body⟩
  | .readSession tag body => some ⟨0x1F#8, tag, body⟩
  | .openWindow tag body => some ⟨0x20#8, tag, body⟩
  | .closeWindow tag body => some ⟨0x21#8, tag, body⟩
  | .setWidths tag body => some ⟨0x22#8, tag, body⟩
  | .readWidths tag body => some ⟨0x23#8, tag, body⟩
  | .setSetting tag body => some ⟨0x24#8, tag, body⟩
  | .fitStory tag body => some ⟨0x25#8, tag, body⟩
  | .readFitQueue tag body => some ⟨0x26#8, tag, body⟩
  | .queueJob tag body => some ⟨0x27#8, tag, body⟩
  | .setArbitration tag body => some ⟨0x28#8, tag, body⟩
  | .setChannel tag body => some ⟨0x29#8, tag, body⟩
  | .resume tag body => some ⟨0x2A#8, tag, body⟩
  | .flushChannel tag body => some ⟨0x2B#8, tag, body⟩
  | .cancelJob tag body => some ⟨0x2C#8, tag, body⟩
  | .readChannel tag body => some ⟨0x2D#8, tag, body⟩
  | .setWireLine tag body => some ⟨0x2E#8, tag, body⟩
  | .readWireLine tag body => some ⟨0x2F#8, tag, body⟩
  | .setSelection tag body => some ⟨0x30#8, tag, body⟩
  | .readSelection tag body => some ⟨0x31#8, tag, body⟩
  | .setWireReserve tag body => some ⟨0x32#8, tag, body⟩
  | .setLinkWatch tag body => some ⟨0x33#8, tag, body⟩
  | .queryPart tag body => some ⟨0x34#8, tag, body⟩
  | .restart tag body => some ⟨0x35#8, tag, body⟩
  | .unassignedKind kind tag body => if kindAssigned kind then none else some ⟨kind, tag, body⟩
  | _ => none

/-- The command a character taken by the decoder is, without the prefix (Table 4-3). -/
def plainInstr (t : Fin 32) (c : Byte) : Instr :=
  if c = prefixCode then .functionKeyPrefix t
  else match plainKey c with
    | some (.text c) => .textKey t c
    | some .deleteBack => .deleteBack t
    | some .deleteForward => .deleteForward t
    | some .paragraph => .newParagraph t
    | some .left => .cursorLeft t
    | some .right => .cursorRight t
    | some .up => .cursorUp t
    | some .down => .cursorDown t
    | some .switch => .paneSwitch t
    | some .toggle => .insertOvertypeToggle t
    | some .clearMessage => .clearMessage t
    | some .repaint => .repaintKey t
    | some (.function k) => .functionKey t k
    | none => .ignoredCode t c

/-- The command a character taken by the decoder is (R67). -/
def instrOfCode (t : Fin 32) (pfx : Bool) (c : Byte) : Instr :=
  if pfx then
    match functionOf c with
    | some k => .functionKey t k
    | none => .ignoredCode t c
  else plainInstr t c

/-- The order that may be dispatched (R184). -/
def dispatchNext (s : State) : Option Instr :=
  match s.link.inbound with
  | [] => none
  | f :: _ => if orderReady s then some (instrOfFrame f) else none

/-- The lowest wire line with a character for intake (R166). -/
def intakeNext (s : State) : Option Instr :=
  ((List.finRange 4).find? fun w => !s.wires[w].fifo.isEmpty).map .wireIntakeCharacter

/-- The next character of the lowest terminal whose decoder is taking a batch (R65). -/
def decodeNext (s : State) : Option Instr :=
  (List.finRange 32).findSome? fun t =>
    match s.lines[t].batch with
    | [] => none
    | c :: _ => some (instrOfCode t s.lines[t].pfx c)

/-- The part's own next piece of work (log entry 4). -/
def internal (s : State) : Option Instr :=
  if (restartDue s).isSome then some .restartMade
  else (dispatchNext s).or ((intakeNext s).or (decodeNext s))

end Sys2Proof.Machine
end

