-- ==== Sys2Proof/Machine/Step.lean ====
section
/-! DEFINITION. One step: the command at the front of the queue; on an empty queue the part's own work, or one millisecond of the reference oscillator (log entry 4). -/

namespace Sys2Proof.Machine

/-- The state in which a command taken off the queue runs. -/
def State.withPending (s : State) (q : List Instr) : State := { s with pending := q }

/-- The step on an empty queue (log entry 4). -/
def idleStep (s : State) : Host.Outcome State Fault Refusal :=
  match internal s with
  | some c => exec c s
  | none => .next (settle { s with now := s.now + 1 })

/-- One step. -/
def step (s : State) : Host.Outcome State Fault Refusal :=
  match s.pending with
  | c :: rest => exec c (s.withPending rest)
  | [] => idleStep s

/-- The state with the command a word spells at the front of its queue; unchanged where it spells none. -/
def State.withFetchWord (s : State) (nbits w : Nat) : State :=
  match decodeTableWord nbits w with
  | none => s
  | some c => s.withPending (c :: s.pending)

end Sys2Proof.Machine
end

