-- ==== Sys2Proof/Safety.lean ====
section
/-! DEFINITION. What statements about the machine are made of: frames, the order that is taken in hand, what the rules say of panes, offers, sessions that end, the pool, lines of a grant, free blocks and words, and the invariants of the part. -/

namespace Sys2Proof.Machine

/-! ### Frames -/

/-- The fields of State. -/
inductive Field where
  | memory
  | stories
  | pressure
  | desks
  | slots
  | baskets
  | clock
  | editions
  | lines
  | keys
  | screens
  | panes
  | faces
  | fit
  | lastJob
  | channels
  | engine
  | wires
  | selection
  | reserve
  | notices
  | link
  | now
  | pending
  deriving DecidableEq, Repr

/-- A field is the same in two states. -/
def Field.same (f : Field) (s t : State) : Prop :=
  match f with
  | .memory => t.memory = s.memory
  | .stories => t.stories = s.stories
  | .pressure => t.pressure = s.pressure
  | .desks => t.desks = s.desks
  | .slots => t.slots = s.slots
  | .baskets => t.baskets = s.baskets
  | .clock => t.clock = s.clock
  | .editions => t.editions = s.editions
  | .lines => t.lines = s.lines
  | .keys => t.keys = s.keys
  | .screens => t.screens = s.screens
  | .panes => t.panes = s.panes
  | .faces => t.faces = s.faces
  | .fit => t.fit = s.fit
  | .lastJob => t.lastJob = s.lastJob
  | .channels => t.channels = s.channels
  | .engine => t.engine = s.engine
  | .wires => t.wires = s.wires
  | .selection => t.selection = s.selection
  | .reserve => t.reserve = s.reserve
  | .notices => t.notices = s.notices
  | .link => t.link = s.link
  | .now => t.now = s.now
  | .pending => t.pending = s.pending

/-- Every field outside a list is unchanged. -/
def KeepsBut (changed : List Field) (s t : State) : Prop := ∀ f, f ∉ changed → f.same s t

/-! ### Orders -/

/-- The order whose frame is f is taken in hand when it comes: no RESTART is held, the reply queue has room, and nothing stands before it in the inbound queue (R184, R193). -/
def Takes (f : Frame) (s : State) : Prop :=
  s.link.held = none ∧ s.link.replies.length < Config.repliesMax ∧
    (s.link.inbound = [] ∨ s.link.inbound.head? = some f)

/-- The link after an order is answered: the frame has left the inbound queue and the reply stands at the tail of the reply queue (R184, R185). -/
def answeredLink (kind tag : Byte) (r : Reply) (l : Link) : Link :=
  { l with inbound := l.inbound.tail, replies := l.replies ++ [replyFrame kind tag r] }

/-- The order's event: it is answered with r, and besides the link only the listed fields change; u is the state before the end of the event. -/
def AnsweredBy (kind tag : Byte) (r : Reply) (changed : List Field) (s u : State) : Prop :=
  u.link = answeredLink kind tag r s.link ∧ KeepsBut (.link :: changed) s u

/-! ### Completion -/

/-- The command completes: exec answers a next state, that of the end of the event that begins in u, where only the listed fields of s are changed and P holds. -/
def Completes (i : Instr) (changed : List Field) (s : State) (P : State → Prop) : Prop :=
  ∃ u, exec i s = .next (settle u) ∧ KeepsBut changed s u ∧ P u

/-- The order completes and is answered r; besides the link only the listed fields change, and P holds. -/
def Replies (i : Instr) (kind tag : Byte) (r : Reply) (changed : List Field) (s : State)
    (P : State → Prop) : Prop :=
  ∃ u, exec i s = .next (settle u) ∧ AnsweredBy kind tag r changed s u ∧ P u

/-- The order completes and is refused: its reply carries r without data and nothing but the link changes. -/
def Refuses (i : Instr) (kind tag : Byte) (r : ResultCode) (s : State) : Prop :=
  Replies i kind tag (Reply.bare r) [] s fun _ => True

/-- The order completes and only reads: its reply is r and nothing but the link changes. -/
def Reads (i : Instr) (kind tag : Byte) (r : Reply) (s : State) : Prop :=
  Replies i kind tag r [] s fun _ => True

/-- The order completes and its story is not there: RANGE for an identifier outside 1 to 1024, NO-SUCH for a free one. -/
def RefusesStory (i : Instr) (kind tag : Byte) (id : Nat) (s : State) : Prop :=
  (id = 0 ∨ 1024 < id → Refuses i kind tag .range s) ∧
    (1 ≤ id → id ≤ 1024 → storyOf s id = none → Refuses i kind tag .noSuch s)

/-- The fixed fields of an order kind take this many bytes (Table 11-4). -/
def fixedLength (kind : Byte) : Nat :=
  [0, 5, 2, 4, 11, 6, 5, 5, 2, 1, 15, 4, 9, 7, 4, 4, 0, 0, 4, 1, 1, 9, 1, 1, 2, 5, 5, 2, 1, 2, 5, 1,
    6, 2, 98, 1, 13, 2, 0, 3, 6, 6, 1, 1, 2, 1, 7, 1, 8, 0, 2, 1, 0, 1].getD kind.toNat 0

/-- The decoder takes the next code of this terminal at once: it is attached, no prefix is pending, and nothing waits before the code. -/
def DecoderFree (s : State) (t : Fin 32) : Prop :=
  s.lines[t].attached = true ∧ s.lines[t].pfx = false ∧ s.lines[t].batch = [] ∧ s.lines[t].rx = []

/-- The terminal is NORMAL and its edit session, on this story, has focus EDIT (R68, R105). -/
def Edits (s : State) (t : Fin 32) (e : Session) (st : Story) : Prop :=
  s.screens[t].mode = .normal ∧ s.panes[t].session = some e ∧ e.focus = .edit ∧
    storyOf s e.story = some st

/-- A story joins a list at the tail of its class: behind every story of its own class or a higher one, and before the first of a lower class (R31). The classes are those of u. -/
def JoinsTail (u : State) (rank id : Nat) (old new : List Nat) : Prop :=
  ∃ before after, old = before ++ after ∧ new = before ++ id :: after ∧
    (∀ y ∈ before, ¬ (rank < classOf u y)) ∧ ∀ y, after.head? = some y → rank < classOf u y

/-! ### Top offsets of panes (R104) -/

/-- The top offset of an edit session over a text: the offset that R104's step 1 gives is brought to the start of its display row (step 2), and from there as far as the cursor needs (step 3). -/
def sessionTop (l : Layout) (text : List Byte) (moved cursor : Nat) : Nat :=
  topForCursor (displayRows (editWidth l) text) (rowStart (displayRows (editWidth l) text) moved)
    cursor

/-- Every reference pane that shows the story has its top offset moved by R104's step 1 and brought to the start of its display row in the new text (step 2); every other reference pane is as it was. -/
def RefTopsFollow (s u : State) (id : Nat) (text : List Byte) (move : Nat → Nat) : Prop :=
  ∀ x : Fin 32, u.panes[x].ref = s.panes[x].ref.map fun r =>
    if r.story = id then ⟨r.story, rowStart (displayRows 39 text) (move r.top)⟩ else r

/-! ### The pane re-check (R35) -/

/-- What the pane re-check leaves at a terminal: s is the state with the new authority, u the state after. Each pane that failed is closed or cleared with WINDOW-CLOSED; a pane that passed stays, but for a focus on a reference pane that is cleared; where both passed, the panes and the terminal's notice are as they were. -/
def PanesRechecked (only : Option Nat) (t : Fin 32) (s u : State) : Prop :=
  sessionFails u t only = false ∧ refFails u t only = false ∧
  (sessionFails s t only = false → refFails s t only = false →
    u.panes[t] = s.panes[t] ∧ u.notices.terminal[t] = s.notices.terminal[t] ∧
    u.notices.pending[srcTerminal t] = s.notices.pending[srcTerminal t]) ∧
  (sessionFails s t only = true → u.panes[t].session = none) ∧
  (refFails s t only = true → u.panes[t].ref = none) ∧
  (sessionFails s t only = true → refFails s t only = false → u.panes[t].ref = s.panes[t].ref) ∧
  (refFails s t only = true → sessionFails s t only = false →
    u.panes[t].session = s.panes[t].session.map fun e => { e with focus := .edit }) ∧
  (sessionFails s t only = true ∨ refFails s t only = true →
    u.notices.pending[srcTerminal t] = true ∧
    u.notices.terminal[t] = { s.notices.terminal[t] with windowClosed := true })

/-! ### Automatic offers, sessions that end, the pool, the typesetter lines -/

/-- R134: what an automatic offer of a story leaves. s holds the Fit Queue and the faces before the offer, st is the story at the offer, u the state after: no offer for an unloaded face, nothing added for a story already in the list, otherwise the tail of the list with PENDING, or with the list full UNKNOWN. -/
def OfferTaken (s u : State) (id : Nat) (st : Story) : Prop :=
  (s.faces[st.setting.face].loaded = false ∨ inFitQueue s id = true →
    u.fit = s.fit ∧ storyOf u id = some st) ∧
  (s.faces[st.setting.face].loaded = true → inFitQueue s id = false →
    (s.fit.list.length < 8 → u.fit = { s.fit with list := s.fit.list ++ [⟨id, 0⟩] } ∧
      storyOf u id = some { st with fit := { st.fit with status := .pending } }) ∧
    (8 ≤ s.fit.list.length → u.fit = s.fit ∧ storyOf u id = some { st with fit :=
      { st.fit with status := if st.fit.status = .pending then .pending else .unknown } }))

/-- R116 steps 1 and 2, R117: an edit session has ended with a fit offer: its story is st but for its lock, which is released, and is offered exactly where the session was modified. -/
def SessionEnded (s u : State) (e : Session) (st : Story) : Prop :=
  (e.modified = false → u.fit = s.fit ∧ storyOf u e.story = some { st with holding := .idle }) ∧
  (e.modified = true → OfferTaken s u e.story { st with holding := .idle })

/-- R8: what the recovery test leaves after an event; rose says that the free count rose in it. With pressure RAISED and the free count now above the reserve, POOL is raised with RECOVERED and pressure is CLEAR; otherwise both are as they were. -/
def PoolTested (rose : Bool) (s u : State) : Prop :=
  (rose = true → s.pressure = true → s.reserve < Memory.freeCount u.memory →
    u.pressure = false ∧ u.notices.pending[srcPool] = true ∧
    u.notices.pool = ⟨Memory.freeCount u.memory, s.reserve, some .recovered⟩) ∧
  (rose = false ∨ s.pressure = false ∨ Memory.freeCount u.memory ≤ s.reserve →
    u.pressure = s.pressure ∧ u.notices.pending[srcPool] = s.notices.pending[srcPool] ∧
    u.notices.pool = s.notices.pool)

/-- R151: a FIFO was emptied: a byte being sent is finished, and no longer stands in the FIFO; a line at rest stays at rest. -/
def ByteFinished (before after : OutTx) : Prop :=
  after = match before with
    | .rest => .rest
    | .busy b _ => .busy b false

/-! ### Lines of a grant (R132) -/

/-- The records are lines set one after another from a text, the first of them with this first mark, and rest is what they leave. -/
def LinesFrom (k : SetWith) (para : Nat) : Bool → List Byte → List LineRec → List Byte → Prop
  | _, text, [], rest => rest = text
  | first, text, r :: rs, rest =>
    text ≠ [] ∧ (setLine k para first text).1 = r ∧
      LinesFrom k para false (setLine k para first text).2 rs rest

/-! ### Lowest free blocks and identifiers, words of a text -/

/-- R2: the lowest-numbered block in the free pool. -/
def LowestFreeBlock (m : Memory) (b : Nat) : Prop :=
  b < 8192 ∧ Memory.read m b = Block.free ∧ ∀ x < b, Memory.read m x ≠ Block.free

/-- R13: the lowest free story identifier: every lower one is in use. -/
def LowestFreeStory (s : State) (id : Nat) : Prop :=
  1 ≤ id ∧ id ≤ 1024 ∧ storyOf s id = none ∧ ∀ x, 1 ≤ x → x < id → storyOf s x ≠ none

/-- R126: the words of a paragraph's text: its runs of characters other than spaces. -/
def wordsOf : List Byte → List (List Byte)
  | [] => []
  | c :: cs =>
    if c = spaceCode then wordsOf cs
    else match cs, wordsOf cs with
      | d :: _, w :: ws => if d = spaceCode then [c] :: w :: ws else (c :: w) :: ws
      | _, ws => [c] :: ws

/-! ### What a terminal draws (R73) -/

/-- Change one row of a terminal's screen. -/
def Sent.modRow (im : Sent) (row : Nat) (f : List Cell → List Cell) : Sent :=
  { im with rows := im.rows.modify (row - 1) f }

/-- A character at a terminal: it is written with the current attribute at the cursor, which moves one column right and stays at column 80 (R73). -/
def Sent.putChar (im : Sent) (c : Byte) : Sent :=
  { im.modRow im.cursor.1 (fun r => r.set (im.cursor.2 - 1) ⟨c, im.attr⟩) with
    cursor := (im.cursor.1, min 80 (im.cursor.2 + 1)) }

/-- What a terminal's screen becomes on receiving a code (R73). -/
def Sent.draw (im : Sent) : List Byte → Sent
  | [x, r, c] =>
    if x = 0x10#8 then { im with cursor := (r.toNat - 0x20 + 1, c.toNat - 0x20 + 1) } else im
  | [x, a] =>
    if x = 0x11#8 then { im with attr := (Attr.ofCode (a.toNat - 0x30)).getD im.attr } else im
  | [x] =>
    if x = 0x12#8 then
      im.modRow im.cursor.1 fun r =>
        r.take (im.cursor.2 - 1) ++ List.replicate (81 - im.cursor.2) Cell.blank
    else if x = 0x13#8 then Sent.cleared
    else if x = 0x07#8 then im
    else im.putChar x
  | _ => im

/-! ### Invariants -/

/-- Copy memory is in its canonical form. -/
def MemoryForm (s : State) : Prop := Memory.wf s.memory

/-- A chain is sound in a memory: its blocks are distinct and at most 256, and each holds 1 to 240 characters (R3). -/
def ChainSound (m : Memory) (chain : List Nat) : Prop :=
  chain.Nodup ∧ chain.length ≤ 256 ∧ ∀ b ∈ chain, 1 ≤ fill m b ∧ fill m b ≤ 240

/-- The blocks of all chains of the directory, story after story. -/
def chainBlocks (s : State) : List Nat := s.stories.flatMap fun e => e.2.chain

/-- R1, R3: memory and the directory are in their form; every block that is not free is below 8192 and stands in exactly one chain, once; every chain holds at most 256 blocks of 1 to 240 characters. -/
def StoreSound (s : State) : Prop :=
  Memory.wf s.memory ∧ Tab.wf s.stories ∧ (∀ e ∈ s.memory, e.1 < 8192) ∧
    (chainBlocks s).Nodup ∧ (∀ b, b ∈ chainBlocks s ↔ b ∈ s.memory.map (·.1)) ∧
    ∀ e ∈ s.stories, ChainSound s.memory e.2.chain

/-- R51: while the clock is STOPPED or RUNNING, every ARMED edition's deadline is later than the clock. -/
def DeadlinesAhead (s : State) : Prop :=
  s.clock.state ≠ .unset → ∀ e : Fin 4, s.editions[e].state = .armed →
    s.clock.value < s.editions[e].time

/-- R92: no terminal watches itself or a terminal that is itself watching; watcher and target are attached. -/
def WatchLegal (s : State) : Prop :=
  ∀ t target : Fin 32, s.screens[t].mode = .watching target →
    target ≠ t ∧ isWatching s target = false ∧ s.lines[t].attached = true ∧
      s.lines[target].attached = true

/-- The inbound queue, the reply queue, the Key Report Queue and the Fit Queue hold no more than their capacities (R183, R185, R69, R133). -/
def QueuesFit (s : State) : Prop :=
  s.link.inbound.length ≤ Config.inboundMax ∧ s.link.replies.length ≤ Config.repliesMax ∧
    s.keys.length ≤ Config.keysMax ∧ s.fit.list.length ≤ Config.fitMax

/-- The receive and transmit FIFOs of the terminals and the FIFOs of the wire lines hold no more than their capacities (R64, R72, R166). -/
def LineFifosFit (s : State) : Prop :=
  (∀ t : Fin 32, s.lines[t].rx.length ≤ Config.rxFifo ∧ s.lines[t].tx.length ≤ Config.txFifo) ∧
    ∀ w : Fin 4, s.wires[w].fifo.length ≤ Config.rxFifo

/-- A channel's job queue, finished list, line queue and output FIFO hold no more than their capacities, and a grant whose lines are kept has room for them (R140, R145, R146, R151, R161). -/
def Channel.Fits (ch : Channel) : Prop :=
  ch.jobs.length ≤ Config.jobsMax ∧ ch.finished.length ≤ Config.finishedMax ∧
    ch.lines.length ≤ Config.linesMax ∧ ch.fifo.length ≤ Config.outFifo ∧
    (ch.grant = .keep → ch.lines.length + Config.grantLines ≤ Config.linesMax)

/-- Every channel is within its capacities. -/
def ChannelsFit (s : State) : Prop := ∀ c : Fin 4, s.channels[c].Fits

/-- R88, R89: the row-change set holds rows 1 to 24, each once, in rising order; a row in hand has codes to place, each of 1 to 3 bytes. -/
def Screen.InOrder (sc : Screen) : Prop :=
  sc.marks.Sublist allRows ∧
    ∀ r codes, sc.hand = some (r, codes) →
      codes ≠ [] ∧ ∀ code ∈ codes, 1 ≤ code.length ∧ code.length ≤ 3

/-- Every screen's row-change set and row in hand are in order. -/
def ScreensInOrder (s : State) : Prop := ∀ t : Fin 32, s.screens[t].InOrder

/-- R118: in a loaded face the minimum space, the normal space and the maximum space rise, between 1 and 36 units, and every width is at most 36. -/
def FacesLegal (s : State) : Prop :=
  ∀ f : Fin 8, s.faces[f].loaded = true →
    1 ≤ s.faces[f].minSpace ∧ s.faces[f].minSpace ≤ s.faces[f].widths[0] ∧
      s.faces[f].widths[0] ≤ s.faces[f].maxSpace ∧ s.faces[f].maxSpace ≤ 36 ∧
      ∀ i : Fin 95, s.faces[f].widths[i] ≤ 36

/-- A setting within Table 7-1. -/
def Setting.Legal (x : Setting) : Prop :=
  (10 ≤ x.size ∧ x.size ≤ 144) ∧ (18 ≤ x.measure ∧ x.measure ≤ 1440) ∧
    (10 ≤ x.leading ∧ x.leading ≤ 288) ∧ x.indent ≤ x.measure / 2 ∧ x.budget ≤ 20000

/-- R122: every setting record held in the directory or in a basket lies within Table 7-1. -/
def SettingsLegal (s : State) : Prop :=
  (∀ e ∈ s.stories, e.2.setting.Legal) ∧
    ∀ b : Fin 64, ∀ x, s.baskets[b].default = some x → x.Legal

/-- R189, R190: an enabled watch has a period of 1 to 60 seconds, HOST LOST is only entered with the watch enabled, and the watch timer runs exactly while the watch is enabled and the part is not in HOST LOST. -/
def LinkWatchLegal (s : State) : Prop :=
  (∀ p, s.link.watch = some p → 1 ≤ p ∧ p ≤ 60) ∧
    (s.link.hostLost = true → s.link.watch.isSome = true) ∧
    s.link.watchFrom.isSome = (s.link.watch.isSome && !s.link.hostLost)

end Sys2Proof.Machine
end

