-- ==== Sys2Proof/Certificates/Slice0/Obligations.lean ====
section
/-! DEFINITION. The statements for the provers: what the commands, the end of an event and a step of the NCC-32 do, from the numbered rules of spec/. -/

open Sys2Proof Sys2Proof.Machine

/-! ### The step, the reset state, the end of an event -/

/-- A step with a command in front of the queue is exec of it on the state with the queue's rest. -/
def Obligations.StepRunsFrontCommand : Prop :=
  ∀ (c : Instr) (s : State) (rest : List Instr),
    step { s with pending := c :: rest } = exec c { s with pending := rest }

/-- Log entry 4: on an empty queue the part does its own next work, and with none left one millisecond passes. -/
def Clause.IdleStepWorksOrWaits : Prop :=
  ∀ s : State, s.pending = [] →
    (∀ c, internal s = some c → step s = exec c s) ∧
      (internal s = none → step s = .next (settle { s with now := s.now + 1 }))

/-- R184, log entry 4: the order at the head of the inbound queue is dispatched by an idle step when no RESTART is held and the reply queue has room. -/
def Clause.IdleStepDispatchesHead : Prop :=
  ∀ (s : State) (f : Frame) (rest : List Frame), s.pending = [] → s.link.inbound = f :: rest →
    s.link.held = none → s.link.replies.length < 8 → step s = exec (instrOfFrame f) s

/-- The state right after power-on, as the rules on power-on give it. -/
def Obligations.ResetStateIsThePowerOnState : Prop :=
  let s := State.reset
  (s.memory = [] ∧ Memory.freeCount s.memory = 8192 ∧ s.stories = [] ∧ s.pressure = false) ∧
  (∀ d : Fin 16, s.desks[d].name = [] ∧ ∀ b : Fin 64, s.desks[d].row[b] = ⟨false, false, false⟩) ∧
  (∀ t : Fin 32, s.slots[t] = none ∧ s.lines[t].attached = false ∧ s.lines[t].rx = [] ∧
    s.lines[t].tx = [] ∧ s.lines[t].pfx = false ∧ s.panes[t] = ⟨none, none⟩ ∧
    s.screens[t].mode = .normal ∧ s.screens[t].flash = none ∧ s.screens[t].status = [] ∧
    s.screens[t].sent = none ∧ s.screens[t].bell = false ∧
    s.screens[t].base = List.replicate 23 (List.replicate 80 ⟨0x20#8, .normal⟩)) ∧
  (∀ b : Fin 64, s.baskets[b] = ⟨[], 0, none, []⟩) ∧
  (s.clock.state = .unset ∧ s.clock.value = 0 ∧ ∀ e : Fin 4, s.editions[e] = ⟨0, .unarmed⟩) ∧
  (s.keys = [] ∧ (∀ f : Fin 8, s.faces[f].loaded = false ∧ s.faces[f].generation = 0) ∧
    s.fit = ⟨[], none⟩) ∧
  (∀ c : Fin 4, s.channels[c].state = .idle ∧ s.channels[c].jobs = [] ∧ s.channels[c].lines = [] ∧
    s.channels[c].fifo = [] ∧ s.channels[c].finished = [] ∧ s.channels[c].rate = 9600 ∧
    s.channels[c].threshold = 64) ∧
  (s.engine.mode = .rotate ∧ s.engine.owner = none ∧ s.engine.last = .fit ∧
    ∀ i : Fin 5, s.engine.levels[i] = 0) ∧
  (∀ w : Fin 4, s.wires[w].intake = .off ∧ s.wires[w].fifo = [] ∧
    s.wires[w].format = ⟨9600, 8, .none, 1⟩) ∧
  ((∀ i : Fin 32, s.selection[i] = none) ∧ s.reserve = 256) ∧
  (s.link.receiver = .hunt ∧ s.link.inbound = [] ∧ s.link.replies = [] ∧ s.link.watch = none ∧
    s.link.hostLost = false ∧ s.link.lastSource = 47 ∧ s.link.lastCause = .powerOn) ∧
  (∀ i : Fin 48, s.notices.pending[i] = decide (i = 0)) ∧
  s.notices.part = ⟨some .powerOn, 0, false⟩ ∧ s.pending = []

/-- The end of an event changes nothing but what the blocks send on: codes that move to a typesetter, a grant of the engine, the images and transmit FIFOs of terminals, the frame being sent and the notice taken for it. -/
def Obligations.EndOfEventKeepsOwnedState : Prop :=
  ∀ s : State,
    KeepsBut [.channels, .engine, .fit, .screens, .lines, .link, .notices] s (settle s) ∧
    (∀ c : Fin 4, (settle s).channels[c].state = s.channels[c].state ∧
      (settle s).channels[c].jobs = s.channels[c].jobs ∧
      (settle s).channels[c].pos = s.channels[c].pos ∧
      (settle s).channels[c].finished = s.channels[c].finished ∧
      (settle s).channels[c].ready = s.channels[c].ready ∧
      (settle s).channels[c].rate = s.channels[c].rate ∧
      (settle s).channels[c].threshold = s.channels[c].threshold ∧
      (settle s).channels[c].waitChoice = s.channels[c].waitChoice ∧
      (settle s).channels[c].stallChoice = s.channels[c].stallChoice) ∧
    ((settle s).engine.mode = s.engine.mode ∧ (settle s).engine.levels = s.engine.levels ∧
      (settle s).fit.list = s.fit.list) ∧
    (∀ t : Fin 32, (settle s).screens[t].base = s.screens[t].base ∧
      (settle s).screens[t].status = s.screens[t].status ∧
      (settle s).screens[t].mode = s.screens[t].mode ∧
      (settle s).screens[t].flash = s.screens[t].flash ∧
      { (settle s).lines[t] with tx := s.lines[t].tx, sending := s.lines[t].sending } = s.lines[t] ∧
      (s.lines[t].attached = false →
        (settle s).screens[t] = s.screens[t] ∧ (settle s).lines[t] = s.lines[t])) ∧
    { (settle s).link with sending := s.link.sending, lastSource := s.link.lastSource } = s.link ∧
    (s.link.sending.isSome = true →
      (settle s).link = s.link ∧ (settle s).notices = s.notices)

/-- R187: with no frame being sent the transmitter takes the oldest reply; with no reply, outside HOST LOST and with no RESTART held, the first pending source after the last source sent; while a frame is being sent it chooses nothing. Log entry 13: it also waits for an order that can be dispatched. -/
def Clause.TransmitterTakesRepliesThenSources : Prop :=
  ∀ s : State,
    (∀ x, s.link.sending = some x → transmit s = s) ∧
    (∀ r rs, s.link.sending = none → s.link.replies = r :: rs →
      transmit s = { s with link := { s.link with sending := some (true, r) } }) ∧
    (s.link.sending = none → s.link.replies = [] →
      (s.link.hostLost = true ∨ s.link.held.isSome = true → transmit s = s) ∧
      (s.link.hostLost = false → s.link.held = none → s.link.inbound = [] →
        (∀ i : Fin 48, s.notices.pending[i] = false) → transmit s = s) ∧
      (s.link.hostLost = false → s.link.held = none → s.link.inbound = [] →
        ∀ i : Fin 48, s.notices.pending[i] = true →
          (∀ j : Fin 48, s.notices.pending[j] = true →
            (i.val + 47 - s.link.lastSource) % 48 ≤ (j.val + 47 - s.link.lastSource) % 48) →
          s.link.lastSource < 48 →
          transmit s =
            { s with
              link := { s.link with sending := some (false, noticeFrame s i), lastSource := i }
              notices := s.notices.taken i }))

/-- Table 10-3: choosing a source makes its entry clear, empties the parts that the table marks, and leaves every other source alone. -/
def Clause.ChoiceOfASourceEmptiesItsSummary : Prop :=
  ∀ (n : Notices) (i : Fin 48),
    (∀ j : Fin 48, (n.taken i).pending[j] = (n.pending[j] && decide (j ≠ i))) ∧
    (n.taken i).part = (if i = srcPart then ⟨none, 0, false⟩ else n.part) ∧
    (n.taken i).link = (if i = srcLink then ⟨false, false, false, false⟩ else n.link) ∧
    (n.taken i).pool = (if i = srcPool then ⟨0, 0, none⟩ else n.pool) ∧
    (∀ w : Fin 4, (n.taken i).wire[w] =
      if i = srcWire w then ⟨false, false, false, false, 0, 0⟩ else n.wire[w]) ∧
    (∀ t : Fin 32, (n.taken i).terminal[t] =
      if i = srcTerminal t then ⟨false, false, false, false, false⟩ else n.terminal[t])

/-- R186, R188, Table 10-2, Table 11-8 (the model's choice, log entry 8: the finished list's count takes 1 byte, HOST-BACK's yes is 01h, a pool condition of none 00h): the notice of each source carries kind 81h, tag 0, the source's position, and the summary of its table row as it stands. -/
def Clause.NoticesCarryTheirSummaries : Prop :=
  ∀ s : State,
    (let p := s.notices.part
    noticeFrame s srcPart = ⟨0x81#8, 0, e8 0 ++
      e8 (match p.cause with
        | none => 0
        | some .powerOn => 1
        | some .cold => 2
        | some .warm => 3) ++ [p.tag] ++ e8 (if p.hostBack then 1 else 0)⟩) ∧
    (let e := s.notices.link
    noticeFrame s srcLink = ⟨0x81#8, 0, e8 1 ++
      e8 ((if e.length then 1 else 0) + (if e.gap then 2 else 0) + (if e.check then 4 else 0) +
        (if e.overrun then 8 else 0))⟩) ∧
    (let p := s.notices.pool
    noticeFrame s srcPool = ⟨0x81#8, 0, e8 2 ++ e16 p.free ++ e16 p.reserve ++
      e8 (match p.cond with
        | none => 0
        | some .low => 1
        | some .empty => 2
        | some .recovered => 3)⟩) ∧
    (∀ e : Fin 4, noticeFrame s (srcEdition e) = ⟨0x81#8, 0, e8 (3 + e) ++
      e24 s.editions[e].time ++ e8 s.editions[e].state.code⟩) ∧
    (∀ c : Fin 4, noticeFrame s (srcChannel c) = ⟨0x81#8, 0, e8 (7 + c) ++
      e8 s.channels[c].state.code ++
      e8 (match s.channels[c].jobs.head? with
        | none => 0
        | some j => j.number) ++
      e8 s.channels[c].finished.length ++
      s.channels[c].finished.flatMap fun r =>
        e8 r.number ++ e8 r.edition ++ e8 r.outcome.code ++ e8 r.entries ++ e8 r.sent ++
          e8 r.abandon.code⟩) ∧
    (∀ w : Fin 4, let n := s.notices.wire[w]
    noticeFrame s (srcWire w) = ⟨0x81#8, 0, e8 (11 + w) ++ e8 s.wires[w].intake.code ++
      e8 ((if n.character then 1 else 0) + (if n.overrun then 2 else 0) +
        (if n.header then 4 else 0) + (if n.cut then 8 else 0)) ++ e8 n.filed ++ e8 n.dropped⟩) ∧
    (∀ t : Fin 32, let e := s.notices.terminal[t]
    noticeFrame s (srcTerminal t) = ⟨0x81#8, 0, e8 (15 + t) ++
      e8 ((if e.attention then 1 else 0) + (if e.lineError then 2 else 0) +
        (if e.messageCleared then 4 else 0) + (if e.keysRefused then 8 else 0) +
        (if e.windowClosed then 16 else 0))⟩) ∧
    noticeFrame s srcKeys = ⟨0x81#8, 0, e8 47 ++ e8 s.keys.length⟩

/-- R187, R188 and Tables 10-3 and 11-8: which frame the transmitter takes, what the choice of a source empties, and what each notice carries. -/
def Obligations.TransmitterServesRepliesThenSources : Prop :=
  Clause.TransmitterTakesRepliesThenSources ∧
    Clause.ChoiceOfASourceEmptiesItsSummary ∧
    Clause.NoticesCarryTheirSummaries

/-! ### The control link (spec/10) -/

/-- R180, R181, R183, R190, R191 (log entry 27: the event holds the whole frame's bytes): from HUNT, the bytes of any frame are received as that frame: it restarts the enabled link watch, ends HOST LOST with PART and HOST-BACK, and joins the inbound queue, or is discarded with OVERRUN where the queue holds 8. -/
def Obligations.FrameBytesAreReceivedAsTheFrame : Prop :=
  ∀ (f : Frame) (s : State), f.body.length ≤ 1024 → s.link.receiver = .hunt →
    Completes (.frameReceived f.bytes) [.link, .notices] s fun u =>
      u.link = { s.link with
        inbound := if s.link.inbound.length < 8 then s.link.inbound ++ [f] else s.link.inbound
        hostLost := false
        watchFrom := s.link.watch.map fun _ => s.now } ∧
      (let n := if s.link.hostLost then
          { s.notices.setPending srcPart true with
            part := { s.notices.part with hostBack := true } }
        else s.notices
      u.notices = if s.link.inbound.length < 8 then n
        else { n.setPending srcLink true with link := { n.link with overrun := true } })

/-- R181, R182: a frame whose check is wrong is discarded with CHECK: it joins no queue, restarts no watch, ends no HOST LOST. -/
def Clause.BadCheckIsDiscarded : Prop :=
  ∀ (f : Frame) (hi lo : Byte) (s : State), f.body.length ≤ 1024 → s.link.receiver = .hunt →
    [hi, lo] ≠ e16 (checkSum (f.bytes.drop 1).dropLast.dropLast) →
    Completes (.frameReceived (f.bytes.dropLast.dropLast ++ [hi, lo])) [.notices] s fun u =>
      u.notices =
        { s.notices.setPending srcLink true with link := { s.notices.link with check := true } }

/-- R180, R182: a length outside 2 to 1026 is discarded with LENGTH and the receiver is back in HUNT. -/
def Clause.BadLengthIsDiscarded : Prop :=
  ∀ (hi lo : Byte) (s : State), s.link.receiver = .hunt →
    (frameLength hi lo < 2 ∨ 1026 < frameLength hi lo) →
    Completes (.linkLengthError hi lo) [.notices] s fun u =>
      u.notices =
        { s.notices.setPending srcLink true with link := { s.notices.link with length := true } }

/-- R181, R182 (log entry 27: the event holds the bytes begun): when 50 ms pass inside a frame, it is discarded with GAP and the receiver is back in HUNT; the oscillator then reads 50 ms more, the model's choice (log entry 5). -/
def Clause.GapIsDiscarded : Prop :=
  ∀ (bytes : List Byte) (s : State), s.link.receiver = .hunt → frameBegun bytes = true →
    Completes (.gapTimerExpiry bytes) [.notices, .now] s fun u =>
      u.now = s.now + 50 ∧
      u.notices =
        { s.notices.setPending srcLink true with link := { s.notices.link with gap := true } }

/-- R190: when the watch timer of an enabled watch reaches the period, HOST LOST begins and the timer stops; the oscillator then reads at least that moment, the model's choice (log entry 5). -/
def Clause.HostLostBegins : Prop :=
  ∀ (s : State) (p f : Nat), s.link.watch = some p → s.link.watchFrom = some f →
    s.link.hostLost = false →
    Completes .hostLost [.link, .now] s fun u =>
      u.link = { s.link with hostLost := true, watchFrom := none } ∧
      u.now = max s.now (f + 1000 * p)

/-- R185, R187: the end of a frame frees the transmitter; a reply leaves the reply queue with it. -/
def Clause.EndOfFrameFreesTheTransmitter : Prop :=
  ∀ (s : State) (reply : Bool) (f : Frame), s.link.sending = some (reply, f) →
    Completes .transmitFrameEnd [.link] s fun u =>
      u.link = { s.link with
        sending := none
        replies := if reply then s.link.replies.tail else s.link.replies }

/-- R183, R184, R194: LNK_CTS is asserted exactly while the inbound queue holds fewer than 8 frames: a good frame that fills the queue deasserts it, the end of an event does not move it, an order that leaves a full queue asserts it, and every start asserts it. -/
def Clause.LnkCtsFollowsTheQueue : Prop :=
  (∀ l : Link, l.cts = true ↔ l.inbound.length < 8) ∧
  (∀ (f : Frame) (s : State), f.body.length ≤ 1024 → s.link.receiver = .hunt →
    ∃ u, exec (.frameReceived f.bytes) s = .next (settle u) ∧
      u.link.cts = decide (s.link.inbound.length + 1 < 8)) ∧
  (∀ s : State, (settle s).link.cts = s.link.cts) ∧
  (∀ kind tag r l, l.inbound.length ≤ 8 → (answeredLink kind tag r l).cts = true) ∧
  (∀ cause tag s, (startAs cause tag s).link.cts = true) ∧ State.reset.link.cts = true

/-- R180 to R182, R190, R185, R187: a wrong check, a bad length and a gap discard the frame and raise LINK; the watch timer's expiry begins HOST LOST; the end of a frame sent frees the transmitter; LNK_CTS follows the inbound queue. -/
def Obligations.LinkEventsDiscardLoseAndFree : Prop :=
  Clause.BadCheckIsDiscarded ∧
    Clause.BadLengthIsDiscarded ∧
    Clause.GapIsDiscarded ∧
    Clause.HostLostBegins ∧
    Clause.EndOfFrameFreesTheTransmitter ∧
    Clause.LnkCtsFollowsTheQueue

/-- R184: an order of a kind outside 01h to 35h is answered MALFORMED. -/
def Clause.UnassignedKindIsMalformed : Prop :=
  ∀ (kind tag : Byte) (body : List Byte) (s : State), (kind.toNat = 0 ∨ 0x35 < kind.toNat) →
    Takes ⟨kind, tag, body⟩ s → Refuses (.unassignedKind kind tag body) kind tag .malformed s

/-- R184: every order whose body is shorter than the fixed fields of its kind is answered MALFORMED. -/
def Clause.ShortBodyIsMalformed : Prop :=
  ∀ (i : Instr) (f : Frame) (s : State), orderFrame i = some f → kindAssigned f.kind = true →
    f.body.length < fixedLength f.kind → Takes f s → Refuses i f.kind f.tag .malformed s

/-- R184: unassigned kinds and short bodies. -/
def Obligations.MalformedOrdersAreRefused : Prop :=
  Clause.UnassignedKindIsMalformed ∧ Clause.ShortBodyIsMalformed

/-- R183, R184, R193, log entry 2: while a RESTART is held or the reply queue is full no order is dispatched: a frame at the head stays there, and any other joins the tail of the inbound queue, or is discarded with OVERRUN. -/
def Obligations.OrdersWaitForDispatch : Prop :=
  ∀ (i : Instr) (f : Frame) (s : State), orderFrame i = some f →
    (s.link.held.isSome = true ∨ 8 ≤ s.link.replies.length) →
    Completes i [.link, .notices] s fun u =>
      (s.link.inbound.head? = some f → u = s) ∧
      (s.link.inbound.head? ≠ some f → s.link.inbound.length < 8 →
        u = { s with link := { s.link with inbound := s.link.inbound ++ [f] } }) ∧
      (s.link.inbound.head? ≠ some f → 8 ≤ s.link.inbound.length →
        u.link = s.link ∧ u.notices = { s.notices.setPending srcLink true with
          link := { s.notices.link with overrun := true } })

/-- R184, Table 11-4: the frame of an order, in hand, is that order again: no field of it is dropped. -/
def Clause.OrderFrameIsTheOrder : Prop :=
  ∀ (i : Instr) (f : Frame), orderFrame i = some f → instrOfFrame f = i

/-- On an empty queue a step does the part's own next work, an order at the head of the inbound queue among it, or lets one millisecond pass (R184, log entry 4); and the frame of an order is that order. -/
def Obligations.IdleStepDoesThePartsWork : Prop :=
  Clause.IdleStepWorksOrWaits ∧ Clause.IdleStepDispatchesHead ∧ Clause.OrderFrameIsTheOrder

/-- R193: RESTART with a cause other than COLD and WARM is answered RANGE; otherwise it is held at the head of the inbound queue and draws no reply. -/
def Clause.RestartIsHeld : Prop :=
  ∀ (tag : Byte) (body : List Byte) (s : State), 1 ≤ body.length → Takes ⟨0x35#8, tag, body⟩ s →
    (2 ≤ u8 body 0 → Refuses (.restart tag body) 0x35#8 tag .range s) ∧
    (∀ c, (c = StartCause.cold ∧ u8 body 0 = 0) ∨ (c = StartCause.warm ∧ u8 body 0 = 1) →
      Completes (.restart tag body) [.link] s fun u =>
        u.link = { s.link with
          held := some (c, tag)
          inbound := ⟨0x35#8, tag, body⟩ :: s.link.inbound.tail })

/-- R193, R194: a held COLD restart, and power-on, take every block to its power-on value, and PART is raised with the cause; a byte that a typesetter line is sending is finished (R151), and only the pins and the oscillator stand. That the pins stand and that the byte is finished at power-on as well are log entry 20 (DEDUCED). -/
def Clause.ColdStartAndPowerOnBeginAfresh : Prop :=
  ∀ s : State,
    (∃ u, exec .powerOn s = .next (settle u) ∧
      u = { State.reset with
        channels := Vector.ofFn fun c => { Channel.reset with
          ready := s.channels[c].ready
          sending := match s.channels[c].sending with
            | .rest => .rest
            | .busy b _ => .busy b false }
        now := s.now
        pending := s.pending }) ∧
    (∀ tag, s.link.held = some (.cold, tag) → s.link.replies = [] → s.link.sending = none →
      ∃ u, exec .restartMade s = .next (settle u) ∧
        u = { State.reset with
          channels := Vector.ofFn fun c => { Channel.reset with
            ready := s.channels[c].ready
            sending := match s.channels[c].sending with
              | .rest => .rest
              | .busy b _ => .busy b false }
          link := { State.reset.link with lastCause := .cold }
          notices := { State.reset.notices with part := ⟨some .cold, tag, false⟩ }
          now := s.now
          pending := s.pending })

/-- R193, R194: RESTART is held; a COLD restart and power-on begin afresh. -/
def Obligations.RestartsAndPowerOnBeginAfresh : Prop :=
  Clause.RestartIsHeld ∧ Clause.ColdStartAndPowerOnBeginAfresh

/-- R193, R194 and the WARM rules of the chapters (R12, R14, R25, R41, R59, R69, R75, R97, R133, R143, R148, R151, R163, R189, R190): what a WARM restart keeps and what it ends; a byte that a typesetter line is sending is finished. -/
def Clause.WarmKeepsStoriesAndEndsWork : Prop :=
  ∀ (s : State) (tag : Byte), s.link.held = some (.warm, tag) → s.link.replies = [] →
    s.link.sending = none →
    Completes .restartMade
      [.stories, .pressure, .slots, .lines, .keys, .screens, .panes, .fit, .channels, .engine, .wires,
        .notices, .link] s fun u =>
      (∀ id st, storyOf s id = some st → ∃ st', storyOf u id = some st' ∧
        st' = { st with
          holding := .idle
          cut := st.cut || (st.holding.stateCode == 1)
          fit := { st.fit with
            status := if st.fit.status = .pending then .unknown else st.fit.status } }) ∧
      u.pressure = false ∧ u.keys = [] ∧ u.fit = ⟨[], none⟩ ∧
      (∀ t : Fin 32, u.slots[t] = none ∧ u.panes[t] = ⟨none, none⟩ ∧
        u.lines[t].attached = s.lines[t].attached ∧ u.lines[t].desk = s.lines[t].desk ∧
        u.lines[t].key = s.lines[t].key ∧ u.lines[t].layout = s.lines[t].layout ∧
        u.lines[t].format = s.lines[t].format ∧ u.lines[t].trigger = s.lines[t].trigger ∧
        u.lines[t].rx = [] ∧ u.lines[t].tx = [] ∧ u.lines[t].pfx = false ∧
        u.screens[t].base = s.screens[t].base ∧ u.screens[t].status = s.screens[t].status ∧
        u.screens[t].flash = none ∧ u.screens[t].bell = false) ∧
      (∀ c : Fin 4, u.channels[c].state = .idle ∧ u.channels[c].jobs = [] ∧
        u.channels[c].lines = [] ∧ u.channels[c].fifo = [] ∧ u.channels[c].grant = .none ∧
        ByteFinished s.channels[c].sending u.channels[c].sending ∧
        u.channels[c].ready = s.channels[c].ready ∧ u.channels[c].rate = s.channels[c].rate) ∧
      (u.engine = { s.engine with last := .fit, owner := none }) ∧
      (∀ w : Fin 4, u.wires[w].fifo = [] ∧ u.wires[w].format = s.wires[w].format ∧
        u.wires[w].intake = if s.wires[w].intake = .off then .off else .hunt) ∧
      (u.link.receiver = .hunt ∧ u.link.inbound = [] ∧ u.link.held = none ∧ u.link.replies = [] ∧
        u.link.watch = s.link.watch ∧ u.link.hostLost = false ∧ u.link.lastCause = .warm ∧
        u.link.lastSource = 47 ∧ u.link.watchFrom = s.link.watch.map (fun _ => s.now)) ∧
      (∀ i : Fin 48, u.notices.pending[i] = decide (i = srcPart)) ∧
      u.notices.part = ⟨some .warm, tag, false⟩

/-- R75, R96, R143, R161: a WARM restart keeps every terminal's mode, a rotation's dwell starting afresh, keeps every channel's settings, and adds the results of the jobs it ends to the finished list, the current job's with ABANDON not sent, the queued jobs' with not applicable, the last four being kept. -/
def Clause.WarmKeepsModesSettingsAndResults : Prop :=
  ∀ (s : State) (tag : Byte), s.link.held = some (.warm, tag) → s.link.replies = [] →
    s.link.sending = none →
    ∃ u, exec .restartMade s = .next (settle u) ∧
      (∀ t : Fin 32,
        ((∀ r, s.screens[t].mode ≠ .rotating r) → u.screens[t].mode = s.screens[t].mode) ∧
        ∀ r, s.screens[t].mode = .rotating r →
          u.screens[t].mode = .rotating { r with dwellFrom := s.now }) ∧
      ∀ c : Fin 4, u.channels[c].threshold = s.channels[c].threshold ∧
        u.channels[c].waitChoice = s.channels[c].waitChoice ∧
        u.channels[c].stallChoice = s.channels[c].stallChoice ∧
        (s.channels[c].jobs = [] → u.channels[c].finished = s.channels[c].finished) ∧
        ∀ j js all, s.channels[c].jobs = j :: js →
          all = s.channels[c].finished ++
            ⟨j.number, j.edition, .cancelled, j.entries.length, (j.entries.filter (·.sent)).length,
              .notSent⟩ ::
            js.map (fun q => ⟨q.number, q.edition, .cancelled, q.entries.length,
              (q.entries.filter (·.sent)).length, .notApplicable⟩) →
          u.channels[c].finished = all.drop (all.length - 4)

/-- R193, R194 and the WARM rules of the chapters: what a WARM restart keeps and what it ends. -/
def Obligations.WarmRestartKeepsTheStories : Prop :=
  Clause.WarmKeepsStoriesAndEndsWork ∧ Clause.WarmKeepsModesSettingsAndResults

/-- R189: SET LINK WATCH enables a disabled watch once, with the period brought into 1 to 60; an enabled watch refuses LOCKED with the period in force. Power-on and COLD disable it, WARM keeps it. -/
def Obligations.LinkWatchIsWriteOnce : Prop :=
  (∀ (tag : Byte) (body : List Byte) (s : State), 1 ≤ body.length → Takes ⟨0x33#8, tag, body⟩ s →
    (s.link.watch = none →
      ∃ u p, exec (.setLinkWatch tag body) s = .next (settle u) ∧
        p = max 1 (min 60 (u8 body 0)) ∧ KeepsBut [.link] s u ∧
        u.link = answeredLink 0x33#8 tag
          ⟨if p = u8 body 0 then .ok else .clamped, [BitVec.ofNat 8 p]⟩
          { s.link with watch := some p, watchFrom := some s.now }) ∧
    (∀ p, s.link.watch = some p →
      Reads (.setLinkWatch tag body) 0x33#8 tag ⟨.locked, [BitVec.ofNat 8 p]⟩ s)) ∧
  (∀ tag s, (startAs .powerOn tag s).link.watch = none ∧ (startAs .cold tag s).link.watch = none ∧
    (startAs .warm tag s).link.watch = s.link.watch)

/-! ### Copy memory and the Story Directory (spec/01) -/

/-- R3 to R6: an insertion puts the character at its point and nowhere else, in a chain that stays sound; it is refused only at the cap or for want of a block. With a full chain and no free block the cap is reported: the model's choice (log entry 19). -/
def Clause.InsertionPutsOneCharacter : Prop :=
  ∀ (m : Memory) (chain : List Nat) (k : Nat) (c : Byte), Memory.wf m → (∀ e ∈ m, e.1 < 8192) →
    ChainSound m chain → k ≤ chainLength m chain →
    (∀ m' chain', insertChar m chain k c = .made m' chain' →
      chainText m' chain' = (chainText m chain).take k ++ c :: (chainText m chain).drop k ∧
      ChainSound m' chain' ∧ Memory.wf m' ∧ (∀ b, b ∉ chain' → Memory.read m' b = Memory.read m b) ∧
      Memory.freeCount m' + chain'.length = Memory.freeCount m + chain.length) ∧
    (insertChar m chain k c = .atCap ↔
      chainLength m chain = 61440 ∨ (needsBlock m chain k = true ∧ chain.length = 256)) ∧
    (insertChar m chain k c = .poolEmpty ↔ needsBlock m chain k = true ∧ Memory.freeCount m = 0 ∧
      chain.length ≠ 256 ∧ chainLength m chain ≠ 61440) ∧
    (needsBlock m chain k = true ↔ chain = [] ∨ ∃ before b after p, chain = before ++ b :: after ∧
      chainLength m before + p = k ∧ p ≤ fill m b ∧ (p = 0 → before = []) ∧ fill m b = 240)

/-- R2, R4, R5: which block an insertion goes to: with no blocks, the lowest free block, which becomes the chain; otherwise block b, which holds the character before the insertion point, or the first block for point 0, at position p there. A block of 240 characters is split at 120 with the lowest free block, linked directly after it, and the half that holds the point takes the character. -/
def Clause.InsertionsTakeTheNamedBlock : Prop :=
  ∀ (m m' : Memory) (chain chain' : List Nat) (k : Nat) (c : Byte), Memory.wf m →
    (∀ e ∈ m, e.1 < 8192) → ChainSound m chain → insertChar m chain k c = .made m' chain' →
    (chain = [] → k = 0 → ∃ b, LowestFreeBlock m b ∧ chain' = [b] ∧
      Memory.read m' b = ⟨[c], true⟩ ∧ ∀ x, x ≠ b → Memory.read m' x = Memory.read m x) ∧
    ∀ before b after p, chain = before ++ b :: after → chainLength m before + p = k →
      p ≤ fill m b → (p = 0 → before = []) →
      (fill m b < 240 → chain' = chain ∧
        Memory.read m' b = ⟨(Memory.read m b).chars.insertIdx p c, true⟩ ∧
        ∀ x, x ≠ b → Memory.read m' x = Memory.read m x) ∧
      (fill m b = 240 → ∃ nb, LowestFreeBlock m nb ∧ chain' = before ++ b :: nb :: after ∧
        (p ≤ 120 → fill m' b = 121 ∧ fill m' nb = 120 ∧
          Memory.read m' b = ⟨((Memory.read m b).chars.take 120).insertIdx p c, true⟩ ∧
          Memory.read m' nb = ⟨(Memory.read m b).chars.drop 120, true⟩) ∧
        (120 < p → fill m' b = 120 ∧ fill m' nb = 121 ∧
          Memory.read m' b = ⟨(Memory.read m b).chars.take 120, true⟩ ∧
          Memory.read m' nb = ⟨((Memory.read m b).chars.drop 120).insertIdx (p - 120) c, true⟩) ∧
        ∀ x, x ≠ b → x ≠ nb → Memory.read m' x = Memory.read m x)

/-- R7: a deletion takes the character at its offset and nothing else; a block left empty is freed and its neighbour flagged, any other block that loses a character is flagged. -/
def Clause.DeletionTakesOneCharacter : Prop :=
  ∀ (m : Memory) (chain : List Nat) (k : Nat), Memory.wf m → ChainSound m chain →
    k < chainLength m chain →
    ∃ m' chain' freed, deleteChar m chain k = (m', chain', freed) ∧
      chainText m' chain' = (chainText m chain).eraseIdx k ∧ ChainSound m' chain' ∧ Memory.wf m' ∧
      (∀ b, b ∉ chain → Memory.read m' b = Memory.read m b) ∧
      (freed = true → ∃ b, locateChar m chain k = some (b, 0) ∧ fill m b = 1 ∧
        Memory.read m' b = Block.free ∧ chain' = chain.erase b ∧
        ∀ nb, chainNeighbour chain b = some nb → (Memory.read m' nb).changed = true) ∧
      (freed = false → chain' = chain ∧
        ∃ b p, locateChar m chain k = some (b, p) ∧ (Memory.read m' b).changed = true)

/-- R9, R5, R7: every block of the chain that an insertion or a deletion changes has its change flag set. -/
def Clause.ChangesFlagTheirBlocks : Prop :=
  ∀ (m : Memory) (chain : List Nat) (k : Nat) (c : Byte), Memory.wf m → ChainSound m chain →
    (∀ m' chain', insertChar m chain k c = .made m' chain' →
      ∀ b ∈ chain', Memory.read m' b = Memory.read m b ∨ (Memory.read m' b).changed = true) ∧
    ∀ m' chain' freed, deleteChar m chain k = (m', chain', freed) →
      ∀ b ∈ chain', Memory.read m' b = Memory.read m b ∨ (Memory.read m' b).changed = true

/-- R2 to R7, R9: an insertion puts one character into the block the rules name and a deletion takes one, neither touches anything else, and both flag the blocks they change. -/
def Obligations.InsertionsAndDeletionsAreExact : Prop :=
  Clause.InsertionPutsOneCharacter ∧
    Clause.InsertionsTakeTheNamedBlock ∧
    Clause.DeletionTakesOneCharacter ∧
    Clause.ChangesFlagTheirBlocks

/-- R13: a creation takes the lowest free identifier; there is none exactly where all 1024 are in use. -/
def Clause.FreshIdentifierIsTheLowest : Prop :=
  ∀ s : State, Tab.wf s.stories →
    (∀ id, freeStory? s = some id ↔ LowestFreeStory s id) ∧
    (freeStory? s = none ↔ ∀ id, 1 ≤ id → id ≤ 1024 → storyOf s id ≠ none)

/-- R18, R13: CREATE STORY's checks in order, and the story it puts in the directory and at the tail of its class in its basket. -/
def Clause.CreateStoryPutsAnIdleStory : Prop :=
  ∀ (tag : Byte) (body slug : List Byte) (s : State), 5 ≤ body.length →
    textAt body 5 (u8 body 4) = some slug → Takes ⟨0x01#8, tag, body⟩ s →
    (slug = [] → Refuses (.createStory tag body) 0x01#8 tag .malformed s) ∧
    (slug ≠ [] → (64 ≤ u8 body 0 ∨ 3 ≤ u8 body 1 ∨ 16 ≤ u8 body 2) →
      Refuses (.createStory tag body) 0x01#8 tag .range s) ∧
    (∀ (b : Fin 64) (p : Priority) (key : Fin 16), slug ≠ [] → u8 body 0 = b.val →
      u8 body 1 = p.code → u8 body 2 = key.val →
      (freeStory? s = none → Refuses (.createStory tag body) 0x01#8 tag .full s) ∧
      ∀ id, freeStory? s = some id →
        Replies (.createStory tag body) 0x01#8 tag
          ⟨if 16 < slug.length ∨ (∃ c ∈ slug.take 16, isText c = false) then .clamped else .ok,
            e16 id ++ [0, 0]⟩ [.stories, .baskets] s fun u =>
          u.stories = Tab.put s.stories id
            { slug := (slug.take 16).map plainByte, basket := b, priority := p, holding := .idle,
              key := key, embargo := flagAt body 3, garbled := false, cut := false, chain := [],
              version := 0, filed := stamp s, moved := none, origin := none,
              setting := (s.baskets[b].default).getD ⟨0, 18, 60, 20, 0, 0⟩,
              fit := ⟨.unknown, 0, 0, 0, 0, 0⟩ } ∧
          (∀ x : Fin 64, x ≠ b → u.baskets[x] = s.baskets[x]) ∧
          ∃ before after, s.baskets[b].list = before ++ after ∧
            u.baskets[b] = { s.baskets[b] with list := before ++ id :: after } ∧
            (∀ y ∈ before, ¬ (p.rank < classOf u y)) ∧ ∀ y, after.head? = some y → p.rank < classOf u y)

/-- R13, R18: CREATE STORY and the identifier a creation takes. -/
def Obligations.CreateStoryMakesAnIdleStory : Prop :=
  Clause.FreshIdentifierIsTheLowest ∧ Clause.CreateStoryPutsAnIdleStory

/-- R20: SET FLAGS writes both flags in every state and answers with their previous values. That a flag's yes is sent as 01h is the model's choice (log entry 8, DEDUCED). -/
def Obligations.SetFlagsWritesBothFlags : Prop :=
  ∀ (tag : Byte) (body : List Byte) (s : State), 4 ≤ body.length → Takes ⟨0x03#8, tag, body⟩ s →
    RefusesStory (.setFlags tag body) 0x03#8 tag (u16 body 0) s ∧
    ∀ st, 1 ≤ u16 body 0 → u16 body 0 ≤ 1024 → storyOf s (u16 body 0) = some st →
      Replies (.setFlags tag body) 0x03#8 tag ⟨.ok, eFlag st.garbled ++ eFlag st.cut⟩ [.stories] s
        fun u => u.stories = Tab.put s.stories (u16 body 0)
          { st with garbled := decide (u8 body 2 ≠ 0), cut := decide (u8 body 3 ≠ 0) }

/-- R21, R22: WRITE TEXT's checks in order; an order that passes deletes and inserts as one event, which is writeText with the clamped offset and count and the substituted text (what that does to the text is the statement WriteTextReplacesExactlyTheNamedText), raises the version by one where anything changed, and answers with the offset used, the new length and the new version. -/
def Obligations.WriteTextChecksAndWrites : Prop :=
  ∀ (tag : Byte) (body text : List Byte) (s : State) (st : Story), 11 ≤ body.length →
    textAt body 11 (u16 body 9) = some text → Takes ⟨0x04#8, tag, body⟩ s →
    RefusesStory (.writeText tag body) 0x04#8 tag (u16 body 0) s ∧
    (1 ≤ u16 body 0 → u16 body 0 ≤ 1024 → storyOf s (u16 body 0) = some st →
      (1000 < u16 body 9 → Refuses (.writeText tag body) 0x04#8 tag .range s) ∧
      (u16 body 9 ≤ 1000 → versionStale (optVersion body 2) st = true →
        Reads (.writeText tag body) 0x04#8 tag ⟨.stale, eWord st.version ++ e16 (lengthOf s st)⟩ s) ∧
      (u16 body 9 ≤ 1000 → versionStale (optVersion body 2) st = false → st.holding ≠ .idle →
        Refuses (.writeText tag body) 0x04#8 tag .locked s) ∧
      (u16 body 9 ≤ 1000 → versionStale (optVersion body 2) st = false → st.holding = .idle →
        ∀ off del, off = min (u16 body 5) (lengthOf s st) →
        del = min (u16 body 7) (lengthOf s st - off) →
        (noRoom s st del text.length = true → Refuses (.writeText tag body) 0x04#8 tag .full s) ∧
        (noRoom s st del text.length = false →
          ∃ u, exec (.writeText tag body) s = .next (settle u) ∧
            AnsweredBy 0x04#8 tag
              ⟨if off = u16 body 5 ∧ del = u16 body 7 ∧ (∀ c ∈ text, storyByte c = c) then .ok
                else .clamped,
                e16 off ++ e16 (lengthNow u (u16 body 0)) ++ eWord (versionNow u (u16 body 0))⟩
              [.stories, .memory, .notices, .pressure, .panes] s u ∧
            versionNow u (u16 body 0) =
              (if del = 0 ∧ text = [] then st.version else st.version + 1) ∧
            (del = 0 → text = [] → u.stories = s.stories ∧ u.memory = s.memory) ∧
            ∀ w, w = writeText (u16 body 0) off del (text.map storyByte) s →
              u.stories = w.stories ∧ u.memory = w.memory ∧ u.panes = w.panes ∧
              u.notices = w.notices ∧ u.pressure = w.pressure)))

/-- R21, R22: in a sound store, what WRITE TEXT does when its checks pass (WriteTextChecksAndWrites) replaces exactly the characters it names: afterwards the story's text is the old text with them deleted and the new text in their place, and no other story's text is changed. -/
def Obligations.WriteTextReplacesExactlyTheNamedText : Prop :=
  ∀ (id off del : Nat) (text : List Byte) (st : Story) (s : State), StoreSound s →
    storyOf s id = some st → off ≤ lengthOf s st → del ≤ lengthOf s st - off →
    noRoom s st del text.length = false →
    StoreSound (writeText id off del text s) ∧
    (∃ st', storyOf (writeText id off del text s) id = some st' ∧
      textOf (writeText id off del text s) st' =
        (textOf s st).take off ++ text ++ (textOf s st).drop (off + del) ∧
      { st' with chain := st.chain, version := st.version, fit := st.fit } = st) ∧
    ∀ other so, other ≠ id → storyOf s other = some so →
      storyOf (writeText id off del text s) other = some so ∧
        textOf (writeText id off del text s) so = textOf s so

/-- R24, R8, R115: SPIKE STORY's checks, and a spike: the blocks are free, the entry is gone, the basket closes up, the Fit Queue forgets it, the rise of the free count is followed by the recovery test, which raises POOL with RECOVERED where it passes, and every reference pane that showed it is cleared with WINDOW-CLOSED. -/
def Clause.SpikeStoryFreesEverything : Prop :=
  ∀ (tag : Byte) (body : List Byte) (s : State) (st : Story), 5 ≤ body.length →
    Takes ⟨0x06#8, tag, body⟩ s →
    RefusesStory (.spikeStory tag body) 0x06#8 tag (u16 body 0) s ∧
    (1 ≤ u16 body 0 → u16 body 0 ≤ 1024 → storyOf s (u16 body 0) = some st →
      (versionStale (optVersion body 2) st = true →
        Reads (.spikeStory tag body) 0x06#8 tag ⟨.stale, eWord st.version⟩ s) ∧
      (versionStale (optVersion body 2) st = false → st.holding ≠ .idle →
        Refuses (.spikeStory tag body) 0x06#8 tag .locked s) ∧
      (versionStale (optVersion body 2) st = false → st.holding = .idle → MemoryForm s →
        Replies (.spikeStory tag body) 0x06#8 tag ⟨.ok, e16 st.chain.length⟩
          [.memory, .stories, .notices, .pressure, .baskets, .fit, .panes] s fun u =>
          u.stories = Tab.erase s.stories (u16 body 0) ∧
          (∀ b, Memory.read u.memory b =
            if b ∈ st.chain then Block.free else Memory.read s.memory b) ∧
          (∀ x : Fin 64, u.baskets[x] = { s.baskets[x] with
            list := if x = st.basket then s.baskets[x].list.erase (u16 body 0)
              else s.baskets[x].list }) ∧
          (u.fit.list = s.fit.list.filter fun i => i.story ≠ u16 body 0) ∧
          PoolTested (decide (st.chain ≠ [])) s u ∧
          ∀ t : Fin 32, (refShows s t (u16 body 0) = true → u.panes[t].ref = none ∧
              u.notices.pending[srcTerminal t] = true ∧
              u.notices.terminal[t] = { s.notices.terminal[t] with windowClosed := true }) ∧
            (refShows s t (u16 body 0) = false → u.panes[t] = s.panes[t] ∧
              u.notices.terminal[t] = s.notices.terminal[t])))

/-- R10: CLEAR MARKS' checks in order; otherwise every flag of the story's chain is cleared, in IDLE, EDITING and FILING, and the reply counts the flags that were set. -/
def Clause.ClearMarksClearsTheChainsFlags : Prop :=
  ∀ (tag : Byte) (body : List Byte) (s : State) (st : Story), 5 ≤ body.length →
    Takes ⟨0x07#8, tag, body⟩ s →
    RefusesStory (.clearMarks tag body) 0x07#8 tag (u16 body 0) s ∧
    (1 ≤ u16 body 0 → u16 body 0 ≤ 1024 → storyOf s (u16 body 0) = some st →
      (versionStale (optVersion body 2) st = true →
        Reads (.clearMarks tag body) 0x07#8 tag ⟨.stale, eWord st.version⟩ s) ∧
      (versionStale (optVersion body 2) st = false → (∃ c, st.holding = .setting c) →
        Refuses (.clearMarks tag body) 0x07#8 tag .locked s) ∧
      (versionStale (optVersion body 2) st = false → (∀ c, st.holding ≠ .setting c) → MemoryForm s →
        Replies (.clearMarks tag body) 0x07#8 tag
          ⟨.ok, eWord st.version ++ e16 (st.chain.countP fun b => (Memory.read s.memory b).changed)⟩
          [.memory] s fun u => ∀ b, Memory.read u.memory b =
            if b ∈ st.chain then { Memory.read s.memory b with changed := false }
            else Memory.read s.memory b))

/-- R24, R10: SPIKE STORY and CLEAR MARKS. -/
def Obligations.SpikeAndClearMarks : Prop :=
  Clause.SpikeStoryFreesEverything ∧ Clause.ClearMarksClearsTheChainsFlags

/-- The orders that only read leave everything but the link as it was, and each is answered with what its owner computes from the state in which it is taken. -/
def Clause.ReadingOrdersChangeNothing : Prop :=
  ∀ (tag : Byte) (body : List Byte) (s : State),
    (2 ≤ body.length → Takes ⟨0x02#8, tag, body⟩ s →
      Reads (.readStory tag body) 0x02#8 tag (ownReadStory body s).2 s) ∧
    (6 ≤ body.length → Takes ⟨0x05#8, tag, body⟩ s →
      Reads (.readText tag body) 0x05#8 tag (ownReadText body s).2 s) ∧
    (1 ≤ body.length → Takes ⟨0x09#8, tag, body⟩ s →
      Reads (.readDesk tag body) 0x09#8 tag (ownReadDesk body s).2 s) ∧
    (4 ≤ body.length → Takes ⟨0x0B#8, tag, body⟩ s →
      Reads (.listBasket tag body) 0x0B#8 tag (ownListBasket body s).2 s) ∧
    (Takes ⟨0x11#8, tag, body⟩ s →
      Reads (.readClock tag body) 0x11#8 tag (ownReadClock body s).2 s) ∧
    (1 ≤ body.length → Takes ⟨0x17#8, tag, body⟩ s →
      Reads (.readTerminal tag body) 0x17#8 tag (ownReadTerminal body s).2 s) ∧
    (1 ≤ body.length → Takes ⟨0x1F#8, tag, body⟩ s →
      Reads (.readSession tag body) 0x1F#8 tag (ownReadSession body s).2 s) ∧
    (1 ≤ body.length → Takes ⟨0x23#8, tag, body⟩ s →
      Reads (.readWidths tag body) 0x23#8 tag (ownReadWidths body s).2 s) ∧
    (Takes ⟨0x26#8, tag, body⟩ s →
      Reads (.readFitQueue tag body) 0x26#8 tag (ownReadFitQueue body s).2 s) ∧
    (1 ≤ body.length → Takes ⟨0x2D#8, tag, body⟩ s →
      Reads (.readChannel tag body) 0x2D#8 tag (ownReadChannel body s).2 s) ∧
    (1 ≤ body.length → Takes ⟨0x2F#8, tag, body⟩ s →
      Reads (.readWireLine tag body) 0x2F#8 tag (ownReadWireLine body s).2 s) ∧
    (Takes ⟨0x31#8, tag, body⟩ s →
      Reads (.readSelection tag body) 0x31#8 tag (ownReadSelection body s).2 s) ∧
    (Takes ⟨0x34#8, tag, body⟩ s →
      Reads (.queryPart tag body) 0x34#8 tag (ownQueryPart body s).2 s)

/-- R19, R23: READ STORY and READ TEXT answer for a story in every state; READ TEXT clamps its offset and count and gives the characters from there on, behind a 2-byte count of them, the model's choice (log entry 8). -/
def Clause.StoriesAreReadInEveryState : Prop :=
  ∀ (tag : Byte) (body : List Byte) (s : State),
    (2 ≤ body.length → Takes ⟨0x02#8, tag, body⟩ s →
      RefusesStory (.readStory tag body) 0x02#8 tag (u16 body 0) s ∧
      ∀ st, 1 ≤ u16 body 0 → u16 body 0 ≤ 1024 → storyOf s (u16 body 0) = some st →
        Reads (.readStory tag body) 0x02#8 tag ⟨.ok, eStory s (u16 body 0) st⟩ s) ∧
    (6 ≤ body.length → Takes ⟨0x05#8, tag, body⟩ s →
      RefusesStory (.readText tag body) 0x05#8 tag (u16 body 0) s ∧
      ∀ st off n, 1 ≤ u16 body 0 → u16 body 0 ≤ 1024 → storyOf s (u16 body 0) = some st →
        off = min (u16 body 2) (lengthOf s st) → n = min (u16 body 4) 1000 →
        Reads (.readText tag body) 0x05#8 tag
          ⟨if off = u16 body 2 ∧ n = u16 body 4 then .ok else .clamped,
            e16 off ++ e16 (lengthOf s st) ++ eWord st.version ++
              e16 (((textOf s st).drop off).take n).length ++ ((textOf s st).drop off).take n⟩ s)

/-- R28, R32, R63, R98, R121, R162, R165, R192: the identities a reading order refuses, and the records READ DESK, READ SESSION, READ WIDTHS and QUERY PART give; that READ DESK's terminals have no count before them, that a flag's yes is sent as 01h, that a closed pane is sent as zeros, and the layout of QUERY PART's data, are the model's choice (log entry 8). -/
def Clause.ReadRepliesCarryTheRecords : Prop :=
  ∀ (tag : Byte) (body : List Byte) (s : State),
    (1 ≤ body.length → Takes ⟨0x09#8, tag, body⟩ s →
      (16 ≤ u8 body 0 → Refuses (.readDesk tag body) 0x09#8 tag .range s) ∧
      ∀ d : Fin 16, u8 body 0 = d.val →
        Reads (.readDesk tag body) 0x09#8 tag
          ⟨.ok, eFixed 12 s.desks[d].name ++ s.desks[d].row.toList.flatMap eRights ++
            ((List.finRange 32).filter fun t =>
              s.lines[t].attached && decide (s.lines[t].desk = d)).flatMap fun (t : Fin 32) => e8 t.val⟩ s) ∧
    (1 ≤ body.length → Takes ⟨0x1F#8, tag, body⟩ s →
      (32 ≤ u8 body 0 → Refuses (.readSession tag body) 0x1F#8 tag .range s) ∧
      ∀ t : Fin 32, u8 body 0 = t.val →
        Reads (.readSession tag body) 0x1F#8 tag
          ⟨.ok, (match s.panes[t].session with
              | none => List.replicate 9 0
              | some e => e16 e.story ++ e16 e.top ++ e16 e.cursor ++ e8 e.mode.code ++
                e8 e.focus.code ++ eFlag e.modified) ++
            (match s.panes[t].ref with
              | none => List.replicate 4 0
              | some r => e16 r.story ++ e16 r.top)⟩ s) ∧
    (1 ≤ body.length → Takes ⟨0x23#8, tag, body⟩ s →
      (8 ≤ u8 body 0 → Refuses (.readWidths tag body) 0x23#8 tag .range s) ∧
      ∀ f : Fin 8, u8 body 0 = f.val →
        Reads (.readWidths tag body) 0x23#8 tag
          ⟨.ok, eFlag s.faces[f].loaded ++ eWord s.faces[f].generation ++
            s.faces[f].widths.toList.flatMap e8 ++ e8 s.faces[f].minSpace ++
            e8 s.faces[f].maxSpace⟩ s) ∧
    (4 ≤ body.length → Takes ⟨0x0B#8, tag, body⟩ s → 64 ≤ u8 body 0 →
      Refuses (.listBasket tag body) 0x0B#8 tag .range s) ∧
    (1 ≤ body.length → Takes ⟨0x17#8, tag, body⟩ s → 32 ≤ u8 body 0 →
      Refuses (.readTerminal tag body) 0x17#8 tag .range s) ∧
    (1 ≤ body.length → Takes ⟨0x2D#8, tag, body⟩ s → 4 ≤ u8 body 0 →
      Refuses (.readChannel tag body) 0x2D#8 tag .range s) ∧
    (1 ≤ body.length → Takes ⟨0x2F#8, tag, body⟩ s → 4 ≤ u8 body 0 →
      Refuses (.readWireLine tag body) 0x2F#8 tag .range s) ∧
    (Takes ⟨0x34#8, tag, body⟩ s →
      Reads (.queryPart tag body) 0x34#8 tag
        ⟨.ok, [0x4D, 0x47, 0x00, 0x32, 0x00, 0x01] ++
          [8192, 1024, 64, 16, 32, 4, 4, 8, 4, 32, 64, 8, 8].flatMap e16 ++
          e8 s.link.lastCause.code ++ e8 s.clock.state.code ++ e16 (Memory.freeCount s.memory) ++
          (eFlag s.link.watch.isSome ++ e8 (s.link.watch.getD 0) ++ eFlag s.link.hostLost)⟩ s)

/-- R32, R63, R139, R162, R165: the replies of LIST BASKET, READ TERMINAL, READ FIT QUEUE, READ CHANNEL and READ WIRE LINE, item by item. That a detached terminal gives the whole record, the widths of the setting position's items and of the paragraph in READ FIT QUEUE, a setting position of zeros and the grant in flight where a channel has no current job, the zeros of an absent override, the counts before the jobs and the results, the engine's flag and client, 0000h for the length of no story and the error set's sum are the model's choice (log entry 8), and so are the effective levels in ROTATE (log entry 43). -/
def Clause.LongRepliesCarryTheRecords : Prop :=
  ∀ (tag : Byte) (body : List Byte) (s : State),
    (∀ (b : Fin 64) (start n : Nat), 4 ≤ body.length → Takes ⟨0x0B#8, tag, body⟩ s →
      u8 body 0 = b.val → start = min (u16 body 1) s.baskets[b].list.length →
      n = max 1 (min 24 (u8 body 3)) →
      Reads (.listBasket tag body) 0x0B#8 tag
        ⟨if start = u16 body 1 ∧ n = u8 body 3 then .ok else .clamped,
          eFixed 12 s.baskets[b].name ++ e8 s.baskets[b].edition ++
            e8 (basketEditionCode s s.baskets[b]) ++ eDefault s.baskets[b].default ++
            e16 s.baskets[b].list.length ++
            ((s.baskets[b].list.drop start).take n).flatMap (eItem s)⟩ s) ∧
    (∀ t : Fin 32, 1 ≤ body.length → Takes ⟨0x17#8, tag, body⟩ s → u8 body 0 = t.val →
      Reads (.readTerminal tag body) 0x17#8 tag
        ⟨.ok, eFlag s.lines[t].attached ++ e8 s.lines[t].desk ++ e8 s.lines[t].key ++
          e8 s.lines[t].layout.code ++ eFormat s.lines[t].format ++ e8 s.lines[t].trigger ++
          e8 s.screens[t].mode.code ++
          e8 (match s.screens[t].mode with
            | .watching x => x.val
            | _ => 0xFF) ++
          e16 (match s.panes[t].session with
            | none => 0
            | some e => e.story) ++
          e16 (match s.panes[t].ref with
            | none => 0
            | some r => r.story) ++
          eFlag s.slots[t].isSome ++ e16 s.lines[t].rx.length ++ e16 s.lines[t].tx.length ++
          eFlag s.lines[t].pfx⟩ s) ∧
    (Takes ⟨0x26#8, tag, body⟩ s →
      Reads (.readFitQueue tag body) 0x26#8 tag
        ⟨.ok, e16 s.fit.list.length ++
          (s.fit.list.flatMap fun i => e16 i.story ++ e16 i.restarts) ++
          match s.fit.progress with
          | none => []
          | some p => if p.abandoned then [] else
            eWord p.version ++ e16 p.resume.para ++ e16 p.lines ++ eFlag p.inFlight⟩ s) ∧
    (∀ c : Fin 4, 1 ≤ body.length → Takes ⟨0x2D#8, tag, body⟩ s → u8 body 0 = c.val →
      Reads (.readChannel tag body) 0x2D#8 tag
        ⟨.ok, e8 s.channels[c].state.code ++
          (e16 s.channels[c].rate ++ e8 s.channels[c].threshold ++ e8 s.channels[c].waitChoice ++
            e8 s.channels[c].stallChoice) ++ eFlag s.channels[c].ready ++
          e16 s.channels[c].jobs.length ++ s.channels[c].jobs.flatMap eJob ++
          ePosition s.channels[c].pos ++ e8 s.channels[c].grant.code ++
          e16 s.channels[c].lines.length ++ e16 s.channels[c].fifo.length ++
          eFlag s.channels[c].batchOpen ++ e16 s.channels[c].finished.length ++
          s.channels[c].finished.flatMap eResult ++
          (e8 s.engine.mode.code ++ s.engine.levels.toList.flatMap e8 ++
            [Client.channel 0, .channel 1, .channel 2, .channel 3, .fit].flatMap
              (fun k => e8 (effectiveLevel s k)) ++
            e8 s.engine.last.code ++
            match s.engine.owner with
            | none => [0, 0]
            | some k => 1 :: e8 k.code)⟩ s) ∧
    ∀ (w : Fin 4) (id : Nat), 1 ≤ body.length → Takes ⟨0x2F#8, tag, body⟩ s → u8 body 0 = w.val →
      (s.wires[w].intake = .text id ∨ id = 0 ∧ ∀ x, s.wires[w].intake ≠ .text x) →
      Reads (.readWireLine tag body) 0x2F#8 tag
        ⟨.ok, eFlag (decide (s.wires[w].intake ≠ .off)) ++ eFormat s.wires[w].format ++
          e8 s.wires[w].intake.code ++ e16 id ++ e16 (lengthNow s id) ++
          e16 s.wires[w].fifo.length ++
          e8 ((if s.notices.wire[w].character then 1 else 0) +
            (if s.notices.wire[w].overrun then 2 else 0) +
            (if s.notices.wire[w].header then 4 else 0) +
            (if s.notices.wire[w].cut then 8 else 0)) ++
          e16 s.notices.wire[w].filed ++ e16 s.notices.wire[w].dropped ++ e16 s.reserve⟩ s

/-- R19, R23 and the other reading orders. -/
def Obligations.ReadsAnswerAndChangeNothing : Prop :=
  Clause.ReadingOrdersChangeNothing ∧
    Clause.StoriesAreReadInEveryState ∧
    Clause.ReadRepliesCarryTheRecords ∧
    Clause.LongRepliesCarryTheRecords

/-! ### Desks, baskets, messages (spec/02) -/

/-- R33: the view check and the change check of a terminal key against a story. -/
def Obligations.ViewAndChangeChecks : Prop :=
  ∀ (key : Fin 16) (st : Story),
    (viewCheck key st = true ↔ key = 0 ∨ st.embargo = false ∨ key = st.key) ∧
    (changeCheck key st = true ↔ key = 0 ∨ st.key = 0 ∨ key = st.key)

/-- R35, R117: after the pane re-check of a terminal no pane tested shows what it must not. Each pane that fails is closed with WINDOW-CLOSED, a session's story returning to IDLE with its text kept, with a fit offer exactly where the session was modified; a pane that passes is left as it was, whether the other fails or not, but for a focus on a reference pane that is cleared; no other terminal's panes or events change. -/
def Obligations.PaneRecheckClosesWhatFails : Prop :=
  ∀ (only : Option Nat) (t : Fin 32) (s : State),
    KeepsBut [.stories, .fit, .panes, .notices] s (recheck only t s) ∧
    PanesRechecked only t s (recheck only t s) ∧
    (sessionFails s t only = false → refFails s t only = false → recheck only t s = s) ∧
    (∀ e st, s.panes[t].session = some e → storyOf s e.story = some st →
      sessionFails s t only = true →
      SessionEnded s (recheck only t s) e st) ∧
    (sessionFails s t only = false →
      (recheck only t s).stories = s.stories ∧ (recheck only t s).fit = s.fit) ∧
    ∀ u : Fin 32, u ≠ t → (recheck only t s).panes[u] = s.panes[u] ∧
      (recheck only t s).notices.terminal[u] = s.notices.terminal[u]

/-- R27: SET DESK's checks; otherwise the name and the 64 rights replace the old ones, and the pane re-check follows at the attached terminals of the desk (in ascending order: log entry 39): there each pane that fails under the new rights is closed or cleared with WINDOW-CLOSED and a pane that passes stays, and the reply counts the sessions closed and the reference panes cleared. -/
def Clause.SetDeskReplacesNameAndRights : Prop :=
  ∀ (tag : Byte) (body : List Byte) (s : State), 2 ≤ body.length → Takes ⟨0x08#8, tag, body⟩ s →
    (16 ≤ u8 body 0 → Refuses (.setDesk tag body) 0x08#8 tag .range s) ∧
    (u8 body 0 < 16 → body.length < 2 + u8 body 1 + 64 →
      Refuses (.setDesk tag body) 0x08#8 tag .malformed s) ∧
    ∀ d : Fin 16, u8 body 0 = d.val → 2 + u8 body 1 + 64 ≤ body.length →
      ∃ r s1, Replies (.setDesk tag body) 0x08#8 tag r [.desks, .stories, .fit, .panes, .notices] s
        fun u =>
        s1 = { s with desks := u.desks } ∧
        r.result = (if u8 body 1 ≤ 12 ∧
          (∀ c ∈ ((body.drop 2).take (u8 body 1)).take 12, isText c = true) then .ok else .clamped) ∧
        u.desks[d].name = (((body.drop 2).take (u8 body 1)).take 12).map plainByte ∧
        (∀ b : Fin 64, u.desks[d].row[b] = rightsOf (body.getD (2 + u8 body 1 + b) 0)) ∧
        (∀ x : Fin 16, x ≠ d → u.desks[x] = s.desks[x]) ∧
        r.data = e16 ((List.finRange 32).countP fun t => s.lines[t].attached &&
            decide (s.lines[t].desk = d) && sessionFails s1 t none) ++
          e16 ((List.finRange 32).countP fun t => s.lines[t].attached &&
            decide (s.lines[t].desk = d) && refFails s1 t none) ∧
        (∀ t : Fin 32, s.lines[t].attached = true → s.lines[t].desk = d →
          PanesRechecked none t s1 u) ∧
        ∀ t : Fin 32, ¬ (s.lines[t].attached = true ∧ s.lines[t].desk = d) →
          u.panes[t] = s.panes[t] ∧ u.notices.terminal[t] = s.notices.terminal[t]

/-- R30: SET BASKET's checks; otherwise name, edition and default setting replace the old ones and the story list is kept. -/
def Clause.SetBasketKeepsTheList : Prop :=
  ∀ (tag : Byte) (body name : List Byte) (s : State), 15 ≤ body.length →
    textAt body 15 (u8 body 14) = some name → Takes ⟨0x0A#8, tag, body⟩ s →
    (64 ≤ u8 body 0 ∨ 5 ≤ u8 body 1 ∨ (u8 body 2 ≠ 0 ∧ 8 ≤ u8 body 3) →
      Refuses (.setBasket tag body) 0x0A#8 tag .range s) ∧
    ∀ (b : Fin 64) (e : Fin 5) (d : Option Setting), u8 body 0 = b.val → u8 body 1 = e.val →
      (u8 body 2 = 0 ∧ d = none ∨ u8 body 2 ≠ 0 ∧ ∃ x, settingAt body 3 = some x ∧
        d = some (clampSetting x)) →
      ∃ r : ResultCode, (r = if name.length ≤ 12 ∧ (∀ c ∈ name.take 12, isText c = true) ∧
          (u8 body 2 = 0 ∨ ∃ x, settingAt body 3 = some x ∧ clampSetting x = x) then .ok
        else .clamped) ∧
        Replies (.setBasket tag body) 0x0A#8 tag ⟨r, []⟩ [.baskets] s fun u =>
        u.baskets[b] = ⟨(name.take 12).map plainByte, e, d, s.baskets[b].list⟩ ∧
        ∀ x : Fin 64, x ≠ b → u.baskets[x] = s.baskets[x]

/-- R27, R30: SET DESK and SET BASKET. -/
def Obligations.DesksAndBasketsAreReplaced : Prop :=
  Clause.SetDeskReplacesNameAndRights ∧ Clause.SetBasketKeepsTheList

/-- R36 step 1: MOVE STORY refuses RANGE for a story, a target basket or an expected basket out of range, before anything else, and then NO-SUCH for a free story. -/
def Clause.MoveStoryChecksIdentities : Prop :=
  ∀ (tag : Byte) (body : List Byte) (s : State), 9 ≤ body.length → Takes ⟨0x0C#8, tag, body⟩ s →
    (u16 body 0 = 0 ∨ 1024 < u16 body 0 ∨ 64 ≤ u8 body 2 ∨
        (u8 body 4 ≠ 0xFF ∧ 64 ≤ u8 body 4) →
      Refuses (.moveStory tag body) 0x0C#8 tag .range s) ∧
    (1 ≤ u16 body 0 → u16 body 0 ≤ 1024 → u8 body 2 < 64 → (u8 body 4 = 0xFF ∨ u8 body 4 < 64) →
      storyOf s (u16 body 0) = none → Refuses (.moveStory tag body) 0x0C#8 tag .noSuch s)

/-- R36 to R38: MOVE STORY's refusals in their order, for a story in use and identities in range; LOCKED carries the state and the lock holder. That R38's holding terminal is sent as the lock holder's byte is the model's choice (log entry 8). -/
def Clause.MoveStoryRefusals : Prop :=
  ∀ (tag : Byte) (body : List Byte) (s : State) (st : Story) (target : Fin 64),
    9 ≤ body.length → Takes ⟨0x0C#8, tag, body⟩ s → u8 body 2 = target.val →
    expectedBasketBad body = false → 1 ≤ u16 body 0 → u16 body 0 ≤ 1024 →
    storyOf s (u16 body 0) = some st →
    (u8 body 3 ≠ 0xFF → 32 ≤ u8 body 3 → Refuses (.moveStory tag body) 0x0C#8 tag .range s) ∧
    (∀ t : Fin 32, u8 body 3 = t.val → s.lines[t].attached = false →
      Refuses (.moveStory tag body) 0x0C#8 tag .noSuch s) ∧
    ∀ acting : Option (Fin 32),
      (acting = none ∧ u8 body 3 = 0xFF ∨
        ∃ t : Fin 32, acting = some t ∧ u8 body 3 = t.val ∧ s.lines[t].attached = true) →
      (moveStale body st = true →
        Reads (.moveStory tag body) 0x0C#8 tag ⟨.stale, e8 st.basket ++ eWord st.version⟩ s) ∧
      (moveStale body st = false → mayMove s acting st target = false →
        Refuses (.moveStory tag body) 0x0C#8 tag .denied s) ∧
      (moveStale body st = false → mayMove s acting st target = true →
        ((∃ w, st.holding = .filing w) ∨ (∃ c, st.holding = .setting c) ∨
          ∃ t, st.holding = .editing t ∧ ¬ (u8 body 8 ≠ 0 ∧ acting = some t)) →
        Reads (.moveStory tag body) 0x0C#8 tag
          ⟨.locked, e8 st.holding.stateCode ++ e8 st.holding.holderCode⟩ s)

/-- R37, R31, R35: the move of an IDLE story: it leaves its basket's list, takes the target basket and the moved time, and joins the target's list at the tail of its class; its other fields stand; the panes that show it are re-checked at every attached terminal against the new basket, and no other terminal's panes change; the reply carries the new basket, its position there, the version and the moved time. -/
def Clause.MoveStoryMovesAnIdleStory : Prop :=
  ∀ (tag : Byte) (body : List Byte) (s : State) (st : Story) (target : Fin 64)
    (acting : Option (Fin 32)),
    9 ≤ body.length → Takes ⟨0x0C#8, tag, body⟩ s → u8 body 2 = target.val →
    expectedBasketBad body = false → 1 ≤ u16 body 0 → u16 body 0 ≤ 1024 →
    storyOf s (u16 body 0) = some st →
    (acting = none ∧ u8 body 3 = 0xFF ∨
      ∃ t : Fin 32, acting = some t ∧ u8 body 3 = t.val ∧ s.lines[t].attached = true) →
    moveStale body st = false → mayMove s acting st target = true → st.holding = .idle →
    (∀ t : Fin 32, ∀ e, s.panes[t].session = some e → e.story ≠ u16 body 0) →
    ∃ r, Replies (.moveStory tag body) 0x0C#8 tag r [.stories, .baskets, .panes, .notices] s
      fun u =>
      r = ⟨.ok, e8 target ++ e16 (u.baskets[target].list.idxOf (u16 body 0)) ++ eWord st.version ++
        eTime (stamp s)⟩ ∧
      storyOf u (u16 body 0) = some { st with basket := target, moved := stamp s } ∧
      (∀ id, id ≠ u16 body 0 → storyOf u id = storyOf s id) ∧
      (∀ s1, s1 = setStory (u16 body 0) { st with basket := target, moved := stamp s } s →
        ∀ t : Fin 32, (s.lines[t].attached = true →
            PanesRechecked (some (u16 body 0)) t s1 u) ∧
          (s.lines[t].attached = false →
            u.panes[t] = s.panes[t] ∧ u.notices.terminal[t] = s.notices.terminal[t])) ∧
      (∀ x : Fin 64, x ≠ st.basket → x ≠ target → u.baskets[x] = s.baskets[x]) ∧
      (st.basket ≠ target →
        u.baskets[st.basket].list = s.baskets[st.basket].list.erase (u16 body 0)) ∧
      JoinsTail u st.priority.rank (u16 body 0)
        (if st.basket = target then s.baskets[target].list.erase (u16 body 0)
          else s.baskets[target].list) u.baskets[target].list

/-- R38, R37, R35, R116, R134: MOVE STORY with the close flag set and the holder acting: the edit session is closed without TERMINAL notice, the story returns to IDLE with its text kept and is offered to the Fit Queue if the session was modified, and the move is made as the same event, with the pane re-check at every attached terminal; the reply adds the mark of the close. That the mark is sent as 01h is the model's choice (log entry 8, DEDUCED). -/
def Clause.MoveStoryClosesTheHoldersSession : Prop :=
  ∀ (tag : Byte) (body : List Byte) (s : State) (st : Story) (target : Fin 64) (t : Fin 32)
    (e : Session),
    9 ≤ body.length → Takes ⟨0x0C#8, tag, body⟩ s → u8 body 2 = target.val →
    expectedBasketBad body = false → 1 ≤ u16 body 0 → u16 body 0 ≤ 1024 →
    storyOf s (u16 body 0) = some st → u8 body 3 = t.val → s.lines[t].attached = true →
    moveStale body st = false → mayMove s (some t) st target = true → st.holding = .editing t →
    u8 body 8 ≠ 0 → s.panes[t].session = some e → e.story = u16 body 0 →
    (∀ x : Fin 32, x ≠ t → ∀ e, s.panes[x].session = some e → e.story ≠ u16 body 0) →
    ∃ r, Replies (.moveStory tag body) 0x0C#8 tag r [.stories, .baskets, .fit, .panes, .notices] s
      fun u =>
      r = ⟨.ok, e8 target ++ e16 (u.baskets[target].list.idxOf (u16 body 0)) ++ eWord st.version ++
        eTime (stamp s) ++ [1]⟩ ∧
      SessionEnded s u e { st with basket := target, moved := stamp s } ∧
      (∀ id, id ≠ u16 body 0 → storyOf u id = storyOf s id) ∧
      u.panes[t].session = none ∧
      (∀ s1, s1 = { setStory (u16 body 0)
            { st with basket := target, moved := stamp s, holding := .idle } s with
          panes := s.panes.set t { s.panes[t] with session := none } } →
        ∀ x : Fin 32, (s.lines[x].attached = true →
            PanesRechecked (some (u16 body 0)) x s1 u) ∧
          (s.lines[x].attached = false →
            u.panes[x] = s.panes[x] ∧ u.notices.terminal[x] = s.notices.terminal[x])) ∧
      ((∀ x : Fin 32, ∀ r, s.panes[x].ref = some r → r.story ≠ u16 body 0) →
        u.notices = s.notices) ∧
      (∀ x : Fin 64, x ≠ st.basket → x ≠ target → u.baskets[x] = s.baskets[x]) ∧
      (st.basket ≠ target →
        u.baskets[st.basket].list = s.baskets[st.basket].list.erase (u16 body 0)) ∧
      JoinsTail u st.priority.rank (u16 body 0)
        (if st.basket = target then s.baskets[target].list.erase (u16 body 0)
          else s.baskets[target].list) u.baskets[target].list

/-- R36 to R38: MOVE STORY. -/
def Obligations.MoveStoryChecksAndMoves : Prop :=
  Clause.MoveStoryChecksIdentities ∧
    Clause.MoveStoryRefusals ∧
    Clause.MoveStoryMovesAnIdleStory ∧
    Clause.MoveStoryClosesTheHoldersSession

/-- R39, R40 (log entry 37: RANGE for a story in use too): SET STORY KEY is taken in every state of the story; every reply to a story in use carries the key and embargo as found, RANGE for a key out of range with any other story carries nothing, and the new pair is written unless the expected pair differs. That the embargo's yes is sent as 01h is the model's choice (log entry 8, DEDUCED). The pane re-check follows at every attached terminal, for the panes that show the story (in ascending order: log entry 39): a session that fails is closed with its text kept and its story IDLE, and no other story's entry is changed. -/
def Obligations.SetStoryKeyWritesThePair : Prop :=
  ∀ (tag : Byte) (body : List Byte) (s : State), 7 ≤ body.length → Takes ⟨0x0D#8, tag, body⟩ s →
    (∀ st, storyOf s (u16 body 0) = some st →
      (16 ≤ u8 body 2 ∨ (u8 body 4 ≠ 0 ∧ 16 ≤ u8 body 5) →
        Reads (.setStoryKey tag body) 0x0D#8 tag ⟨.range, e8 st.key ++ eFlag st.embargo⟩ s)) ∧
    (storyOf s (u16 body 0) = none → (16 ≤ u8 body 2 ∨ (u8 body 4 ≠ 0 ∧ 16 ≤ u8 body 5)) →
      Refuses (.setStoryKey tag body) 0x0D#8 tag .range s) ∧
    ∀ key : Fin 16, u8 body 2 = key.val → (u8 body 4 = 0 ∨ u8 body 5 < 16) →
      RefusesStory (.setStoryKey tag body) 0x0D#8 tag (u16 body 0) s ∧
      ∀ st, 1 ≤ u16 body 0 → u16 body 0 ≤ 1024 → storyOf s (u16 body 0) = some st →
        (u8 body 4 ≠ 0 → (u8 body 5 ≠ st.key.val ∨ decide (u8 body 6 ≠ 0) ≠ st.embargo) →
          Reads (.setStoryKey tag body) 0x0D#8 tag ⟨.stale, e8 st.key ++ eFlag st.embargo⟩ s) ∧
        (u8 body 4 = 0 ∨ (u8 body 5 = st.key.val ∧ decide (u8 body 6 ≠ 0) = st.embargo) →
          Replies (.setStoryKey tag body) 0x0D#8 tag ⟨.ok, e8 st.key ++ eFlag st.embargo⟩
            [.stories, .fit, .panes, .notices] s fun u =>
            (∃ so, storyOf u (u16 body 0) = some so ∧
              { so with fit := st.fit, holding := st.holding } =
                { st with key := key, embargo := decide (u8 body 3 ≠ 0) } ∧
              (so.holding = st.holding ∨ so.holding = .idle) ∧
              ∀ s1, s1 = setStory (u16 body 0)
                  { st with key := key, embargo := decide (u8 body 3 ≠ 0) } s →
                (∀ t : Fin 32, s.lines[t].attached = true →
                  PanesRechecked (some (u16 body 0)) t s1 u ∧
                  (sessionFails s1 t (some (u16 body 0)) = true → so.holding = .idle)) ∧
                ((∀ t : Fin 32, s.lines[t].attached = true →
                    sessionFails s1 t (some (u16 body 0)) = false) →
                  u.stories = s1.stories ∧ u.fit = s.fit)) ∧
            (∀ t : Fin 32, s.lines[t].attached = false →
              u.panes[t] = s.panes[t] ∧ u.notices.terminal[t] = s.notices.terminal[t]) ∧
            ∀ id, id ≠ u16 body 0 → storyOf u id = storyOf s id)

/-- R42: SEND MESSAGE to a terminal, and its checks. -/
def Clause.MessageToATerminal : Prop :=
  ∀ (tag : Byte) (body text : List Byte) (s : State), 4 ≤ body.length →
    textAt body 4 (u8 body 3) = some text → Takes ⟨0x0E#8, tag, body⟩ s →
    (text = [] → Refuses (.sendMessage tag body) 0x0E#8 tag .malformed s) ∧
    (text ≠ [] → 16 ≤ u8 body 2 ∨ (u8 body 0 = 0 ∧ 32 ≤ u8 body 1) ∨
        (u8 body 0 = 1 ∧ 16 ≤ u8 body 1) ∨ 2 ≤ u8 body 0 →
      Refuses (.sendMessage tag body) 0x0E#8 tag .range s) ∧
    ∀ (t : Fin 32) (d : Fin 16), text ≠ [] → u8 body 0 = 0 → u8 body 1 = t.val →
      u8 body 2 = d.val →
      (s.lines[t].attached = false → Refuses (.sendMessage tag body) 0x0E#8 tag .noSuch s) ∧
      (s.lines[t].attached = true → s.slots[t].isSome = true →
        Refuses (.sendMessage tag body) 0x0E#8 tag .full s) ∧
      (s.lines[t].attached = true → s.slots[t] = none →
        Replies (.sendMessage tag body) 0x0E#8 tag
          ⟨if text.length ≤ 60 ∧ (∀ c ∈ text.take 60, isText c = true) then .ok else .clamped, []⟩
          [.slots] s fun u =>
          u.slots = s.slots.set t (some ⟨(text.take 60).map plainByte, d⟩))

/-- R43: SEND MESSAGE to a desk fills the empty slots of its attached terminals and counts the delivered and the busy. That a cut or substituted text is answered CLAMPED also where the desk has no attached terminal, with both counts 0, is the model's choice (log entry 38). -/
def Clause.MessageToADesk : Prop :=
  ∀ (tag : Byte) (body text : List Byte) (s : State) (d sender : Fin 16), 4 ≤ body.length →
    textAt body 4 (u8 body 3) = some text → Takes ⟨0x0E#8, tag, body⟩ s → text ≠ [] →
    u8 body 0 = 1 → u8 body 1 = d.val → u8 body 2 = sender.val →
    ∃ delivered busy,
      delivered = (List.finRange 32).countP (fun t =>
        s.lines[t].attached && decide (s.lines[t].desk = d) && s.slots[t].isNone) ∧
      busy = (List.finRange 32).countP (fun t =>
        s.lines[t].attached && decide (s.lines[t].desk = d) && s.slots[t].isSome) ∧
      Replies (.sendMessage tag body) 0x0E#8 tag
        ⟨if text.length ≤ 60 ∧ (∀ c ∈ text.take 60, isText c = true) then .ok else .clamped,
          e16 delivered ++ e16 busy⟩ [.slots] s fun u =>
        ∀ t : Fin 32, u.slots[t] =
          if s.lines[t].attached = true ∧ s.lines[t].desk = d ∧ s.slots[t] = none
          then some ⟨(text.take 60).map plainByte, sender⟩ else s.slots[t]

/-- R42, R43: SEND MESSAGE. -/
def Obligations.MessagesFillEmptySlots : Prop :=
  Clause.MessageToATerminal ∧ Clause.MessageToADesk

/-! ### Clock and editions (spec/03) -/

/-- R52: the passage test makes PASSED exactly the ARMED editions whose time is at or before a set clock, and raises their EDITION notices. -/
def Clause.PassageTestPassesWhatIsDue : Prop :=
  ∀ (s : State) (e : Fin 4),
    KeepsBut [.editions, .notices] s (passageTests s) ∧
    (passageTests s).editions[e].time = s.editions[e].time ∧
    ((s.clock.state ≠ .unset ∧ s.editions[e].state = .armed ∧
        s.editions[e].time ≤ s.clock.value) →
      (passageTests s).editions[e].state = .passed ∧
      (passageTests s).notices.pending[srcEdition e] = true) ∧
    (¬ (s.clock.state ≠ .unset ∧ s.editions[e].state = .armed ∧
        s.editions[e].time ≤ s.clock.value) →
      (passageTests s).editions[e].state = s.editions[e].state ∧
      (passageTests s).notices.pending[srcEdition e] = s.notices.pending[srcEdition e])

/-- R46: a tick of a RUNNING clock adds one second, 86399 is followed by 0, and every edition is tested; while the clock is STOPPED or UNSET no tick comes, and the command changes nothing (log entry 1). That the oscillator then reads at least the moment of the tick is the model's choice (log entry 5). -/
def Clause.ClockTickAdvancesAndTests : Prop :=
  ∀ s : State,
    (s.clock.state = .running →
      Completes .clockTick [.clock, .editions, .notices, .now] s fun u =>
        u.clock.state = .running ∧
        u.clock.value = (if s.clock.value + 1 < 86400 then s.clock.value + 1 else 0) ∧
        u.clock.tickFrom = s.clock.tickFrom + 1000 ∧
        u.now = max s.now (s.clock.tickFrom + 1000) ∧
        ∀ e : Fin 4, u.editions[e].time = s.editions[e].time ∧
          (u.editions[e].state = .passed ↔ s.editions[e].state = .passed ∨
            (s.editions[e].state = .armed ∧ s.editions[e].time ≤ u.clock.value))) ∧
    (s.clock.state ≠ .running → Completes .clockTick [] s fun _ => True)

/-- R47: SET CLOCK refuses a time above 86399; otherwise the clock takes the time and the state, the tick is counted from now, every ARMED edition is tested, and the reply carries the old and new clock and the editions passed, a byte each (log entry 8). -/
def Clause.SetClockTakesTheTime : Prop :=
  ∀ (tag : Byte) (body : List Byte) (s : State), 4 ≤ body.length → Takes ⟨0x0F#8, tag, body⟩ s →
    (86399 < u24 body 0 → Refuses (.setClock tag body) 0x0F#8 tag .range s) ∧
    (u24 body 0 ≤ 86399 → ∃ c : Clock, ∃ passed : List (Fin 4),
      c = ⟨if u8 body 3 ≠ 0 then .stopped else .running, u24 body 0, s.now⟩ ∧
      passed = (List.finRange 4).filter (fun e =>
        decide (s.editions[e].state = .armed) && decide (s.editions[e].time ≤ u24 body 0)) ∧
      Replies (.setClock tag body) 0x0F#8 tag
        ⟨.ok, (e8 s.clock.state.code ++ e24 (if s.clock.state = .unset then 0 else s.clock.value)) ++
            (e8 c.state.code ++ e24 c.value) ++
          passed.flatMap fun (e : Fin 4) => e8 (e.val + 1)⟩ [.clock, .editions, .notices] s fun u =>
        u.clock = c ∧ ∀ e : Fin 4, u.editions[e] =
          { s.editions[e] with state := if e ∈ passed then .passed else s.editions[e].state } ∧
          (e ∈ passed → u.notices.pending[srcEdition e] = true))

/-- R46, R47, R52: the tick, SET CLOCK and the passage test. -/
def Obligations.PassagesFollowTickAndSetClock : Prop :=
  Clause.PassageTestPassesWhatIsDue ∧
    Clause.ClockTickAdvancesAndTests ∧
    Clause.SetClockTakesTheTime

/-- R48: START CLOCK in each state of the clock. -/
def Clause.StartClockInEachState : Prop :=
  ∀ (tag : Byte) (body : List Byte) (s : State), Takes ⟨0x10#8, tag, body⟩ s →
    (s.clock.state = .unset →
      Reads (.startClock tag body) 0x10#8 tag ⟨.busy, e8 0 ++ e24 0⟩ s) ∧
    (s.clock.state = .stopped →
      Replies (.startClock tag body) 0x10#8 tag ⟨.ok, e8 2 ++ e24 s.clock.value⟩ [.clock] s
        fun u => u.clock = ⟨.running, s.clock.value, s.now⟩) ∧
    (s.clock.state = .running →
      Reads (.startClock tag body) 0x10#8 tag ⟨.ok, e8 2 ++ e24 s.clock.value⟩ s)

/-- R49: READ CLOCK answers with the clock and the four records as they stand, and changes nothing. -/
def Clause.ReadClockGivesOneMoment : Prop :=
  ∀ (tag : Byte) (body : List Byte) (s : State), Takes ⟨0x11#8, tag, body⟩ s →
    Reads (.readClock tag body) 0x11#8 tag
      ⟨.ok, e8 s.clock.state.code ++ e24 (if s.clock.state = .unset then 0 else s.clock.value) ++
        (e24 s.editions[0].time ++ e8 s.editions[0].state.code) ++
        (e24 s.editions[1].time ++ e8 s.editions[1].state.code) ++
        (e24 s.editions[2].time ++ e8 s.editions[2].state.code) ++
        (e24 s.editions[3].time ++ e8 s.editions[3].state.code)⟩ s

/-- R48, R49: START CLOCK and READ CLOCK. -/
def Obligations.StartAndReadClock : Prop :=
  Clause.StartClockInEachState ∧ Clause.ReadClockGivesOneMoment

/-- R53: SET DEADLINE's refusals; a PASSED edition keeps its state; an UNARMED or ARMED one becomes ARMED, or PASSED at once with its notice where the time is at or before a set clock. -/
def Obligations.SetDeadlineArmsOrPasses : Prop :=
  ∀ (tag : Byte) (body : List Byte) (s : State), 4 ≤ body.length → Takes ⟨0x12#8, tag, body⟩ s →
    ((u8 body 0 = 0 ∨ 4 < u8 body 0 ∨ 86399 < u24 body 1) →
      Refuses (.setDeadline tag body) 0x12#8 tag .range s) ∧
    ∀ e : Fin 4, u8 body 0 = e.val + 1 → u24 body 1 ≤ 86399 →
      (s.editions[e].state = .passed →
        Replies (.setDeadline tag body) 0x12#8 tag ⟨.ok, e24 (u24 body 1) ++ e8 2⟩ [.editions] s
          fun u => u.editions = s.editions.set e ⟨u24 body 1, .passed⟩) ∧
      (s.editions[e].state ≠ .passed → (s.clock.state = .unset ∨ s.clock.value < u24 body 1) →
        Replies (.setDeadline tag body) 0x12#8 tag ⟨.ok, e24 (u24 body 1) ++ e8 1⟩ [.editions] s
          fun u => u.editions = s.editions.set e ⟨u24 body 1, .armed⟩) ∧
      (s.editions[e].state ≠ .passed → s.clock.state ≠ .unset → u24 body 1 ≤ s.clock.value →
        Replies (.setDeadline tag body) 0x12#8 tag ⟨.ok, e24 (u24 body 1) ++ e8 2⟩
          [.editions, .notices] s fun u =>
          u.editions = s.editions.set e ⟨u24 body 1, .passed⟩ ∧
          u.notices = s.notices.setPending (srcEdition e) true)

/-- R54: REARM in each state of the edition, a PASSED one against a clock that is set. -/
def Clause.RearmInEachState : Prop :=
  ∀ (tag : Byte) (body : List Byte) (s : State), 1 ≤ body.length → Takes ⟨0x13#8, tag, body⟩ s →
    ((u8 body 0 = 0 ∨ 4 < u8 body 0) → Refuses (.rearm tag body) 0x13#8 tag .range s) ∧
    ∀ e : Fin 4, u8 body 0 = e.val + 1 →
      (s.editions[e].state = .unarmed →
        Reads (.rearm tag body) 0x13#8 tag ⟨.busy, e24 s.editions[e].time ++ e8 0⟩ s) ∧
      (s.editions[e].state = .armed →
        Reads (.rearm tag body) 0x13#8 tag ⟨.ok, e24 s.editions[e].time ++ e8 1⟩ s) ∧
      (s.editions[e].state = .passed → s.clock.state ≠ .unset →
        s.clock.value < s.editions[e].time →
        Replies (.rearm tag body) 0x13#8 tag ⟨.ok, e24 s.editions[e].time ++ e8 1⟩ [.editions] s
          fun u => u.editions = s.editions.set e ⟨s.editions[e].time, .armed⟩) ∧
      (s.editions[e].state = .passed → s.clock.state ≠ .unset →
        s.editions[e].time ≤ s.clock.value →
        Reads (.rearm tag body) 0x13#8 tag ⟨.ok, e24 s.editions[e].time ++ e8 2⟩ s)

/-- R55: CLEAR DEADLINE makes an edition UNARMED from any state and keeps its time; a story of its baskets no longer shows LATE. -/
def Clause.ClearDeadlineUnarms : Prop :=
  ∀ (tag : Byte) (body : List Byte) (s : State), 1 ≤ body.length → Takes ⟨0x14#8, tag, body⟩ s →
    ((u8 body 0 = 0 ∨ 4 < u8 body 0) → Refuses (.clearDeadline tag body) 0x14#8 tag .range s) ∧
    ∀ e : Fin 4, u8 body 0 = e.val + 1 →
      Replies (.clearDeadline tag body) 0x14#8 tag ⟨.ok, e24 s.editions[e].time ++ e8 0⟩
        [.editions] s fun u =>
        u.editions = s.editions.set e ⟨s.editions[e].time, .unarmed⟩ ∧
        ∀ st : Story, s.baskets[st.basket].edition.val = e.val + 1 → storyLate u st = false

/-- R54, R55: REARM and CLEAR DEADLINE. -/
def Obligations.RearmAndClearDeadline : Prop :=
  Clause.RearmInEachState ∧ Clause.ClearDeadlineUnarms

/-! ### Terminal lines and keys (spec/04) -/

/-- R60: ASSIGN TERMINAL refuses identities and layouts out of range; the assignment is the body's with the format and the trigger clamped, and is CLAMPED exactly where one of them was changed; a detached terminal is attached with empty FIFOs, an empty slot and a repaint. -/
def Clause.AssignTerminalGivesTheAssignment : Prop :=
  ∀ (tag : Byte) (body : List Byte) (s : State), 9 ≤ body.length → Takes ⟨0x15#8, tag, body⟩ s →
    ((32 ≤ u8 body 0 ∨ 16 ≤ u8 body 1 ∨ 16 ≤ u8 body 2 ∨ 2 ≤ u8 body 3) →
      Refuses (.assignTerminal tag body) 0x15#8 tag .range s) ∧
    ∀ (t : Fin 32) (a : Assignment), u8 body 0 = t.val → assignmentOf body = some a →
      (a.desk.val = u8 body 1 ∧ a.key.val = u8 body 2 ∧ a.layout.code = u8 body 3 ∧
        a.format.rate = clampRate (u16 body 4) ∧
        a.format.dataBits = max 7 (min 8 (u8 body 6)) ∧
        a.format.stopBits = max 1 (min 2 (u8 body 8)) ∧
        (a.format.parity = if u8 body 7 = 1 then .even else if u8 body 7 = 2 then .odd else .none) ∧
        a.trigger = (if 9 < body.length then clampTrigger (u8 body 9) else 1) ∧
        (a.clamped = true ↔ a.format.rate ≠ u16 body 4 ∨ a.format.dataBits ≠ u8 body 6 ∨
          2 < u8 body 7 ∨ a.format.stopBits ≠ u8 body 8 ∨
          (9 < body.length ∧ a.trigger ≠ u8 body 9))) ∧
      (s.lines[t].attached = false →
        Replies (.assignTerminal tag body) 0x15#8 tag ⟨if a.clamped then .clamped else .ok, []⟩
          [.lines, .screens, .slots] s fun u =>
          u.lines[t].attached = true ∧ u.lines[t].desk = a.desk ∧ u.lines[t].key = a.key ∧
          u.lines[t].layout = a.layout ∧ u.lines[t].format = a.format ∧
          u.lines[t].trigger = a.trigger ∧ u.lines[t].rx = [] ∧ u.lines[t].tx = [] ∧
          u.lines[t].pfx = false ∧ u.slots = s.slots.set t none ∧ u.screens[t].mode = .normal ∧
          u.screens[t].sent = none ∧ u.screens[t].base = s.screens[t].base ∧
          ∀ x : Fin 32, x ≠ t → u.lines[x] = s.lines[x] ∧ u.screens[x] = s.screens[x])

/-- R61: ASSIGN TERMINAL for an attached terminal: the four steps, each only where its field changes. A new format empties both FIFOs, forgets the prefix and repaints, and a new trigger alone only makes the hand-up test; a new layout closes both panes without notice; a new desk or key is followed by the pane re-check; a new key other than 0 ends a watch. The slot stays, and the reply counts the panes closed and marks a repaint. That the mark's yes is sent as 01h is the model's choice (log entry 8, DEDUCED). -/
def Clause.ReassignmentMakesItsSteps : Prop :=
  ∀ (tag : Byte) (body : List Byte) (s s1 : State) (t : Fin 32) (a : Assignment),
    9 ≤ body.length → Takes ⟨0x15#8, tag, body⟩ s → u8 body 0 = t.val →
    assignmentOf body = some a → s.lines[t].attached = true →
    s1 = { s with lines := s.lines.set t { s.lines[t] with desk := a.desk, key := a.key } } →
    ∃ r, Replies (.assignTerminal tag body) 0x15#8 tag r
      [.lines, .screens, .stories, .fit, .panes, .notices] s fun u =>
      r = ⟨if a.clamped then .clamped else .ok,
        e16 (if s.panes[t].session ≠ none ∧ u.panes[t].session = none then 1 else 0) ++
          e16 (if s.panes[t].ref ≠ none ∧ u.panes[t].ref = none then 1 else 0) ++
          eFlag (decide (s.lines[t].format ≠ a.format))⟩ ∧
      (u.lines[t].attached = true ∧ u.lines[t].desk = a.desk ∧ u.lines[t].key = a.key ∧
        u.lines[t].layout = a.layout ∧ u.lines[t].format = a.format ∧
        u.lines[t].trigger = a.trigger ∧ u.lines[t].idle = s.lines[t].idle) ∧
      (s.lines[t].format ≠ a.format →
        u.lines[t].rx = [] ∧ u.lines[t].tx = [] ∧ u.lines[t].pfx = false ∧
        (u.lines[t].sending = match s.lines[t].sending with
          | .rest => .rest
          | .busy f _ => .busy f false) ∧
        u.screens[t].sent = none ∧ u.screens[t].marks = allRows) ∧
      (s.lines[t].format = a.format →
        u.lines[t].tx = s.lines[t].tx ∧ u.lines[t].pfx = s.lines[t].pfx ∧
        u.lines[t].sending = s.lines[t].sending ∧ u.screens[t].sent = s.screens[t].sent ∧
        (s.lines[t].trigger ≠ a.trigger → s.lines[t].batch = [] →
          a.trigger ≤ s.lines[t].rx.length ∨ s.lines[t].idle = true →
          u.lines[t].batch = s.lines[t].rx ∧ u.lines[t].rx = []) ∧
        (s.lines[t].trigger = a.trigger ∨ s.lines[t].batch ≠ [] ∨
            (s.lines[t].rx.length < a.trigger ∧ s.lines[t].idle = false) →
          u.lines[t].batch = s.lines[t].batch ∧ u.lines[t].rx = s.lines[t].rx)) ∧
      (s.lines[t].layout ≠ a.layout → u.panes[t] = ⟨none, none⟩ ∧ u.notices = s.notices) ∧
      (s.lines[t].layout = a.layout → s.lines[t].desk ≠ a.desk ∨ s.lines[t].key ≠ a.key →
        PanesRechecked none t s1 u) ∧
      (s.lines[t].layout = a.layout → s.lines[t].desk = a.desk → s.lines[t].key = a.key →
        u.panes = s.panes ∧ u.notices = s.notices) ∧
      (∀ e st, s.panes[t].session = some e → storyOf s e.story = some st →
        u.panes[t].session = none → SessionEnded s u e st) ∧
      (u.panes[t].session.isSome = s.panes[t].session.isSome →
        u.stories = s.stories ∧ u.fit = s.fit) ∧
      (isWatching s t = true → s.lines[t].key ≠ a.key → a.key ≠ 0 →
        u.screens[t].mode = .normal ∧ u.screens[t].marks = allRows) ∧
      (isWatching s t = false ∨ a.key = 0 → u.screens[t].mode = s.screens[t].mode ∧
        (s.lines[t].format = a.format → u.screens = s.screens)) ∧
      ∀ x : Fin 32, x ≠ t → u.lines[x] = s.lines[x] ∧ u.panes[x] = s.panes[x] ∧
        u.screens[x] = s.screens[x] ∧ u.notices.terminal[x] = s.notices.terminal[x]

/-- R62, R93, R117: DETACH TERMINAL's refusals; otherwise both panes end, the story of a modified session being offered for a fit, the mode, the alert, the bell, the slot and the FIFOs are cleared, whoever watched it is NORMAL and repainted, and the base layer and the keys it queued stay. -/
def Clause.DetachTerminalEndsEverythingButTheBase : Prop :=
  ∀ (tag : Byte) (body : List Byte) (s : State), 1 ≤ body.length → Takes ⟨0x16#8, tag, body⟩ s →
    (32 ≤ u8 body 0 → Refuses (.detachTerminal tag body) 0x16#8 tag .range s) ∧
    ∀ t : Fin 32, u8 body 0 = t.val →
      (s.lines[t].attached = false → Refuses (.detachTerminal tag body) 0x16#8 tag .noSuch s) ∧
      (s.lines[t].attached = true →
        Replies (.detachTerminal tag body) 0x16#8 tag ⟨.ok, []⟩
          [.lines, .screens, .slots, .stories, .fit, .panes] s fun u =>
          u.lines[t].attached = false ∧ u.lines[t].rx = [] ∧ u.lines[t].tx = [] ∧
          u.lines[t].pfx = false ∧ u.slots = s.slots.set t none ∧ u.panes[t] = ⟨none, none⟩ ∧
          u.screens[t].mode = .normal ∧ u.screens[t].flash = none ∧ u.screens[t].bell = false ∧
          u.screens[t].base = s.screens[t].base ∧ u.screens[t].status = s.screens[t].status ∧
          (∀ e st, s.panes[t].session = some e → storyOf s e.story = some st →
            SessionEnded s u e st) ∧
          ∀ x : Fin 32, x ≠ t → u.lines[x] = s.lines[x] ∧ u.panes[x] = s.panes[x] ∧
            (watches s x t = true → u.screens[x].mode = .normal ∧ u.screens[x].sent = none) ∧
            (watches s x t = false → u.screens[x] = s.screens[x]))

/-- R60 to R62, R93: ASSIGN TERMINAL and DETACH TERMINAL. -/
def Obligations.AssignAndDetachTerminal : Prop :=
  Clause.AssignTerminalGivesTheAssignment ∧
    Clause.ReassignmentMakesItsSteps ∧
    Clause.DetachTerminalEndsEverythingButTheBase

/-- R70, R71: TAKE KEYS returns the oldest reports, up to the count brought into 1 to 16; with the remove flag they leave the queue, and a queue left empty withdraws KEYS. That the two counts take 2 bytes each is log entry 8 (DEDUCED). -/
def Obligations.TakeKeysReturnsTheOldest : Prop :=
  ∀ (tag : Byte) (body : List Byte) (s : State) (n : Nat), 2 ≤ body.length →
    Takes ⟨0x18#8, tag, body⟩ s → n = max 1 (min 16 (u8 body 0)) →
    (u8 body 1 = 0 →
      Reads (.takeKeys tag body) 0x18#8 tag
        ⟨if n = u8 body 0 then .ok else .clamped,
          e16 (s.keys.take n).length ++ e16 s.keys.length ++ (s.keys.take n).flatMap eReport⟩ s) ∧
    (u8 body 1 ≠ 0 →
      Replies (.takeKeys tag body) 0x18#8 tag
        ⟨if n = u8 body 0 then .ok else .clamped,
          e16 (s.keys.take n).length ++ e16 (s.keys.drop n).length ++
            (s.keys.take n).flatMap eReport⟩ [.keys, .notices] s fun u =>
        u.keys = s.keys.drop n ∧
        u.notices = if s.keys.length ≤ n then s.notices.setPending srcKeys false else s.notices)

/-- R58, R64, R65: a frame on a terminal line: a framing or parity error, or a full FIFO, discards the character with LINE-ERROR; a good character joins the FIFO, and the FIFO is handed up when the trigger is reached; a detached line ignores it. -/
def Clause.TerminalFrameIsStoredOrRefused : Prop :=
  ∀ (t : Fin 32) (f : RxFrame) (s : State),
    (s.lines[t].attached = false →
      Completes (.terminalCharacterReceived t f) [] s fun _ => True) ∧
    (s.lines[t].attached = true →
      ((f.stop = false ∨ parityRight s.lines[t].format f = false ∨ 16 ≤ s.lines[t].rx.length) →
        Completes (.terminalCharacterReceived t f) [.lines, .notices] s fun u =>
          u.lines = s.lines.set t { s.lines[t] with idle := false } ∧
          u.notices.pending[srcTerminal t] = true ∧
          u.notices.terminal[t] = { s.notices.terminal[t] with lineError := true }) ∧
      (f.stop = true → parityRight s.lines[t].format f = true → s.lines[t].rx.length < 16 →
        Completes (.terminalCharacterReceived t f) [.lines] s fun u =>
          u.lines = s.lines.set t
            (if s.lines[t].batch = [] ∧ s.lines[t].trigger ≤ s.lines[t].rx.length + 1 then
              { s.lines[t] with
                idle := false, rx := [], batch := s.lines[t].rx ++ [frameCode s.lines[t].format f] }
            else
              { s.lines[t] with
                idle := false, rx := s.lines[t].rx ++ [frameCode s.lines[t].format f] })))

/-- R65, R66: the end of the idle time hands up what waits; a break empties the receive FIFO, forgets the prefix, raises ATTENTION and repaints the terminal; on a detached line neither does anything (log entry 1). That a break keeps the batch handed up, and that the end of the idle time is remembered until the next character, are the model's choice (log entries 21, 34). -/
def Clause.IdleTimeAndBreakOnATerminalLine : Prop :=
  ∀ (t : Fin 32) (s : State),
    (s.lines[t].attached = false →
      Completes (.terminalIdleExpiry t) [] s (fun _ => True) ∧
      Completes (.terminalBreak t) [] s fun _ => True) ∧
    (s.lines[t].attached = true →
      (Completes (.terminalIdleExpiry t) [.lines] s fun u =>
        u.lines = s.lines.set t
          (if s.lines[t].batch = [] then
            { s.lines[t] with idle := true, rx := [], batch := s.lines[t].rx }
          else { s.lines[t] with idle := true })) ∧
      (Completes (.terminalBreak t) [.lines, .screens, .notices] s fun u =>
        u.lines = s.lines.set t { s.lines[t] with rx := [], pfx := false } ∧
        u.screens = s.screens.set t
          { s.screens[t] with sent := none, hand := none, last := none, marks := allRows } ∧
        u.notices.pending[srcTerminal t] = true ∧
        u.notices.terminal[t] = { s.notices.terminal[t] with attention := true }))

/-- R64 to R66: frames, idle time and breaks on a terminal line. -/
def Obligations.TerminalReception : Prop :=
  Clause.TerminalFrameIsStoredOrRefused ∧ Clause.IdleTimeAndBreakOnATerminalLine

/-- R67, R69 (log entry 3: the command is the key's code at a decoder with nothing before it; log entry 33: with no prefix pending it is both codes): the prefix code sets prefix pending; a function key queues a report with the fields of Table 4-4 and raises KEYS; it is refused with the bell and KEYS-REFUSED in HOST LOST and with 64 reports, and gives only the bell in ROTATING. -/
def Clause.FunctionKeyQueuesAReport : Prop :=
  ∀ (t : Fin 32) (k : Fin 16) (s : State), DecoderFree s t →
    (Completes (.functionKeyPrefix t) [.lines] s fun u =>
      u.lines = s.lines.set t { s.lines[t] with pfx := true }) ∧
    ((∃ r, s.screens[t].mode = .rotating r) →
      Completes (.functionKey t k) [.lines, .screens] s fun u =>
        u.lines = s.lines ∧ u.screens = s.screens.set t { s.screens[t] with bell := true }) ∧
    ((∀ r, s.screens[t].mode ≠ .rotating r) → (s.link.hostLost = true ∨ 64 ≤ s.keys.length) →
      Completes (.functionKey t k) [.lines, .screens, .notices] s fun u =>
        u.lines = s.lines ∧ u.screens = s.screens.set t { s.screens[t] with bell := true } ∧
        u.notices.pending[srcTerminal t] = true ∧
        u.notices.terminal[t] = { s.notices.terminal[t] with keysRefused := true }) ∧
    ((∀ r, s.screens[t].mode ≠ .rotating r) → s.link.hostLost = false → s.keys.length < 64 →
      Completes (.functionKey t k) [.lines, .keys, .notices] s fun u =>
        u.lines = s.lines ∧ u.notices = s.notices.setPending srcKeys true ∧
        (s.panes[t].session = none → u.keys = s.keys ++ [⟨t, k, 0, 0, stamp s⟩]) ∧
        ∀ e, s.panes[t].session = some e →
          u.keys = s.keys ++ [⟨t, k, e.story, e.cursor, stamp s⟩])

/-- R67, R69: a function key whose prefix is pending, nothing waiting before its second code, takes the prefix with it and does what R69 says. -/
def Clause.FunctionKeyFollowsItsPrefix : Prop :=
  ∀ (t : Fin 32) (k : Fin 16) (s : State), s.lines[t].attached = true → s.lines[t].pfx = true →
    s.lines[t].batch = [] → s.lines[t].rx = [] →
    ((∃ r, s.screens[t].mode = .rotating r) →
      Completes (.functionKey t k) [.lines, .screens] s fun u =>
        u.lines = s.lines.set t { s.lines[t] with pfx := false } ∧
        u.screens = s.screens.set t { s.screens[t] with bell := true }) ∧
    ((∀ r, s.screens[t].mode ≠ .rotating r) → (s.link.hostLost = true ∨ 64 ≤ s.keys.length) →
      Completes (.functionKey t k) [.lines, .screens, .notices] s fun u =>
        u.lines = s.lines.set t { s.lines[t] with pfx := false } ∧
        u.screens = s.screens.set t { s.screens[t] with bell := true } ∧
        u.notices.pending[srcTerminal t] = true ∧
        u.notices.terminal[t] = { s.notices.terminal[t] with keysRefused := true }) ∧
    ((∀ r, s.screens[t].mode ≠ .rotating r) → s.link.hostLost = false → s.keys.length < 64 →
      Completes (.functionKey t k) [.lines, .keys, .notices] s fun u =>
        u.lines = s.lines.set t { s.lines[t] with pfx := false } ∧
        u.notices = s.notices.setPending srcKeys true ∧
        (s.panes[t].session = none → u.keys = s.keys ++ [⟨t, k, 0, 0, stamp s⟩]) ∧
        ∀ e, s.panes[t].session = some e →
          u.keys = s.keys ++ [⟨t, k, e.story, e.cursor, stamp s⟩])

/-- R65, R67 (log entries 3, 33): at the head of a decoder's batch a function key takes its two codes together; where other characters wait, both its codes arrive behind them and none of what waits is taken for one of them. -/
def Clause.FunctionKeyKeepsItsTwoCodes : Prop :=
  ∀ (t : Fin 32) (k : Fin 16) (s : State), s.lines[t].attached = true → s.lines[t].pfx = false →
    (∀ rest, s.lines[t].batch = 0x1A#8 :: functionCode k :: rest →
      (∃ r, s.screens[t].mode = .rotating r) →
      Completes (.functionKey t k) [.lines, .screens] s fun u =>
        u.lines = s.lines.set t (Line.handUp { s.lines[t] with batch := rest }) ∧
        u.screens = s.screens.set t { s.screens[t] with bell := true }) ∧
    (s.lines[t].batch ≠ [] → s.lines[t].batch.take 2 ≠ [0x1A#8, functionCode k] →
      s.lines[t].rx.length + 2 ≤ 16 →
      Completes (.functionKey t k) [.lines] s fun u =>
        u.lines = s.lines.set t
          { s.lines[t] with idle := false, rx := s.lines[t].rx ++ [0x1A#8, functionCode k] })

/-- R67: a code that forms no key is ignored: without the prefix it changes nothing, and after the prefix it takes the prefix with it. -/
def Clause.IgnoredCodesDoNothing : Prop :=
  ∀ (t : Fin 32) (c : Byte) (s : State),
    (DecoderFree s t → plainKey c = none → c ≠ 0x1A#8 →
      Completes (.ignoredCode t c) [] s fun _ => True) ∧
    (s.lines[t].attached = true → s.lines[t].pfx = true → s.lines[t].batch = [] →
      s.lines[t].rx = [] → functionOf c = none →
      Completes (.ignoredCode t c) [.lines] s fun u =>
        u.lines = s.lines.set t { s.lines[t] with pfx := false })

/-- R67, R69: the prefix, function keys and ignored codes. -/
def Obligations.FunctionKeysAndIgnoredCodes : Prop :=
  Clause.FunctionKeyQueuesAReport ∧
    Clause.FunctionKeyFollowsItsPrefix ∧
    Clause.FunctionKeyKeepsItsTwoCodes ∧
    Clause.IgnoredCodesDoNothing

/-- R44, R68, R91: the clear-message key empties a full slot with MESSAGE-CLEARED and does nothing on an empty one; the repaint key repaints the terminal; both in every mode. -/
def Clause.ClearMessageAndRepaintKeys : Prop :=
  ∀ (t : Fin 32) (s : State), DecoderFree s t →
    (∀ m, s.slots[t] = some m →
      Completes (.clearMessage t) [.slots, .notices] s fun u =>
        u.slots = s.slots.set t none ∧ u.notices.pending[srcTerminal t] = true ∧
        u.notices.terminal[t] = { s.notices.terminal[t] with messageCleared := true }) ∧
    (s.slots[t] = none → Completes (.clearMessage t) [] s fun _ => True) ∧
    (Completes (.repaintKey t) [.screens] s fun u =>
      u.screens = s.screens.set t
        { s.screens[t] with sent := none, hand := none, last := none, marks := allRows })

/-- R68, R105: in WATCHING and ROTATING every text and edit key gives the bell and nothing else, and in NORMAL so does every text and delete key with no edit session. -/
def Clause.KeysWithoutASessionGiveTheBell : Prop :=
  ∀ (t : Fin 32) (c : Byte) (s : State), DecoderFree s t → isText c = true →
    (∀ i, i ∈ [Instr.textKey t c, .newParagraph t, .deleteBack t, .deleteForward t,
        .insertOvertypeToggle t, .cursorLeft t, .cursorRight t, .cursorUp t, .cursorDown t,
        .paneSwitch t] → s.screens[t].mode ≠ .normal →
      Completes i [.screens] s fun u =>
        u.screens = s.screens.set t { s.screens[t] with bell := true }) ∧
    (∀ i, i ∈ [Instr.textKey t c, .newParagraph t, .deleteBack t, .deleteForward t,
        .insertOvertypeToggle t, .cursorLeft t, .cursorRight t, .paneSwitch t] →
      s.screens[t].mode = .normal → s.panes[t].session = none →
      Completes i [.screens] s fun u =>
        u.screens = s.screens.set t { s.screens[t] with bell := true })

/-- R105: in NORMAL, with focus REFERENCE, every text, delete, toggle and sideways key gives the bell and nothing else; with both panes closed so do cursor up and down, and with no edit session the pane switch key. -/
def Clause.KeysOutsideTheFocusGiveTheBell : Prop :=
  ∀ (t : Fin 32) (c : Byte) (s : State), DecoderFree s t → isText c = true →
    s.screens[t].mode = .normal →
    (∀ e, s.panes[t].session = some e → e.focus = .reference →
      ∀ i, i ∈ [Instr.textKey t c, .newParagraph t, .deleteBack t, .deleteForward t,
        .insertOvertypeToggle t, .cursorLeft t, .cursorRight t] →
      Completes i [.screens] s fun u =>
        u.screens = s.screens.set t { s.screens[t] with bell := true }) ∧
    (s.panes[t].session = none → s.panes[t].ref = none →
      ∀ i, i ∈ [Instr.cursorUp t, .cursorDown t] →
      Completes i [.screens] s fun u =>
        u.screens = s.screens.set t { s.screens[t] with bell := true }) ∧
    (s.panes[t].session = none → Completes (.paneSwitch t) [.screens] s fun u =>
      u.screens = s.screens.set t { s.screens[t] with bell := true })

/-- R44, R68, R105: the keys that need no edit session, and the bell where one is missing. -/
def Obligations.KeysOutsideAnEditSession : Prop :=
  Clause.ClearMessageAndRepaintKeys ∧
    Clause.KeysWithoutASessionGiveTheBell ∧
    Clause.KeysOutsideTheFocusGiveTheBell

/-- R58, R72: a line at rest whose FIFO is not empty begins the byte at its head, in a frame of its format: the data bits of its width, its stop bits, no parity bit with parity none and otherwise the bit with which a receiver of the same format finds the parity right; a code below 80h is sent whole in either width. A byte being sent goes on as it was begun. -/
def Clause.SentFramesHaveTheLinesFormat : Prop :=
  (∀ (t : Fin 32) (s : State), s.lines[t].attached = true →
    (s.lines[t].sending = .rest → (settle s).lines[t].sending =
      match (settle s).lines[t].tx with
      | [] => .rest
      | b :: _ => .busy (sendFrame s.lines[t].format b) true) ∧
    ∀ f inFifo, s.lines[t].sending = .busy f inFifo →
      (settle s).lines[t].sending = .busy f inFifo) ∧
  ∀ (f : LineFormat) (b : Byte),
    (sendFrame f b).dataBits = f.dataBits ∧ (sendFrame f b).stopBits = f.stopBits ∧
    ((sendFrame f b).parity = none ↔ f.parity = .none) ∧
    (∀ p stop, (sendFrame f b).parity = some p →
      parityRight f ⟨(sendFrame f b).data, p, stop⟩ = true ∧
      parityRight f ⟨(sendFrame f b).data, !p, stop⟩ = false) ∧
    (f.dataBits ≠ 7 → (sendFrame f b).data = b) ∧
    (f.dataBits = 7 → (sendFrame f b).data.toNat = b.toNat % 128) ∧
    (b.toNat < 128 → (sendFrame f b).data = b)

/-- R72: the byte sent leaves the transmit FIFO, unless the FIFO was emptied while it was being sent; a FIFO that then holds 8 bytes or fewer asks the emitter for more. -/
def Clause.TerminalByteLeavesTheFifo : Prop :=
  ∀ (t : Fin 32) (s : State) (b : TxFrame) (inFifo : Bool),
    s.lines[t].sending = .busy b inFifo →
    Completes (.terminalByteSent t) [.lines, .screens] s fun u =>
      u.lines = s.lines.set t
        { s.lines[t] with
          sending := .rest, tx := if inFifo then s.lines[t].tx.tail else s.lines[t].tx } ∧
      u.screens =
        if (if inFifo then s.lines[t].tx.tail else s.lines[t].tx).length ≤ 8 then
          s.screens.set t { s.screens[t] with waiting := false }
        else s.screens

/-! ### Screens (spec/05) -/

/-- R76 to R78, R84: PUT SCREEN TEXT, FILL BASE and SET STATUS write the base layer's cells and the status text they name, cut and substituted, on an attached terminal or a detached one. That PUT SCREEN TEXT takes a text of more than 80 characters too, cut and answered CLAMPED, is log entry 45 (DEDUCED). -/
def Clause.BaseLayerAndStatusAreWritten : Prop :=
  ∀ (tag : Byte) (body : List Byte) (s : State) (t : Fin 32), u8 body 0 = t.val →
    (∀ text, 5 ≤ body.length → textAt body 5 (u8 body 4) = some text →
      Takes ⟨0x19#8, tag, body⟩ s →
      (u8 body 1 = 0 ∨ 23 < u8 body 1 ∨ u8 body 2 = 0 ∨ 80 < u8 body 2 ∨ 4 ≤ u8 body 3) →
      Refuses (.putScreenText tag body) 0x19#8 tag .range s) ∧
    (5 ≤ body.length → Takes ⟨0x1A#8, tag, body⟩ s →
      (u8 body 1 = 0 ∨ 23 < u8 body 2 ∨ u8 body 2 < u8 body 1 ∨ 4 ≤ u8 body 4) →
      Refuses (.fillBase tag body) 0x1A#8 tag .range s) ∧
    (∀ text row col a, 5 ≤ body.length → textAt body 5 (u8 body 4) = some text →
      Takes ⟨0x19#8, tag, body⟩ s → u8 body 1 = row → u8 body 2 = col → 1 ≤ row → row ≤ 23 →
      1 ≤ col → col ≤ 80 → Attr.ofCode (u8 body 3) = some a →
      Replies (.putScreenText tag body) 0x19#8 tag
        ⟨if text.length ≤ 81 - col ∧ (∀ c ∈ text, isText c = true) then .ok else .clamped, []⟩
        [.screens] s fun u =>
        u.screens = s.screens.set t { s.screens[t] with
          base := s.screens[t].base.modify (row - 1) fun r =>
            r.take (col - 1) ++ ((text.map fun c => (⟨plainByte c, a⟩ : Cell)).take (81 - col) ++
              r.drop (col - 1 + text.length)) }) ∧
    (∀ first last a, 5 ≤ body.length → Takes ⟨0x1A#8, tag, body⟩ s → u8 body 1 = first →
      u8 body 2 = last → 1 ≤ first → first ≤ last → last ≤ 23 →
      Attr.ofCode (u8 body 4) = some a →
      Replies (.fillBase tag body) 0x1A#8 tag
        ⟨if isText (body.getD 3 0) then .ok else .clamped, []⟩ [.screens] s fun u =>
        u.screens = s.screens.set t { s.screens[t] with
          base := s.screens[t].base.mapIdx fun i r =>
            if first ≤ i + 1 ∧ i + 1 ≤ last then List.replicate 80 ⟨plainByte (body.getD 3 0), a⟩
            else r }) ∧
    (∀ text, 2 ≤ body.length → textAt body 2 (u8 body 1) = some text →
      Takes ⟨0x1B#8, tag, body⟩ s →
      Replies (.setStatus tag body) 0x1B#8 tag
        ⟨if text.length ≤ 16 ∧ (∀ c ∈ text.take 16, isText c = true) then .ok else .clamped, []⟩
        [.screens] s fun u =>
        u.screens = s.screens.set t { s.screens[t] with status := (text.take 16).map plainByte })

/-- R91: REPAINT's refusals; otherwise the sent image is UNKNOWN, the row in hand is dropped and all rows are marked. -/
def Clause.RepaintForgetsTheSentImage : Prop :=
  ∀ (tag : Byte) (body : List Byte) (s : State), 1 ≤ body.length → Takes ⟨0x1C#8, tag, body⟩ s →
    (32 ≤ u8 body 0 → Refuses (.repaint tag body) 0x1C#8 tag .range s) ∧
    ∀ t : Fin 32, u8 body 0 = t.val →
      (s.lines[t].attached = false → Refuses (.repaint tag body) 0x1C#8 tag .noSuch s) ∧
      (s.lines[t].attached = true →
        Replies (.repaint tag body) 0x1C#8 tag ⟨.ok, []⟩ [.screens] s fun u =>
          u.screens = s.screens.set t
            { s.screens[t] with sent := none, hand := none, last := none, marks := allRows })

/-- R77, R78, R84, R91: the orders on one screen. -/
def Obligations.BaseLayerStatusAndRepaint : Prop :=
  Clause.BaseLayerAndStatusAreWritten ∧ Clause.RepaintForgetsTheSentImage

/-- R92: SET WATCH's checks in their order, with a target and with none; that none is answered OK at a detached terminal too is the model's choice (log entry 22). -/
def Obligations.SetWatchChecksItsTarget : Prop :=
  ∀ (tag : Byte) (body : List Byte) (s : State), 2 ≤ body.length → Takes ⟨0x1D#8, tag, body⟩ s →
    (32 ≤ u8 body 0 → Refuses (.setWatch tag body) 0x1D#8 tag .range s) ∧
    ∀ w : Fin 32, u8 body 0 = w.val →
      (u8 body 1 ≠ 0xFF → 32 ≤ u8 body 1 → Refuses (.setWatch tag body) 0x1D#8 tag .range s) ∧
      (∀ x : Fin 32, u8 body 1 = x.val →
        (s.lines[w].attached = false → Refuses (.setWatch tag body) 0x1D#8 tag .noSuch s) ∧
        (s.lines[w].attached = true →
          (x = w → Refuses (.setWatch tag body) 0x1D#8 tag .range s) ∧
          (x ≠ w → s.lines[w].key ≠ 0 → Refuses (.setWatch tag body) 0x1D#8 tag .denied s) ∧
          (x ≠ w → s.lines[w].key = 0 → s.lines[x].attached = false →
            Refuses (.setWatch tag body) 0x1D#8 tag .noSuch s) ∧
          (x ≠ w → s.lines[w].key = 0 → s.lines[x].attached = true →
            ((∃ y, s.screens[x].mode = .watching y) ∨ (∃ y : Fin 32, s.screens[y].mode = .watching w) →
              Refuses (.setWatch tag body) 0x1D#8 tag .range s) ∧
            ((∀ y, s.screens[x].mode ≠ .watching y) → (∀ y : Fin 32, s.screens[y].mode ≠ .watching w) →
              Replies (.setWatch tag body) 0x1D#8 tag ⟨.ok, []⟩ [.screens] s fun u =>
                u.screens = s.screens.set w
                  { s.screens[w] with mode := .watching x, marks := allRows })))) ∧
      (u8 body 1 = 0xFF →
        ((∃ y, s.screens[w].mode = .watching y) →
          Replies (.setWatch tag body) 0x1D#8 tag ⟨.ok, []⟩ [.screens] s fun u =>
            u.screens = s.screens.set w { s.screens[w] with mode := .normal, marks := allRows }) ∧
        ((∀ y, s.screens[w].mode ≠ .watching y) →
          Reads (.setWatch tag body) 0x1D#8 tag ⟨.ok, []⟩ s))

/-- R94, R96, R134 (log entry 41: that only a skip-empty rotation falls back to position 1): SET ROTATION refuses a terminal or a basket out of range; at an attached terminal with 1 to 4 baskets closes its panes, a modified session's story being offered for a fit, and makes it ROTATING from the first basket; with a count of 0 it ends a rotation, and the position in the reply is 0, the model's choice (log entry 8). The reply counts the panes closed. -/
def Clause.SetRotationBeginsAndEnds : Prop :=
  (∀ (tag : Byte) (body : List Byte) (s : State), 5 ≤ body.length → Takes ⟨0x1E#8, tag, body⟩ s →
    32 ≤ u8 body 0 → Refuses (.setRotation tag body) 0x1E#8 tag .range s) ∧
  ∀ (tag : Byte) (body : List Byte) (s : State) (t : Fin 32), 5 ≤ body.length →
    Takes ⟨0x1E#8, tag, body⟩ s → u8 body 0 = t.val →
    (s.lines[t].attached = true → u8 body 4 ≤ 4 → 5 + u8 body 4 ≤ body.length →
      (∃ x ∈ (body.drop 5).take (u8 body 4), 64 ≤ x.toNat) →
      Refuses (.setRotation tag body) 0x1E#8 tag .range s) ∧
    (s.lines[t].attached = false → Refuses (.setRotation tag body) 0x1E#8 tag .noSuch s) ∧
    (s.lines[t].attached = true → (4 < u8 body 4 ∨ body.length < 5 + u8 body 4) →
      Refuses (.setRotation tag body) 0x1E#8 tag .malformed s) ∧
    (s.lines[t].attached = true → u8 body 4 = 0 →
      Replies (.setRotation tag body) 0x1E#8 tag
        ⟨if 5 ≤ u16 body 1 ∧ u16 body 1 ≤ 600 then .ok else .clamped, e16 0 ++ e16 0⟩ [.screens] s
        fun u =>
        ((∃ x, s.screens[t].mode = .rotating x) → u.screens = s.screens.set t
          { s.screens[t] with mode := .normal, marks := allRows }) ∧
        ((∀ x, s.screens[t].mode ≠ .rotating x) → u.screens = s.screens)) ∧
    (∀ bs, s.lines[t].attached = true → 1 ≤ u8 body 4 → u8 body 4 ≤ 4 →
      5 + u8 body 4 ≤ body.length → basketsOf ((body.drop 5).take (u8 body 4)) = some bs →
      ∃ r, Replies (.setRotation tag body) 0x1E#8 tag r [.stories, .fit, .panes, .screens] s fun u =>
        r.result = (if 5 ≤ u16 body 1 ∧ u16 body 1 ≤ 600 then .ok else .clamped) ∧
        u.panes = s.panes.set t ⟨none, none⟩ ∧
        (∀ e st, s.panes[t].session = some e → storyOf s e.story = some st →
          SessionEnded s u e st) ∧
        ∃ p, r.data = e16 p ++ e16 ((if s.panes[t].session.isSome then 1 else 0) +
            if s.panes[t].ref.isSome then 1 else 0) ∧
          u.screens = s.screens.set t { s.screens[t] with
            mode := .rotating ⟨bs, max 5 (min 600 (u16 body 1)), decide (u8 body 3 ≠ 0), p, s.now⟩
            marks := allRows } ∧
          (u8 body 3 = 0 → p = 1) ∧ 1 ≤ p ∧ p ≤ bs.length ∧
          (u8 body 3 ≠ 0 → (∀ b ∈ bs, s.baskets[b].list = []) → p = 1) ∧
          (u8 body 3 ≠ 0 → (∃ b ∈ bs, s.baskets[b].list ≠ []) →
            (∃ b, bs[p - 1]? = some b ∧ s.baskets[b].list ≠ []) ∧
            ∀ i b, i + 1 < p → bs[i]? = some b → s.baskets[b].list = []))

/-- R87, R96: a flash alert ends after 60 seconds; a dwell's end shows the next position, position 1 after the last, and starts the dwell again; with skip-empty the next position whose basket has a story is shown, position 1 where every basket is empty (log entry 41); with no alert and no rotation the expiries do nothing (log entry 1). That the oscillator then reads at least the moment of the expiry is the model's choice (log entry 5). -/
def Clause.ScreenTimersExpire : Prop :=
  ∀ (t : Fin 32) (s : State),
    (∀ f, s.screens[t].flash = some f →
      Completes (.flashAlertExpiry t) [.screens, .now] s fun u =>
        u.now = max s.now (f.since + 60000) ∧
        u.screens = s.screens.set t { s.screens[t] with flash := none }) ∧
    (s.screens[t].flash = none → Completes (.flashAlertExpiry t) [] s fun _ => True) ∧
    (∀ r, s.screens[t].mode = .rotating r → r.skipEmpty = false → 1 ≤ r.baskets.length →
      Completes (.rotationDwellExpiry t) [.screens, .now] s fun u =>
        u.now = max s.now (r.dwellFrom + 1000 * r.dwell) ∧
        u.screens = s.screens.set t { s.screens[t] with
          mode := .rotating { r with
            position := if r.position < r.baskets.length then r.position + 1 else 1
            dwellFrom := u.now } }) ∧
    (∀ r, s.screens[t].mode = .rotating r → r.skipEmpty = true → 1 ≤ r.position →
      r.position ≤ r.baskets.length →
      Completes (.rotationDwellExpiry t) [.screens, .now] s fun u =>
        u.now = max s.now (r.dwellFrom + 1000 * r.dwell) ∧
        ∃ p, u.screens = s.screens.set t { s.screens[t] with
            mode := .rotating { r with position := p, dwellFrom := u.now } } ∧
          ((∀ b ∈ r.baskets, s.baskets[b].list = []) → p = 1) ∧
          ((∃ b ∈ r.baskets, s.baskets[b].list ≠ []) →
            1 ≤ p ∧ (∃ b, r.baskets[p - 1]? = some b ∧ s.baskets[b].list ≠ []) ∧
            ∀ i b, r.baskets[i]? = some b →
              (i + r.baskets.length - r.position) % r.baskets.length <
                (p - 1 + r.baskets.length - r.position) % r.baskets.length →
              s.baskets[b].list = [])) ∧
    ((∀ r, s.screens[t].mode ≠ .rotating r) →
      Completes (.rotationDwellExpiry t) [] s fun _ => True)

/-- R87, R94, R96: SET ROTATION and the two screen timers. -/
def Obligations.RotationAndScreenTimers : Prop :=
  Clause.SetRotationBeginsAndEnds ∧ Clause.ScreenTimersExpire

/-- R88, R89, R91: what the emitter places never overfills the transmit FIFO and never takes back a byte, and with the bell, the rows and the cursor all sent it places nothing. -/
def Clause.EmitterPlacesWholeCodesInOrder : Prop :=
  ∀ (n : Nat) (sc : Screen) (tx : List Byte), tx.length ≤ 32 →
    (emit n sc tx).2.length ≤ 32 ∧ tx <+: (emit n sc tx).2 ∧
    (∀ im, sc.sent = some im → sc.hand = none → sc.bell = false → sc.marks = [] →
      im.cursor = sc.composed.rest → emit n sc tx = (sc, tx)) ∧
    (sc.sent = none → sc.bell = true → sc.waiting = false → tx = [] → 1 ≤ n →
      [0x07#8] <+: (emit n sc tx).2) ∧
    (sc.sent = none → sc.bell = false → sc.waiting = false → tx = [] → 1 ≤ n →
      [0x13#8] <+: (emit n sc tx).2)

/-- R89 to R91: what the emitter does next, while it does not wait for a request. With the sent image UNKNOWN it places a pending bell, and then the clear screen code. With the image known it places the next code of a row in hand, if it fits whole, and waits for a request if not; with no row in hand a pending bell, before any row; then it takes the lowest marked row above the last row taken, or, with none above it, the lowest marked row; and with nothing else left and the cursor away from the rest position, one position code to it. That a row is taken once one byte is free is the model's choice (log entry 42). -/
def Clause.EmitterChoosesWhatComesNext : Prop :=
  ∀ (n : Nat) (sc : Screen) (tx : List Byte), sc.waiting = false → tx.length ≤ 32 →
    (sc.sent = none → tx.length < 32 →
      (sc.bell = true →
        emit (n + 1) sc tx = emit n { sc with bell := false } (tx ++ [0x07#8])) ∧
      (sc.bell = false →
        emit (n + 1) sc tx =
          emit n { sc with sent := some ⟨List.replicate 24 blankRow, (1, 1), .normal⟩ }
            (tx ++ [0x13#8]))) ∧
    ∀ im, sc.sent = some im →
      (∀ r code codes, sc.hand = some (r, code :: codes) →
        (tx.length + code.length ≤ 32 →
          emit (n + 1) sc tx =
            emit n { sc with hand := if codes = [] then none else some (r, codes) } (tx ++ code)) ∧
        (32 < tx.length + code.length →
          emit (n + 1) sc tx = ({ sc with waiting := true }, tx))) ∧
      (sc.hand = none → sc.bell = true → tx.length < 32 →
        emit (n + 1) sc tx = emit n { sc with bell := false } (tx ++ [0x07#8])) ∧
      (∀ r ∈ sc.marks, sc.hand = none → sc.bell = false → sc.marks.Sublist allRows →
        tx.length < 32 →
        (sc.last.getD 0 < r ∧ ∀ x ∈ sc.marks, sc.last.getD 0 < x → r ≤ x) ∨
          (∀ x ∈ sc.marks, x ≤ sc.last.getD 0 ∧ r ≤ x) →
        emit (n + 1) sc tx = emit n (takeRow sc im r) tx) ∧
      (sc.hand = none → sc.bell = false → sc.marks = [] → im.cursor ≠ sc.composed.rest →
        (tx.length + 3 ≤ 32 →
          emit (n + 2) sc tx =
            ({ sc with sent := some { im with cursor := sc.composed.rest } },
              tx ++ [0x10#8, BitVec.ofNat 8 (0x1F + sc.composed.rest.1),
                BitVec.ofNat 8 (0x1F + sc.composed.rest.2)])) ∧
        (32 < tx.length + 3 → emit (n + 1) sc tx = ({ sc with waiting := true }, tx)))

/-- R72, R89: at the end of an event the emitter goes on until it waits for room or nothing is left to send: no bell, no row in hand, no marked row, and the cursor at the rest position. -/
def Clause.EmitterGoesOnWhileThereIsRoom : Prop :=
  ∀ (sc : Screen) (tx : List Byte), tx.length ≤ 32 → sc.InOrder →
    (emit emitFuel sc tx).1.waiting = true ∨
      ∃ im, (emit emitFuel sc tx).1.sent = some im ∧ (emit emitFuel sc tx).1.bell = false ∧
        (emit emitFuel sc tx).1.hand = none ∧ (emit emitFuel sc tx).1.marks = [] ∧
        im.cursor = (emit emitFuel sc tx).1.composed.rest

/-- R58, R72, R89 to R91: the transmit FIFO, the frames sent and the emitter. -/
def Obligations.TransmitFifoAndEmitter : Prop :=
  Clause.SentFramesHaveTheLinesFormat ∧
    Clause.TerminalByteLeavesTheFifo ∧
    Clause.EmitterPlacesWholeCodesInOrder ∧
    Clause.EmitterChoosesWhatComesNext ∧
    Clause.EmitterGoesOnWhileThereIsRoom

/-! ### Edit sessions (spec/06) -/

/-- R106, R112 to R114, R104, R16: a text key or the new paragraph key in INSERT puts its character at the cursor: one text change, the cursor behind it, the session modified, its top offset and those of the reference panes on the story kept by R104; at the cap it gives the bell; with an empty pool the bell and POOL with EMPTY. -/
def Clause.TextKeysInsertAtTheCursor : Prop :=
  ∀ (t : Fin 32) (c : Byte) (i : Instr) (s : State) (e : Session) (st : Story), DecoderFree s t →
    Edits s t e st →
    (i = .textKey t c ∧ isText c = true ∧ replaces s e st = false ∨ i = .newParagraph t ∧ c = 0x0D#8) →
    (∀ m chain, insertChar s.memory st.chain e.cursor c = .made m chain →
      Completes i [.stories, .memory, .panes] s fun u =>
        u.memory = m ∧
        storyOf u e.story = some { st with
          chain := chain, version := st.version + 1
          fit := if st.fit.status = .pending then st.fit else { st.fit with status := .unknown } } ∧
        u.panes[t].session = some { e with
          cursor := e.cursor + 1, modified := true
          top := sessionTop s.lines[t].layout (chainText m chain) (topAfterInsert e.top e.cursor 1)
            (e.cursor + 1) } ∧
        (∀ x : Fin 32, x ≠ t → u.panes[x].session = s.panes[x].session) ∧
        RefTopsFollow s u e.story (chainText m chain)
          (fun top => topAfterInsert top e.cursor 1) ∧
        ∀ id, id ≠ e.story → storyOf u id = storyOf s id) ∧
    (insertChar s.memory st.chain e.cursor c = .atCap →
      Completes i [.screens] s fun u =>
        u.screens = s.screens.set t { s.screens[t] with bell := true }) ∧
    (insertChar s.memory st.chain e.cursor c = .poolEmpty →
      Completes i [.screens, .notices, .pressure] s fun u =>
        u.screens = s.screens.set t { s.screens[t] with bell := true } ∧ u.pressure = true ∧
        u.notices.pending[srcPool] = true ∧
        u.notices.pool = ⟨Memory.freeCount s.memory, s.reserve, some .empty⟩)

/-- R106, R104, R114: in OVERTYPE a text key replaces the character at the cursor, where there is one that is no paragraph mark: no block is taken or freed, and no top offset is moved by step 1 of R104. -/
def Clause.OvertypeReplacesTheCharacter : Prop :=
  ∀ (t : Fin 32) (c : Byte) (s : State) (e : Session) (st : Story), DecoderFree s t →
    Edits s t e st → isText c = true → replaces s e st = true →
    Completes (.textKey t c) [.stories, .memory, .panes] s fun u =>
      u.memory = replaceChar s.memory st.chain e.cursor c ∧
      storyOf u e.story = some { st with
        version := st.version + 1
        fit := if st.fit.status = .pending then st.fit else { st.fit with status := .unknown } } ∧
      (∀ text, text = chainText u.memory st.chain →
        u.panes[t].session = some { e with
          cursor := e.cursor + 1, modified := true
          top := sessionTop s.lines[t].layout text e.top (e.cursor + 1) } ∧
        RefTopsFollow s u e.story text id) ∧
      (∀ x : Fin 32, x ≠ t → u.panes[x].session = s.panes[x].session) ∧
      ∀ id, id ≠ e.story → storyOf u id = storyOf s id

/-- R103, R104: where a pane may begin. The start of an offset's row begins a row; the edit session's top offset begins a row, leaves the cursor's row among the 22 it shows, and moves only as far as that needs; step 1 moves an offset only for a change below it. -/
def Clause.TopOffsetsBeginRowsAndShowTheCursor : Prop :=
  ∀ (w : Nat) (text : List Byte) (off cursor top : Nat) (rows : List DRow),
    rows = displayRows w text → top = topForCursor rows off cursor →
    rowStart rows (rowStart rows off) = rowStart rows off ∧ rowStart rows off ≤ off ∧
    rowStart rows top = top ∧
    rowIndex rows top ≤ rowIndex rows cursor ∧ rowIndex rows cursor ≤ rowIndex rows top + 21 ∧
    (rowIndex rows off ≤ rowIndex rows cursor → rowIndex rows cursor ≤ rowIndex rows off + 21 →
      top = rowStart rows off) ∧
    (rowIndex rows cursor < rowIndex rows off → top = rowStart rows cursor) ∧
    (rowIndex rows off + 21 < rowIndex rows cursor →
      rowIndex rows top + 21 = rowIndex rows cursor) ∧
    ∀ point, topAfterInsert off point 1 = (if point < off then off + 1 else off) ∧
      topAfterDelete off point 1 = if point < off then off - 1 else off

/-- R104, R106: the text keys in INSERT and in OVERTYPE, and where the panes then begin. -/
def Obligations.TextKeysInsertOrReplace : Prop :=
  Clause.TextKeysInsertAtTheCursor ∧
    Clause.OvertypeReplacesTheCharacter ∧
    Clause.TopOffsetsBeginRowsAndShowTheCursor

/-- R107, R8, R104, R114: delete back takes the character before the cursor and delete forward the one at it, and the top offsets of the session and of the reference panes on the story are kept by R104; where the deletion frees a block (DeletionTakesOneCharacter says when) the recovery test follows, which raises POOL with RECOVERED where it passes, and no other notice changes; at the text's beginning, and at its end, they give the bell. -/
def Obligations.DeleteKeysTakeOneCharacter : Prop :=
  ∀ (t : Fin 32) (s : State) (e : Session) (st : Story) (i : Instr) (k : Nat), DecoderFree s t →
    Edits s t e st →
    (e.cursor = 0 → Completes (.deleteBack t) [.screens] s fun u =>
      u.screens = s.screens.set t { s.screens[t] with bell := true }) ∧
    (lengthOf s st ≤ e.cursor → Completes (.deleteForward t) [.screens] s fun u =>
      u.screens = s.screens.set t { s.screens[t] with bell := true }) ∧
    (i = .deleteBack t ∧ e.cursor = k + 1 ∨ i = .deleteForward t ∧ e.cursor = k ∧ k < lengthOf s st →
      Completes i [.stories, .memory, .panes, .notices, .pressure] s fun u =>
        u.memory = (deleteChar s.memory st.chain k).1 ∧
        storyOf u e.story = some { st with
          chain := (deleteChar s.memory st.chain k).2.1, version := st.version + 1
          fit := if st.fit.status = .pending then st.fit else { st.fit with status := .unknown } } ∧
        (∀ text, text = chainText u.memory (deleteChar s.memory st.chain k).2.1 →
          u.panes[t].session = some { e with
            cursor := k, modified := true
            top := sessionTop s.lines[t].layout text (topAfterDelete e.top k 1) k } ∧
          RefTopsFollow s u e.story text (fun top => topAfterDelete top k 1)) ∧
        (∀ x : Fin 32, x ≠ t → u.panes[x].session = s.panes[x].session) ∧
        (∀ id, id ≠ e.story → storyOf u id = storyOf s id) ∧
        PoolTested (deleteChar s.memory st.chain k).2.2 s u ∧
        (∀ i : Fin 48, i ≠ srcPool → u.notices.pending[i] = s.notices.pending[i]) ∧
        { u.notices with pending := s.notices.pending, pool := s.notices.pool } = s.notices)

/-- R108, R109, R104: the insert/overtype key changes the session's mode; cursor left and right move the cursor by one and keep it in view, or give the bell at the text's ends. -/
def Clause.ToggleAndSidewaysKeys : Prop :=
  ∀ (t : Fin 32) (s : State) (e : Session) (st : Story), DecoderFree s t → Edits s t e st →
    (Completes (.insertOvertypeToggle t) [.panes] s fun u =>
      u.panes = s.panes.set t { s.panes[t] with
        session := some { e with mode := if e.mode = .insert then .overtype else .insert } }) ∧
    (e.cursor = 0 → Completes (.cursorLeft t) [.screens] s fun u =>
      u.screens = s.screens.set t { s.screens[t] with bell := true }) ∧
    (∀ k, e.cursor = k + 1 → Completes (.cursorLeft t) [.panes] s fun u =>
      u.panes = s.panes.set t { s.panes[t] with session := some { e with
        cursor := k, top := sessionTop s.lines[t].layout (textOf s st) e.top k } }) ∧
    (e.cursor = lengthOf s st → Completes (.cursorRight t) [.screens] s fun u =>
      u.screens = s.screens.set t { s.screens[t] with bell := true }) ∧
    (e.cursor ≠ lengthOf s st → Completes (.cursorRight t) [.panes] s fun u =>
      u.panes = s.panes.set t { s.panes[t] with session := some { e with
        cursor := e.cursor + 1
        top := sessionTop s.lines[t].layout (textOf s st) e.top (e.cursor + 1) } })

/-- R109, R104, R111, R105: cursor up and down move the cursor to the next display row and keep it in view, or give the bell at the first and last; with no session, or with focus REFERENCE, they scroll the reference pane by one row. -/
def Clause.UpAndDownKeys : Prop :=
  ∀ (t : Fin 32) (s : State), DecoderFree s t → s.screens[t].mode = .normal →
    (∀ e st w rows, s.panes[t].session = some e → e.focus = .edit →
      storyOf s e.story = some st → w = editWidth s.lines[t].layout → rows = displayRows w (textOf s st) →
      (rowIndex rows e.cursor = 0 → Completes (.cursorUp t) [.screens] s fun u =>
        u.screens = s.screens.set t { s.screens[t] with bell := true }) ∧
      (∀ i, rowIndex rows e.cursor = i + 1 → Completes (.cursorUp t) [.panes] s fun u =>
        u.panes = s.panes.set t { s.panes[t] with session := some { e with
          cursor := rowTarget w rows e.cursor i
          top := sessionTop s.lines[t].layout (textOf s st) e.top
            (rowTarget w rows e.cursor i) } }) ∧
      (rowIndex rows e.cursor + 1 = rows.length → Completes (.cursorDown t) [.screens] s fun u =>
        u.screens = s.screens.set t { s.screens[t] with bell := true }) ∧
      (rowIndex rows e.cursor + 1 ≠ rows.length → Completes (.cursorDown t) [.panes] s fun u =>
        u.panes = s.panes.set t { s.panes[t] with session := some { e with
          cursor := rowTarget w rows e.cursor (rowIndex rows e.cursor + 1)
          top := sessionTop s.lines[t].layout (textOf s st) e.top
            (rowTarget w rows e.cursor (rowIndex rows e.cursor + 1)) } })) ∧
    (∀ r st rows, (s.panes[t].session = none ∨ ∃ e, s.panes[t].session = some e ∧ e.focus = .reference) →
      s.panes[t].ref = some r → storyOf s r.story = some st → rows = displayRows 39 (textOf s st) →
      (r.top = 0 → Completes (.cursorUp t) [.screens] s fun u =>
        u.screens = s.screens.set t { s.screens[t] with bell := true }) ∧
      (r.top ≠ 0 → Completes (.cursorUp t) [.panes] s fun u =>
        u.panes = s.panes.set t { s.panes[t] with
          ref := some ⟨r.story, (rowAt rows (rowIndex rows r.top - 1)).start⟩ }) ∧
      (rows.length ≤ rowIndex rows r.top + 22 → Completes (.cursorDown t) [.screens] s fun u =>
        u.screens = s.screens.set t { s.screens[t] with bell := true }) ∧
      (rowIndex rows r.top + 22 < rows.length → Completes (.cursorDown t) [.panes] s fun u =>
        u.panes = s.panes.set t { s.panes[t] with
          ref := some ⟨r.story, (rowAt rows (rowIndex rows r.top + 1)).start⟩ }))

/-- R110: the pane switch key moves the focus of an open session to an open reference pane and back, or gives the bell. -/
def Clause.PaneSwitchMovesTheFocus : Prop :=
  ∀ (t : Fin 32) (s : State) (e : Session), DecoderFree s t → s.screens[t].mode = .normal →
    s.panes[t].session = some e →
    (e.focus = .reference → Completes (.paneSwitch t) [.panes] s fun u =>
      u.panes = s.panes.set t { s.panes[t] with session := some { e with focus := .edit } }) ∧
    (e.focus = .edit → s.panes[t].ref.isSome = true → Completes (.paneSwitch t) [.panes] s fun u =>
      u.panes = s.panes.set t { s.panes[t] with session := some { e with focus := .reference } }) ∧
    (e.focus = .edit → s.panes[t].ref = none → Completes (.paneSwitch t) [.screens] s fun u =>
      u.screens = s.screens.set t { s.screens[t] with bell := true })

/-- R108 to R111: the keys that change no text. -/
def Obligations.CursorAndFocusKeys : Prop :=
  Clause.ToggleAndSidewaysKeys ∧ Clause.UpAndDownKeys ∧ Clause.PaneSwitchMovesTheFocus

/-- R99 step 1: OPEN WINDOW refuses RANGE for a terminal, a pane or a story out of range, before anything else, and then NO-SUCH for a free story. -/
def Clause.OpenWindowChecksIdentities : Prop :=
  ∀ (tag : Byte) (body : List Byte) (s : State), 6 ≤ body.length → Takes ⟨0x20#8, tag, body⟩ s →
    (32 ≤ u8 body 0 ∨ 2 ≤ u8 body 1 ∨ u16 body 2 = 0 ∨ 1024 < u16 body 2 →
      Refuses (.openWindow tag body) 0x20#8 tag .range s) ∧
    (u8 body 0 < 32 → u8 body 1 < 2 → 1 ≤ u16 body 2 → u16 body 2 ≤ 1024 →
      storyOf s (u16 body 2) = none → Refuses (.openWindow tag body) 0x20#8 tag .noSuch s)

/-- R99 to R101, R116, R134: OPEN WINDOW's checks in their order for a story in use; the edit pane takes the story in EDITING with a fresh session at the clamped offset, whose row is the pane's first, and a session open before ends with its fit offer; the reference pane shows it from the start of the offset's row, which the reply gives. That the focus is EDIT after a reference pane already open was cleared first is log entry 36 (DEDUCED). -/
def Clause.OpenWindowClaimsOrShows : Prop :=
  ∀ (tag : Byte) (body : List Byte) (s : State) (t : Fin 32) (st : Story) (off : Nat),
    6 ≤ body.length → Takes ⟨0x20#8, tag, body⟩ s → u8 body 0 = t.val → 1 ≤ u16 body 2 →
    u16 body 2 ≤ 1024 → storyOf s (u16 body 2) = some st → off = min (u16 body 4) (lengthOf s st) →
    (2 ≤ u8 body 1 → Refuses (.openWindow tag body) 0x20#8 tag .range s) ∧
    (u8 body 1 ≤ 1 → s.lines[t].attached = false →
      Refuses (.openWindow tag body) 0x20#8 tag .noSuch s) ∧
    (u8 body 1 ≤ 1 → s.lines[t].attached = true → s.screens[t].mode ≠ .normal →
      Refuses (.openWindow tag body) 0x20#8 tag .busy s) ∧
    (u8 body 1 ≤ 1 → s.lines[t].attached = true → s.screens[t].mode = .normal →
      (maySee s t st = false ∨ (u8 body 1 = 0 ∧ changeCheck s.lines[t].key st = false) →
        Refuses (.openWindow tag body) 0x20#8 tag .denied s) ∧
      (maySee s t st = true → u8 body 1 = 1 → s.lines[t].layout = .full →
        Refuses (.openWindow tag body) 0x20#8 tag .range s) ∧
      (maySee s t st = true → u8 body 1 = 1 → s.lines[t].layout = .split →
        ∀ top, top = rowStart (displayRows 39 (textOf s st)) off →
        Replies (.openWindow tag body) 0x20#8 tag
          ⟨if off = u16 body 4 then .ok else .clamped,
            eWord st.version ++ e16 (lengthOf s st) ++ e16 top⟩ [.panes] s fun u =>
          u.panes = s.panes.set t
            ⟨if s.panes[t].ref = none then s.panes[t].session
              else s.panes[t].session.map fun e => { e with focus := .edit },
              some ⟨u16 body 2, top⟩⟩) ∧
      (maySee s t st = true → u8 body 1 = 0 → changeCheck s.lines[t].key st = true →
        (st.holding ≠ .idle → st.holding ≠ .editing t →
          Reads (.openWindow tag body) 0x20#8 tag
            ⟨.locked, e8 st.holding.stateCode ++ e8 st.holding.holderCode⟩ s) ∧
        (st.holding = .idle ∨ st.holding = .editing t →
          Replies (.openWindow tag body) 0x20#8 tag
            ⟨if off = u16 body 4 then .ok else .clamped,
              eWord st.version ++ e16 (lengthOf s st) ++ e16 off⟩ [.stories, .fit, .panes] s fun u =>
            u.panes = s.panes.set t { s.panes[t] with
              session := some ⟨u16 body 2,
                rowStart (displayRows (editWidth s.lines[t].layout) (textOf s st)) off, off, .insert,
                .edit, false⟩ } ∧
            (∃ so, storyOf u (u16 body 2) = some so ∧
              { so with fit := st.fit } = { st with holding := .editing t } ∧
              ((∀ e, s.panes[t].session = some e → e.story ≠ u16 body 2) → so.fit = st.fit) ∧
              ∀ e, s.panes[t].session = some e → e.story = u16 body 2 →
                SessionEnded s (setStory e.story { so with holding := .idle } u) e st) ∧
            (s.panes[t].session = none → u.fit = s.fit) ∧
            (∀ e old, s.panes[t].session = some e → e.story ≠ u16 body 2 →
              storyOf s e.story = some old → SessionEnded s u e old) ∧
            ∀ id, id ≠ u16 body 2 → (∀ e, s.panes[t].session = some e → e.story ≠ id) →
              storyOf u id = storyOf s id)))

/-- R116, R14, R134: CLOSE WINDOW releases the story of the edit pane to IDLE, offers it for a fit exactly where the session was modified, and closes the session, or clears the reference pane; NO-SUCH where the terminal is detached or the pane is closed. That the modified flag's yes is sent as 01h is the model's choice (log entry 8, DEDUCED). -/
def Clause.CloseWindowReleasesTheStory : Prop :=
  ∀ (tag : Byte) (body : List Byte) (s : State), 2 ≤ body.length → Takes ⟨0x21#8, tag, body⟩ s →
    ((32 ≤ u8 body 0 ∨ 2 ≤ u8 body 1) → Refuses (.closeWindow tag body) 0x21#8 tag .range s) ∧
    ∀ t : Fin 32, u8 body 0 = t.val →
      (u8 body 1 = 0 → (s.lines[t].attached = false ∨ s.panes[t].session = none) →
        Refuses (.closeWindow tag body) 0x21#8 tag .noSuch s) ∧
      (u8 body 1 = 1 → (s.lines[t].attached = false ∨ s.panes[t].ref = none) →
        Refuses (.closeWindow tag body) 0x21#8 tag .noSuch s) ∧
      (∀ e st, u8 body 1 = 0 → s.lines[t].attached = true → s.panes[t].session = some e →
        storyOf s e.story = some st →
        Replies (.closeWindow tag body) 0x21#8 tag
          ⟨.ok, e16 e.story ++ eWord st.version ++ eFlag e.modified⟩ [.stories, .fit, .panes] s
          fun u =>
          u.panes = s.panes.set t { s.panes[t] with session := none } ∧
          SessionEnded s u e st ∧ ∀ id, id ≠ e.story → storyOf u id = storyOf s id) ∧
      (∀ r, u8 body 1 = 1 → s.lines[t].attached = true → s.panes[t].ref = some r →
        Replies (.closeWindow tag body) 0x21#8 tag ⟨.ok, e16 r.story⟩ [.panes] s fun u =>
          u.panes[t].ref = none ∧
          u.panes[t].session = s.panes[t].session.map (fun e => { e with focus := .edit }) ∧
          ∀ x : Fin 32, x ≠ t → u.panes[x] = s.panes[x])

/-- R99 to R101, R116: OPEN WINDOW and CLOSE WINDOW. -/
def Obligations.WindowsOpenAndClose : Prop :=
  Clause.OpenWindowChecksIdentities ∧
    Clause.OpenWindowClaimsOrShows ∧
    Clause.CloseWindowReleasesTheStory

/-! ### Faces, settings and fits (spec/07) -/

/-- R119, R120, R134: SET WIDTHS' refusals; otherwise the face is loaded with the 95 widths and the spaces, its generation rises by one, and no other face changes. Every story whose setting names the face becomes UNKNOWN, or stays PENDING, and is offered in ascending order: those not in the Fit Queue join its tail with PENDING while it has room. The reply gives the new generation, the number of those stories and the number left UNKNOWN. -/
def Clause.SetWidthsLoadsTheFace : Prop :=
  ∀ (tag : Byte) (body : List Byte) (s : State), 98 ≤ body.length → Takes ⟨0x22#8, tag, body⟩ s →
    (8 ≤ u8 body 0 → Refuses (.setWidths tag body) 0x22#8 tag .range s) ∧
    ∀ f : Fin 8, u8 body 0 = f.val →
      (((∃ i : Fin 95, 36 < u8 body (3 + i)) ∨ u8 body 3 = 0 ∨ u8 body 1 = 0 ∨
          u8 body 3 < u8 body 1 ∨ u8 body 2 < u8 body 3 ∨ 36 < u8 body 2) →
        Refuses (.setWidths tag body) 0x22#8 tag .range s) ∧
      ((∀ i : Fin 95, u8 body (3 + i) ≤ 36) → 1 ≤ u8 body 1 → u8 body 1 ≤ u8 body 3 →
        u8 body 3 ≤ u8 body 2 → u8 body 2 ≤ 36 →
        (∀ c, faceBusy s f = some c →
          Reads (.setWidths tag body) 0x22#8 tag ⟨.busy, e8 c⟩ s) ∧
        (faceBusy s f = none →
          ∃ r, Replies (.setWidths tag body) 0x22#8 tag r [.faces, .stories, .fit] s fun u =>
            r.result = .ok ∧
            (Tab.wf s.stories → ∃ ids joining : List Nat, ids.Pairwise (· < ·) ∧
              (∀ id, id ∈ ids ↔ ∃ st, storyOf s id = some st ∧ st.setting.face = f) ∧
              joining = (ids.filter fun id => !inFitQueue s id).take (8 - s.fit.list.length) ∧
              r.data = eWord (s.faces[f].generation + 1) ++ e16 ids.length ++
                e16 (ids.countP (isUnknown u)) ∧
              u.fit = { s.fit with list := s.fit.list ++ joining.map fun id => ⟨id, 0⟩ } ∧
              ∀ id st, storyOf s id = some st → st.setting.face = f →
                storyOf u id = some { st with fit := { st.fit with
                  status := if id ∈ joining ∨ st.fit.status = .pending then .pending
                    else .unknown } }) ∧
            u.faces = s.faces.set f ⟨true, Vector.ofFn fun i => u8 body (3 + i), u8 body 1,
              u8 body 2, s.faces[f].generation + 1⟩ ∧
            (Tab.wf s.stories → ∀ id st, storyOf s id = some st → st.setting.face ≠ f →
              storyOf u id = some st)))

/-- R122, R123, R134: SET SETTING refuses a face outside 0 to 7 and a story in SETTING; otherwise the story takes the setting clamped into Table 7-1, with its status UNKNOWN or still PENDING, and the reply carries the one before; with a loaded face the story is offered for a fit, with an unloaded one it leaves the Fit Queue with UNKNOWN, its partial result discarded, unless a grant of its fit is in flight; an equal setting changes nothing; LOCKED carries the number of the holding channel. -/
def Clause.SetSettingStoresTheClampedSetting : Prop :=
  ∀ (tag : Byte) (body : List Byte) (s : State), 13 ≤ body.length → Takes ⟨0x24#8, tag, body⟩ s →
    (8 ≤ u8 body 2 → Refuses (.setSetting tag body) 0x24#8 tag .range s) ∧
    ∀ given, settingAt body 2 = some given →
      RefusesStory (.setSetting tag body) 0x24#8 tag (u16 body 0) s ∧
      ∀ st, 1 ≤ u16 body 0 → u16 body 0 ≤ 1024 → storyOf s (u16 body 0) = some st →
        (∀ c, st.holding = .setting c →
          Reads (.setSetting tag body) 0x24#8 tag ⟨.locked, e8 c⟩ s) ∧
        ((∀ c, st.holding ≠ .setting c) → clampSetting given = st.setting →
          Reads (.setSetting tag body) 0x24#8 tag
            ⟨if clampSetting given = given then .ok else .clamped, eSetting st.setting⟩ s) ∧
        ((∀ c, st.holding ≠ .setting c) → clampSetting given ≠ st.setting →
          Replies (.setSetting tag body) 0x24#8 tag
            ⟨if clampSetting given = given then .ok else .clamped, eSetting st.setting⟩
            [.stories, .fit] s fun u =>
            ∀ so, so = { st with
                setting := clampSetting given
                fit := { st.fit with
                  status := if st.fit.status = .pending then .pending else .unknown } } →
              (s.faces[so.setting.face].loaded = true → OfferTaken s u (u16 body 0) so) ∧
              (s.faces[so.setting.face].loaded = false →
                (inFitQueue s (u16 body 0) = false ∨
                    (∃ p, s.fit.progress = some p ∧ p.story = u16 body 0 ∧ p.inFlight = true ∧
                      p.abandoned = false) →
                  u.fit = s.fit ∧ storyOf u (u16 body 0) = some so) ∧
                (inFitQueue s (u16 body 0) = true →
                  (∀ p, s.fit.progress = some p → p.story = u16 body 0 → p.abandoned = false →
                    p.inFlight = false) →
                  u.fit.list = s.fit.list.filter (fun i => i.story ≠ u16 body 0) ∧
                  (u.fit.progress = match s.fit.progress with
                    | none => none
                    | some p =>
                      if p.story = u16 body 0 ∧ p.abandoned = false then none else some p) ∧
                  storyOf u (u16 body 0) =
                    some { so with fit := { so.fit with status := .unknown } })) ∧
              ∀ id, id ≠ u16 body 0 → storyOf u id = storyOf s id)

/-- R122, Table 7-1: a clamped setting lies within the table, a setting within it is kept, and the face is never clamped. -/
def Clause.ClampedSettingsAreLegal : Prop :=
  ∀ x : Setting, (clampSetting x).Legal ∧ (x.Legal → clampSetting x = x) ∧
    (clampSetting x).face = x.face

/-- R119, R120, R122, R123: SET WIDTHS, SET SETTING and the clamps of Table 7-1. -/
def Obligations.FacesAndSettingsAreStored : Prop :=
  Clause.SetWidthsLoadsTheFace ∧
    Clause.SetSettingStoresTheClampedSetting ∧
    Clause.ClampedSettingsAreLegal

/-- R135: FIT STORY: NO-SUCH for an unloaded face, OK with its position for a story already queued, FULL with 8 queued; otherwise the story joins the tail with restart count 0 and status PENDING. -/
def Clause.FitStoryJoinsTheQueue : Prop :=
  ∀ (tag : Byte) (body : List Byte) (s : State), 2 ≤ body.length → Takes ⟨0x25#8, tag, body⟩ s →
    RefusesStory (.fitStory tag body) 0x25#8 tag (u16 body 0) s ∧
    ∀ st, 1 ≤ u16 body 0 → u16 body 0 ≤ 1024 → storyOf s (u16 body 0) = some st →
      (s.faces[st.setting.face].loaded = false →
        Refuses (.fitStory tag body) 0x25#8 tag .noSuch s) ∧
      (s.faces[st.setting.face].loaded = true → inFitQueue s (u16 body 0) = true →
        Reads (.fitStory tag body) 0x25#8 tag ⟨.ok, e16 (fitPosition s (u16 body 0))⟩ s) ∧
      (s.faces[st.setting.face].loaded = true → inFitQueue s (u16 body 0) = false →
        8 ≤ s.fit.list.length → Refuses (.fitStory tag body) 0x25#8 tag .full s) ∧
      (s.faces[st.setting.face].loaded = true → inFitQueue s (u16 body 0) = false →
        s.fit.list.length < 8 →
        Replies (.fitStory tag body) 0x25#8 tag ⟨.ok, e16 (s.fit.list.length + 1)⟩
          [.stories, .fit] s fun u =>
          u.fit = { s.fit with list := s.fit.list ++ [⟨u16 body 0, 0⟩] } ∧
          u.stories = Tab.put s.stories (u16 body 0)
            { st with fit := { st.fit with status := .pending } })

/-- R136 to R138: the end of the Fit Queue's grant frees the engine; a fit that stands goes on with its counts, or writes the fit record and leaves the queue when no paragraph is left; a fit whose story changed is discarded and goes to the tail. -/
def Clause.FitGrantEndCountsCompletesOrDiscards : Prop :=
  ∀ (s : State) (p : FitProgress) (st : Story) (w : List LineRec × Option Resume),
    s.engine.owner = some .fit → s.fit.progress = some p → p.abandoned = false →
    storyOf s p.story = some st →
    w = grantWork (setWith s p.setting) (textOf s st) p.resume →
    Completes .fitGrantEnd [.stories, .fit, .engine] s fun u =>
      u.engine = { s.engine with owner := none } ∧
      (fitStands s p st = true → ∀ r, w.2 = some r →
        u.stories = s.stories ∧ u.fit.list = s.fit.list ∧
        u.fit.progress = some { p with
          resume := r, inFlight := false, lines := p.lines + w.1.length
          loose := p.loose + w.1.countP (·.loose), forced := p.forced + w.1.countP (·.forced) }) ∧
      (fitStands s p st = true → w.2 = none →
        u.fit.progress = none ∧ u.fit.list = s.fit.list.filter (fun i => i.story ≠ p.story) ∧
        u.stories = Tab.put s.stories p.story { st with fit :=
          { status := fitStatusOf p.setting (p.lines + w.1.length)
            depth := (p.lines + w.1.length) * p.setting.leading
            lines := p.lines + w.1.length
            loose := p.loose + w.1.countP (·.loose)
            forced := p.forced + w.1.countP (·.forced)
            version := p.version } }) ∧
      (fitStands s p st = false → s.faces[st.setting.face].loaded = true →
        u.fit.progress = none ∧
        (∀ n, s.fit.list.filter (fun i => i.story = p.story) = [⟨p.story, n⟩] →
          u.fit.list = s.fit.list.filter (fun i => i.story ≠ p.story) ++
            [⟨p.story, min 255 (n + 1)⟩]) ∧
        u.stories = Tab.put s.stories p.story { st with fit := { st.fit with status := .pending } }) ∧
      (fitStands s p st = false → s.faces[st.setting.face].loaded = false →
        u.fit.progress = none ∧ u.fit.list = s.fit.list.filter (fun i => i.story ≠ p.story) ∧
        u.stories = Tab.put s.stories p.story { st with fit := { st.fit with status := .unknown } })

/-- R134: an automatic offer of a story: taken as the table gives, by every rule that makes one; it changes no other story, and nothing but the story's entry and the Fit Queue. -/
def Clause.AutomaticOffersAreTaken : Prop :=
  ∀ (s : State) (id : Nat) (st : Story), storyOf s id = some st →
    KeepsBut [.stories, .fit] s (autoOffer id s) ∧ OfferTaken s (autoOffer id s) id st ∧
    ∀ x, x ≠ id → storyOf (autoOffer id s) x = storyOf s x

/-- R134 to R138: automatic offers, FIT STORY and the end of the Fit Queue's grant. -/
def Obligations.FitsJoinAndEnd : Prop :=
  Clause.AutomaticOffersAreTaken ∧
    Clause.FitStoryJoinsTheQueue ∧ Clause.FitGrantEndCountsCompletesOrDiscards

/-- R131: the fit status of a depth against a budget, both in half-points: NONE with budget 0, OVER above it, SHORT with two lines or more to spare, otherwise ON. -/
def Clause.FitStatusAgainstTheBudget : Prop :=
  ∀ (x : Setting) (n d b : Nat), d = n * x.leading → b = 2 * x.budget →
    (fitStatusOf x n = .none ↔ x.budget = 0) ∧
    (fitStatusOf x n = .over ↔ x.budget ≠ 0 ∧ b < d) ∧
    (fitStatusOf x n = .short ↔ x.budget ≠ 0 ∧ d + 2 * x.leading ≤ b) ∧
    (fitStatusOf x n = .on ↔ x.budget ≠ 0 ∧ d ≤ b ∧ b < d + 2 * x.leading)

/-- R127 to R130: a line set from a text that begins with a word, where every character has a width: its words come from the text in order, its natural width with the minimum spaces is within the available width unless it is forced, and what it leaves begins with a word or is nothing. -/
def Clause.LinesFitTheirMeasure : Prop :=
  ∀ (k : SetWith) (para : Nat) (first : Bool) (text : List Byte) (r : LineRec) (rest : List Byte),
    text ≠ [] → text.head? ≠ some 0x20#8 → setLine k para first text = (r, rest) →
    rest.length < text.length ∧ rest.head? ≠ some 0x20#8 ∧ r.chars ≠ [] ∧
    (r.chars.filter fun c => c ≠ 0x20#8) ++ (rest.filter fun c => c ≠ 0x20#8) =
      text.filter (fun c => c ≠ 0x20#8) ∧
    (r.forced = true ↔ k.available first < k.width (headWord text)) ∧
    (r.forced = false →
      k.width (r.chars.filter fun c => c ≠ 0x20#8) + r.gaps * k.minSpace * k.setting.size ≤
        k.available first) ∧
    (r.forced = true → r.cls = .quadLeft ∧ r.gaps = 0) ∧
    (r.cls = .justified → rest ≠ [] ∧ 1 ≤ r.gaps ∧ r.space = none)

/-- R126 to R130: what a line takes, and its class, marks and space, for a line set from a text that begins with a word; words are the line's words. A line not forced takes words while they fit with the minimum gaps, and no more; a forced line takes the characters of its word while they fit, and at least one. A last line is quad left, a line of one word that is not the last is quad left and loose, any other is justified, and loose where its gaps must open wider than the maximum; a quad-left line's gaps are the normal space, or the largest below it at which they fit. -/
def Clause.LinesAreGreedyAndClassed : Prop :=
  ∀ (k : SetWith) (para A W : Nat) (first : Bool) (text : List Byte) (r : LineRec)
    (rest word : List Byte) (more : List (List Byte)), text.head? ≠ some 0x20#8 →
    wordsOf text = word :: more → setLine k para first text = (r, rest) → A = k.available first →
    W = k.width (r.chars.filter fun c => c ≠ 0x20#8) →
    r.para = para ∧ r.first = first ∧
    (k.width word ≤ A → r.forced = false ∧
      (∃ words, wordsOf text = words ++ wordsOf rest ∧ r.chars = joinWords words ∧
        words.length = r.gaps + 1) ∧
      (∀ next others, wordsOf rest = next :: others →
        A < W + k.width next + (r.gaps + 1) * k.minSpace * k.setting.size) ∧
      (rest = [] → r.cls = .quadLeft ∧ r.loose = false) ∧
      (rest ≠ [] → r.gaps = 0 → r.cls = .quadLeft ∧ r.loose = true) ∧
      (rest ≠ [] → r.gaps ≠ 0 → r.cls = .justified ∧ r.space = none ∧
        (r.loose = true ↔ r.gaps * k.maxSpace * k.setting.size < A - W)) ∧
      (r.gaps = 0 → r.space = none) ∧
      (rest = [] → r.gaps ≠ 0 → ∃ x, r.space = some x ∧
        (W + r.gaps * k.normalSpace * k.setting.size ≤ A → x = k.normalSpace) ∧
        (A < W + r.gaps * k.normalSpace * k.setting.size →
          k.minSpace ≤ x ∧ x < k.normalSpace ∧ W + r.gaps * x * k.setting.size ≤ A ∧
          ∀ y, x < y → y < k.normalSpace → A < W + r.gaps * y * k.setting.size))) ∧
    (A < k.width word → r.forced = true ∧ r.loose = false ∧ r.cls = .quadLeft ∧ r.gaps = 0 ∧
      r.space = none ∧ ∃ n, 1 ≤ n ∧ n ≤ word.length ∧ r.chars = word.take n ∧
        (n = 1 ∨ W ≤ A) ∧ (n < word.length → A < k.width (word.take (n + 1))) ∧
        wordsOf rest = if n = word.length then more else word.drop n :: more)

/-- R126, R132: one grant's work from a resume point. It sets lines of one paragraph from there, one after another, up to the paragraph's end or the 64th line; an empty paragraph gives one line without characters. At the paragraph's end the work goes on at the next paragraph, if the text has one; within the paragraph it goes on at the offset of the next line, which is not the paragraph's first, and what stands there is what the lines left, so that the next grant's lines are those an uninterrupted setting would set next. -/
def Clause.GrantsSetAParagraphOrSixtyFourLines : Prop :=
  ∀ (k : SetWith) (text : List Byte) (r : Resume) (w : List LineRec × Option Resume)
    (par : List Byte) (next : Option Resume), w = grantWork k text r →
    par = (text.drop r.offset).takeWhile (fun c => c ≠ 0x0D#8) →
    (next = if r.offset + par.length + 1 < text.length
      then some ⟨r.para + 1, r.offset + par.length + 1, true⟩ else none) →
    w.1.length ≤ 64 ∧ (text.length ≤ r.offset → w = ([], none)) ∧
    (r.offset < text.length → wordsOf par = [] → w.2 = next ∧
      w.1 = if r.first then [⟨r.para, true, [], 0, .quadLeft, none, false, false⟩] else []) ∧
    (r.offset < text.length → wordsOf par ≠ [] → ∃ left,
      LinesFrom k r.para r.first (par.dropWhile fun c => c = 0x20#8) w.1 left ∧
      (left = [] → w.2 = next) ∧
      (left ≠ [] → w.1.length = 64 ∧ ∃ off, w.2 = some ⟨r.para, off, false⟩ ∧
        (text.drop off).takeWhile (fun c => c ≠ 0x0D#8) = left ∧
        left.dropWhile (fun c => c = 0x20#8) = left ∧ off + left.length = r.offset + par.length)) ∧
    ∀ i x, w.1[i]? = some x → x.para = r.para ∧ x.first = (decide (i = 0) && r.first)

/-- R126 to R132: one set line, one grant's work, and the fit status of a depth. -/
def Obligations.LinesAndFitStatus : Prop :=
  Clause.FitStatusAgainstTheBudget ∧
    Clause.LinesFitTheirMeasure ∧
    Clause.LinesAreGreedyAndClassed ∧
    Clause.GrantsSetAParagraphOrSixtyFourLines

/-! ### Typesetter channels and the Setting Engine (spec/08) -/

/-- R140: while the queues are within their capacities the next job number is 1 to 255 and held by no job. -/
def Clause.JobNumbersAreFree : Prop :=
  ∀ s : State, ChannelsFit s →
    1 ≤ nextNumber s ∧ nextNumber s ≤ 255 ∧ numberHeld s (nextNumber s) = false

/-- R141, R142 (log entry 8: NO-SUCH names the entry by its place, from 1; log entry 44: the unlisted bits of a presence byte are ignored): QUEUE JOB's checks in their order; an accepted job takes the next number, claims every story, and joins the tail of the channel's queue; an IDLE channel begins it at its first entry, here WHOLE (for CHANGED entries see UnchangedEntriesOfANewJobAreReleased). -/
def Clause.QueueJobClaimsEveryStory : Prop :=
  ∀ (tag : Byte) (body : List Byte) (s : State) (raw : List (List Byte)), 3 ≤ body.length →
    Takes ⟨0x27#8, tag, body⟩ s → raw = rawEntries (body.drop 3) (u8 body 2) →
    ((u8 body 2 = 0 ∨ 16 < u8 body 2 ∨ body.length < 3 + 13 * u8 body 2 ∨ ¬ (rawStories raw).Nodup) →
      Refuses (.queueJob tag body) 0x27#8 tag .malformed s) ∧
    (1 ≤ u8 body 2 → u8 body 2 ≤ 16 → 3 + 13 * u8 body 2 ≤ body.length → (rawStories raw).Nodup →
      ((4 ≤ u8 body 0 ∨ 5 ≤ u8 body 1 ∨ entriesOf raw = none) →
        Refuses (.queueJob tag body) 0x27#8 tag .range s) ∧
      ∀ (c : Fin 4) (ed : Fin 5) (es : List Entry), u8 body 0 = c.val → u8 body 1 = ed.val →
        entriesOf raw = some es →
        (∀ i, es.findIdx? (entryMissing s) = some i →
          Reads (.queueJob tag body) 0x27#8 tag ⟨.noSuch, e8 (i + 1)⟩ s) ∧
        ((∀ e ∈ es, entryMissing s e = false) →
          (4 ≤ s.channels[c].jobs.length → Refuses (.queueJob tag body) 0x27#8 tag .full s) ∧
          (s.channels[c].jobs.length < 4 → ∀ e so, es.find? (entryHeld s) = some e →
            storyOf s e.story = some so →
            Reads (.queueJob tag body) 0x27#8 tag
              ⟨.locked, e16 e.story ++ e8 so.holding.stateCode ++ e8 so.holding.holderCode⟩ s) ∧
          (s.channels[c].jobs.length < 4 → (∀ e ∈ es, entryHeld s e = false) →
            (s.channels[c].state = .idle → s.channels[c].jobs = [] ∧ ∀ e ∈ es, e.mode = .whole) →
            ∃ job, Replies (.queueJob tag body) 0x27#8 tag
              ⟨if es.map (clampEntry s) = es then .ok else .clamped,
                e8 (nextNumber s) ++ e16 (s.channels[c].jobs.length + 1)⟩
              [.lastJob, .stories, .channels] s fun u =>
              job = (⟨nextNumber s, ed, es.map (clampEntry s)⟩ : Job) ∧ u.lastJob = nextNumber s ∧
              (∀ e ∈ es, ∃ so, storyOf u e.story = some so ∧ so.holding = .setting c) ∧
              (∀ id, (∀ e ∈ es, e.story ≠ id) → storyOf u id = storyOf s id) ∧
              u.channels = s.channels.set c
                (if s.channels[c].state = .idle then
                  { s.channels[c] with
                    state := .running, jobs := [job], pos := .at 0 ⟨1, 0, true⟩ false }
                else { s.channels[c] with jobs := s.channels[c].jobs ++ [job] }))))

/-- R142, R144, R147, R153, R161: a job accepted by an IDLE channel: of its entries, the first k are CHANGED with no block of their story flagged, and they are released at once, their stories IDLE again and nothing placed for them; the other stories are claimed. The channel begins at entry k, or, with no entry left, the job is recorded DONE with no story sent, CHANNEL is raised, and the channel is IDLE. -/
def Clause.UnchangedEntriesOfANewJobAreReleased : Prop :=
  ∀ (tag : Byte) (body : List Byte) (s : State) (raw : List (List Byte)) (c : Fin 4) (ed : Fin 5)
    (es : List Entry) (k : Nat), 3 ≤ body.length → Takes ⟨0x27#8, tag, body⟩ s →
    raw = rawEntries (body.drop 3) (u8 body 2) → 1 ≤ u8 body 2 → u8 body 2 ≤ 16 →
    3 + 13 * u8 body 2 ≤ body.length → (rawStories raw).Nodup → u8 body 0 = c.val →
    u8 body 1 = ed.val → entriesOf raw = some es → (∀ e ∈ es, entryMissing s e = false) →
    (∀ e ∈ es, entryHeld s e = false) → s.channels[c].state = .idle → s.channels[c].jobs = [] →
    (∀ i e so, i < k → es[i]? = some e → storyOf s e.story = some so →
      e.mode = .changed ∧ ∀ b ∈ so.chain, (Memory.read s.memory b).changed = false) →
    (k = es.length ∨ ∃ e so, es[k]? = some e ∧ storyOf s e.story = some so ∧ (e.mode = .whole ∨
      ∃ b ∈ so.chain, (Memory.read s.memory b).changed = true ∧ 1 ≤ fill s.memory b)) →
    ∃ job, job = (⟨nextNumber s, ed, (es.map (clampEntry s)).mapIdx fun i e =>
        if i < k then { e with released := true } else e⟩ : Job) ∧
      Replies (.queueJob tag body) 0x27#8 tag
        ⟨if es.map (clampEntry s) = es then .ok else .clamped, e8 (nextNumber s) ++ e16 1⟩
        [.lastJob, .stories, .channels, .notices] s fun u =>
        u.lastJob = nextNumber s ∧
        (∀ i e so, es[i]? = some e → storyOf s e.story = some so →
          storyOf u e.story = some { so with holding := if i < k then .idle else .setting c }) ∧
        (∀ id, (∀ e ∈ es, e.story ≠ id) → storyOf u id = storyOf s id) ∧
        (k < es.length → u.notices = s.notices ∧ u.channels = s.channels.set c
          { s.channels[c] with
            state := .running, jobs := [job], pos := .at k ⟨1, 0, true⟩ false }) ∧
        (k = es.length → u.notices = s.notices.setPending (srcChannel c) true ∧
          u.channels = s.channels.set c { s.channels[c] with
            state := .idle, jobs := [], pos := .complete
            finished := (s.channels[c].finished ++
              [(⟨nextNumber s, ed, .done, es.length, 0, .notApplicable⟩ : JobResult)]).drop
                (s.channels[c].finished.length + 1 - 4) })

/-- R140 to R142, R144, R147: job numbers and QUEUE JOB. -/
def Obligations.JobsAreQueued : Prop :=
  Clause.JobNumbersAreFree ∧
    Clause.QueueJobClaimsEveryStory ∧
    Clause.UnchangedEntriesOfANewJobAreReleased

/-- R150: SET ARBITRATION replaces the mode and the five levels, a level above 3 brought to 3, keeps the last granted client and the grant in flight, and answers with the previous mode and levels. -/
def Obligations.SetArbitrationReplacesModeAndLevels : Prop :=
  ∀ (tag : Byte) (body : List Byte) (s : State), Takes ⟨0x28#8, tag, body⟩ s →
    (body.length < 6 → Refuses (.setArbitration tag body) 0x28#8 tag .malformed s) ∧
    (6 ≤ body.length → 2 ≤ u8 body 0 → Refuses (.setArbitration tag body) 0x28#8 tag .range s) ∧
    (6 ≤ body.length → ∀ m : ArbMode, u8 body 0 = m.code →
      Replies (.setArbitration tag body) 0x28#8 tag
        ⟨if ∀ i : Fin 5, u8 body (1 + i) ≤ 3 then .ok else .clamped,
          e8 s.engine.mode.code ++ s.engine.levels.toList.flatMap e8⟩ [.engine] s fun u =>
        u.engine = ⟨m, Vector.ofFn fun i => min 3 (u8 body (1 + i)), s.engine.last,
          s.engine.owner⟩)

/-- R149: the arbiter's choice: in ROTATE the first requesting client after the last granted one in the cyclic order; in RANK the first of those of the highest effective level, a channel whose current job's edition is PASSED counting as level 3. -/
def Clause.ArbiterChoosesByTurnOrRank : Prop :=
  ∀ (s : State) (k : Client), chooseClient s = some k ↔
    requesting s k = true ∧
      ∀ j : Client, requesting s j = true →
        (s.engine.mode = .rank → effectiveLevel s j ≤ effectiveLevel s k) ∧
        ((s.engine.mode = .rank → effectiveLevel s j = effectiveLevel s k) →
          (k.code + 4 - s.engine.last.code) % 5 ≤ (j.code + 4 - s.engine.last.code) % 5)

/-- R146, R136, R149: when a client requests the engine, and its effective level: a channel's is 3 while its current job names an edition that is PASSED, and its configured level otherwise, FIT's is its configured level. That the levels are derived so in ROTATE too, where nothing but READ CHANNEL shows them, is the model's choice (log entry 43). -/
def Clause.ClientsRequestAndRank : Prop :=
  ∀ s : State,
    (requesting s .fit = true ↔
      s.fit.list ≠ [] ∧ ∀ p, s.fit.progress = some p → p.inFlight = false) ∧
    effectiveLevel s .fit = s.engine.levels[4] ∧
    ∀ c : Fin 4,
      (requesting s (.channel c) = true ↔ s.channels[c].state = .running ∧
        s.channels[c].pos ≠ .complete ∧ s.channels[c].grant = .none ∧
        s.channels[c].lines.length + 64 ≤ 128) ∧
      (∀ j js, ∀ e : Fin 4, s.channels[c].jobs = j :: js → j.edition.val = e.val + 1 →
        effectiveLevel s (.channel c) =
          if s.editions[e].state = .passed then 3 else s.engine.levels[c.val]) ∧
      (s.channels[c].jobs = [] ∨ (∃ j js, s.channels[c].jobs = j :: js ∧ j.edition.val = 0) →
        effectiveLevel s (.channel c) = s.engine.levels[c.val])

/-- R136, R146, R148: a FREE engine is granted to the client chosen, which becomes the last granted; the Fit Queue's fit in progress goes on, or one begins on the story at the head of the list, with its version, setting and generation as they stand, at the first paragraph with its counts at 0; a GRANTED engine and an engine with no request stay as they are. -/
def Clause.FreeEngineIsGranted : Prop :=
  ∀ s : State,
    (∀ k, s.engine.owner = some k → grantEngine s = s) ∧
    (s.engine.owner = none → chooseClient s = none → grantEngine s = s) ∧
    (∀ c, s.engine.owner = none → chooseClient s = some (.channel c) →
      grantEngine s = { s with
        engine := { s.engine with owner := some (.channel c), last := .channel c }
        channels := s.channels.set c { s.channels[c] with grant := .keep } }) ∧
    (s.engine.owner = none → chooseClient s = some .fit →
      KeepsBut [.engine, .fit] s (grantEngine s) ∧
      (grantEngine s).engine = { s.engine with owner := some .fit, last := .fit } ∧
      (grantEngine s).fit.list = s.fit.list ∧
      (∀ p, s.fit.progress = some p →
        (grantEngine s).fit.progress = some { p with inFlight := true }) ∧
      ∀ i is st, s.fit.progress = none → s.fit.list = i :: is → storyOf s i.story = some st →
        (grantEngine s).fit.progress = some ⟨i.story, st.version, st.setting,
          s.faces[st.setting.face].generation, ⟨1, 0, true⟩, 0, 0, 0, true, false⟩)

/-- R136, R146, R148, R149: the clients' requests and levels, the arbiter's choice and the grant. -/
def Obligations.EngineIsGrantedByTurnOrRank : Prop :=
  Clause.ClientsRequestAndRank ∧ Clause.ArbiterChoosesByTurnOrRank ∧ Clause.FreeEngineIsGranted

/-- R154, R151: SET CHANNEL clamps and takes the four settings in every state of the channel and answers with the previous ones; the batch conditions are tested at once with the settings taken, in HALTED too (log entry 25); a running stall timer is compared at once with the new limit, and one that has reached it stalls the channel at once: a RUNNING one is HALTED, a CANCELLING one ends with ABANDON not sent, its FIFO emptied and a byte being sent finished. -/
def Clause.SetChannelTakesItsSettings : Prop :=
  ∀ (tag : Byte) (body : List Byte) (s : State), 6 ≤ body.length → Takes ⟨0x29#8, tag, body⟩ s →
    (4 ≤ u8 body 0 → Refuses (.setChannel tag body) 0x29#8 tag .range s) ∧
    ∀ (c : Fin 4) (rate threshold wait limit : Nat), u8 body 0 = c.val →
      rate = clampRate (u16 body 1) → threshold = clampThreshold (u8 body 3) →
      wait = min 3 (u8 body 4) → limit = min 3 (u8 body 5) →
      Replies (.setChannel tag body) 0x29#8 tag
        ⟨if rate = u16 body 1 ∧ threshold = u8 body 3 ∧ wait = u8 body 4 ∧ limit = u8 body 5 then .ok
          else .clamped,
          e16 s.channels[c].rate ++ e8 s.channels[c].threshold ++ e8 s.channels[c].waitChoice ++
            e8 s.channels[c].stallChoice⟩ [.channels, .stories, .notices] s fun u =>
        u.channels[c].rate = rate ∧ u.channels[c].threshold = threshold ∧
        u.channels[c].waitChoice = wait ∧ u.channels[c].stallChoice = limit ∧
        (∀ x : Fin 4, x ≠ c → u.channels[x] = s.channels[x]) ∧
        ((∀ f l, s.channels[c].stallFrom = some f → stallLimit limit = some l → s.now < f + l) →
          u.channels[c].state = s.channels[c].state ∧ u.channels[c].jobs = s.channels[c].jobs ∧
          u.channels[c].fifo = s.channels[c].fifo ∧ u.stories = s.stories ∧
          u.channels[c].lines = s.channels[c].lines ∧ u.channels[c].grant = s.channels[c].grant ∧
          u.channels[c].pos = s.channels[c].pos ∧ u.notices = s.notices ∧
          u.channels[c].batchOpen = (s.channels[c].batchOpen ||
            batchTest s.now { s.channels[c] with threshold := threshold, waitChoice := wait }) ∧
          u.channels[c].stallFrom = if limit = 0 then none else s.channels[c].stallFrom) ∧
        (∀ f l, s.channels[c].stallFrom = some f → stallLimit limit = some l → f + l ≤ s.now →
          s.channels[c].state = .running →
          u.channels[c].state = .halted ∧ u.channels[c].batchOpen = false ∧
          u.channels[c].jobs = s.channels[c].jobs ∧ u.channels[c].fifo = s.channels[c].fifo ∧
          u.channels[c].lines = s.channels[c].lines ∧ u.stories = s.stories ∧
          u.notices = s.notices.setPending (srcChannel c) true) ∧
        (∀ f l j, s.channels[c].stallFrom = some f → stallLimit limit = some l → f + l ≤ s.now →
          s.channels[c].state = .cancelling → s.channels[c].jobs = [j] →
          u.channels[c].state = .idle ∧ u.channels[c].jobs = [] ∧ u.channels[c].fifo = [] ∧
          ByteFinished s.channels[c].sending u.channels[c].sending ∧
          u.channels[c].finished.getLast? = some ⟨j.number, j.edition, .cancelled,
            j.entries.length, (j.entries.filter (·.sent)).length, .notSent⟩ ∧
          u.notices = s.notices.setPending (srcChannel c) true ∧ u.stories = s.stories)

/-- R156, R157, R151: RESUME and FLUSH CHANNEL in each state of the channel; where the FIFO is emptied a byte being sent is finished. -/
def Clause.ResumeAndFlushInEachState : Prop :=
  ∀ (tag : Byte) (body : List Byte) (s : State), 1 ≤ body.length →
    (Takes ⟨0x2A#8, tag, body⟩ s →
      (4 ≤ u8 body 0 → Refuses (.resume tag body) 0x2A#8 tag .range s) ∧
      ∀ c : Fin 4, u8 body 0 = c.val →
        (s.channels[c].state = .halted →
          Replies (.resume tag body) 0x2A#8 tag ⟨.ok, e8 1⟩ [.channels] s fun u =>
            u.channels = s.channels.set c
              { s.channels[c] with
                state := .running
                batchOpen := s.channels[c].batchOpen || batchTest s.now s.channels[c] }) ∧
        (s.channels[c].state = .running → Reads (.resume tag body) 0x2A#8 tag ⟨.ok, e8 1⟩ s) ∧
        (s.channels[c].state = .idle → Reads (.resume tag body) 0x2A#8 tag ⟨.busy, e8 0⟩ s) ∧
        (s.channels[c].state = .cancelling → Reads (.resume tag body) 0x2A#8 tag ⟨.busy, e8 3⟩ s)) ∧
    (Takes ⟨0x2B#8, tag, body⟩ s →
      (4 ≤ u8 body 0 → Refuses (.flushChannel tag body) 0x2B#8 tag .range s) ∧
      ∀ c : Fin 4, u8 body 0 = c.val →
        (s.channels[c].state = .idle → Reads (.flushChannel tag body) 0x2B#8 tag ⟨.ok, []⟩ s) ∧
        (s.channels[c].state = .running ∨ s.channels[c].state = .cancelling →
          Refuses (.flushChannel tag body) 0x2B#8 tag .busy s) ∧
        (∀ i e, s.channels[c].state = .halted →
          s.channels[c].entries[i]? = some e → e.released = false →
          (∀ j x, j < i → s.channels[c].entries[j]? = some x → x.released = true) →
          Replies (.flushChannel tag body) 0x2B#8 tag ⟨.ok, e16 e.story⟩ [.channels] s fun u =>
            (∀ x : Fin 4, x ≠ c → u.channels[x] = s.channels[x]) ∧
            u.channels[c].state = .halted ∧ u.channels[c].jobs = s.channels[c].jobs ∧
            u.channels[c].lines = [] ∧ u.channels[c].fifo = [] ∧
            u.channels[c].batchOpen = false ∧ u.channels[c].pos = .at i ⟨1, 0, true⟩ false ∧
            ByteFinished s.channels[c].sending u.channels[c].sending ∧
            (u.channels[c].grant = .none ↔ s.channels[c].grant = .none) ∧
            u.channels[c].grant ≠ .keep))

/-- R154, R156, R157: SET CHANNEL, RESUME and FLUSH CHANNEL. -/
def Obligations.ChannelOrdersInEachState : Prop :=
  Clause.SetChannelTakesItsSettings ∧ Clause.ResumeAndFlushInEachState

/-- R158, R159, R151: CANCEL JOB of a queued job records it CANCELLED and releases its stories; of the current job it empties the output, a byte being sent being finished, discards the grant, releases the unreleased stories, places ABANDON and makes the channel CANCELLING. -/
def Obligations.CancelJobQueuedAndCurrent : Prop :=
  ∀ (tag : Byte) (body : List Byte) (s : State), 2 ≤ body.length → Takes ⟨0x2C#8, tag, body⟩ s →
    ((4 ≤ u8 body 0 ∨ u8 body 1 = 0) → Refuses (.cancelJob tag body) 0x2C#8 tag .range s) ∧
    ∀ c : Fin 4, u8 body 0 = c.val → u8 body 1 ≠ 0 →
      ((∀ j ∈ s.channels[c].jobs, j.number ≠ u8 body 1) →
        Refuses (.cancelJob tag body) 0x2C#8 tag .noSuch s) ∧
      (∀ j js, s.channels[c].jobs = j :: js → j.number = u8 body 1 →
        (s.channels[c].state = .cancelling → Refuses (.cancelJob tag body) 0x2C#8 tag .busy s) ∧
        (s.channels[c].state ≠ .cancelling →
          Replies (.cancelJob tag body) 0x2C#8 tag
            ⟨.ok, e16 j.unreleased.length ++ e16 (j.entries.length - j.unreleased.length)⟩
            [.channels, .stories] s fun u =>
            (∀ x : Fin 4, x ≠ c → u.channels[x] = s.channels[x]) ∧
            u.channels[c].state = .cancelling ∧ u.channels[c].lines = [] ∧
            u.channels[c].fifo.map (·.byte) = [0x8F#8, BitVec.ofNat 8 j.number] ∧
            u.channels[c].batchOpen = true ∧ u.channels[c].pos = .complete ∧
            ByteFinished s.channels[c].sending u.channels[c].sending ∧
            u.channels[c].grant ≠ .keep ∧ u.channels[c].jobs.tail = js ∧
            (∀ e ∈ j.unreleased, ∀ so, storyOf s e.story = some so →
              storyOf u e.story = some { so with holding := .idle }) ∧
            (∀ id, (∀ e ∈ j.unreleased, e.story ≠ id) → storyOf u id = storyOf s id))) ∧
      (∀ j js q, s.channels[c].jobs = j :: js → j.number ≠ u8 body 1 →
        js.find? (fun x => x.number = u8 body 1) = some q →
        Replies (.cancelJob tag body) 0x2C#8 tag ⟨.ok, e16 q.unreleased.length⟩
          [.channels, .stories, .notices] s fun u =>
          u.notices = s.notices.setPending (srcChannel c) true ∧
          u.channels[c].jobs = (j :: js).erase q ∧ u.channels[c].state = s.channels[c].state ∧
          u.channels[c].finished.getLast? = some ⟨q.number, q.edition, .cancelled, q.entries.length,
            (q.entries.filter (·.sent)).length, .notApplicable⟩ ∧
          (∀ x : Fin 4, x ≠ c → u.channels[x] = s.channels[x]) ∧
          (∀ e ∈ q.unreleased, ∀ so, storyOf s e.story = some so →
            storyOf u e.story = some { so with holding := .idle }))

/-- R146, R148: the end of a channel's grant frees the engine and leaves no grant in flight; in KEEP the lines join the tail of the line queue and the setting position moves to where the grant stopped; in DISCARD they are dropped. -/
def Clause.ChannelGrantEndTakesTheLines : Prop :=
  ∀ (c : Fin 4) (s : State), s.engine.owner = some (.channel c) →
    (s.channels[c].grant ≠ .keep →
      Completes (.channelGrantEnd c) [.channels, .engine] s fun u =>
        u.engine = { s.engine with owner := none } ∧
        u.channels = s.channels.set c { s.channels[c] with grant := .none }) ∧
    (∀ i r started e st g, s.channels[c].grant = .keep → s.channels[c].pos = .at i r started →
      s.channels[c].entries[i]? = some e → storyOf s e.story = some st →
      g = channelGrant s e st r started →
      Completes (.channelGrantEnd c) [.channels, .engine, .stories] s fun u =>
        u.engine = { s.engine with owner := none } ∧ u.channels[c].grant = .none ∧
        u.channels[c].lines = s.channels[c].lines ++ g.1 ∧
        u.channels[c].fifo = s.channels[c].fifo ∧ u.channels[c].state = s.channels[c].state ∧
        (∀ x : Fin 4, x ≠ c → u.channels[x] = s.channels[x]) ∧
        (∀ r', g.2 = some r' → u.channels[c].pos = .at i r' true ∧ u.stories = s.stories) ∧
        (g.2 = none → ∀ e', s.channels[c].entries[i + 1]? = some e' → e'.released = false →
          e'.mode = .whole → u.channels[c].pos = .at (i + 1) ⟨1, 0, true⟩ false ∧
            u.stories = s.stories) ∧
        (g.2 = none → s.channels[c].entries.length = i + 1 →
          u.channels[c].pos = .complete ∧ u.stories = s.stories))

/-- R152, R153, R160: a byte that has been sent leaves the FIFO; with the last byte of a STORY END the story's flags are cleared, it is IDLE and its entry is released; with the last byte of ABANDON the job is recorded CANCELLED with ABANDON sent. -/
def Clause.TypesetterByteLeavesAndReleases : Prop :=
  ∀ (c : Fin 4) (s : State) (b : OutByte),
    (s.channels[c].sending = .busy b false →
      Completes (.typesetterByteSent c) [.channels] s fun u =>
        u.channels = s.channels.set c { s.channels[c] with sending := .rest }) ∧
    (s.channels[c].sending = .busy b true → b.ends = .plain →
      Completes (.typesetterByteSent c) [.channels] s fun u =>
        u.channels = s.channels.set c { s.channels[c] with
          sending := .rest
          fifo := s.channels[c].fifo.tail
          batchOpen := s.channels[c].batchOpen && !s.channels[c].fifo.tail.isEmpty }) ∧
    (∀ id st j js e, s.channels[c].sending = .busy b true → b.ends = .storyEnd id → MemoryForm s →
      storyOf s id = some st → s.channels[c].jobs = j :: js → e ∈ j.entries → e.story ≠ id →
      e.released = false →
      Completes (.typesetterByteSent c) [.channels, .stories, .memory] s fun u =>
        storyOf u id = some { st with holding := .idle } ∧
        (∀ k, Memory.read u.memory k =
          if k ∈ st.chain then { Memory.read s.memory k with changed := false }
          else Memory.read s.memory k) ∧
        u.channels[c].jobs = { j with entries := j.entries.map fun x =>
          if x.story = id then { x with released := true, sent := true } else x } :: js) ∧
    (∀ j, s.channels[c].sending = .busy b true → b.ends = .abandon → s.channels[c].jobs = [j] →
      Completes (.typesetterByteSent c) [.channels, .stories, .notices] s fun u =>
        u.channels[c].state = .idle ∧ u.channels[c].jobs = [] ∧
        u.channels[c].finished.getLast? = some ⟨j.number, j.edition, .cancelled, j.entries.length,
          (j.entries.filter (·.sent)).length, .sent⟩ ∧
        u.notices = s.notices.setPending (srcChannel c) true ∧ u.stories = s.stories)

/-- R153, R144, R161: with the STORY END of the last unreleased entry the current job is recorded DONE and leaves the queue with CHANNEL raised; with no job left the channel is IDLE, and otherwise the next job is current, in RUNNING, at its first entry. -/
def Clause.LastStoryEndsTheJob : Prop :=
  ∀ (c : Fin 4) (s : State) (b : OutByte) (id : Nat) (st : Story) (j : Job) (js : List Job),
    s.channels[c].sending = .busy b true → b.ends = .storyEnd id → storyOf s id = some st →
    s.channels[c].jobs = j :: js → (∀ e ∈ j.entries, e.story = id ∨ e.released = true) →
    (∀ q ∈ js.head?, ∃ e es, q.entries = e :: es ∧ e.released = false ∧ e.mode = .whole) →
    Completes (.typesetterByteSent c) [.channels, .stories, .memory, .notices] s fun u =>
      storyOf u id = some { st with holding := .idle } ∧
      (∀ x, x ≠ id → storyOf u x = storyOf s x) ∧
      u.notices = s.notices.setPending (srcChannel c) true ∧
      u.channels[c].jobs = js ∧
      u.channels[c].finished.getLast? = some ⟨j.number, j.edition, .done, j.entries.length,
        (j.entries.filter fun e => decide (e.story = id) || e.sent).length, .notApplicable⟩ ∧
      (js = [] → u.channels[c].state = .idle) ∧
      (js ≠ [] → u.channels[c].state = .running ∧ u.channels[c].pos = .at 0 ⟨1, 0, true⟩ false) ∧
      ∀ x : Fin 4, x ≠ c → u.channels[x] = s.channels[x]

/-- R147, R144, R146: when a grant ends its entry and the next entry is CHANGED with no block of its story flagged, that story is released at once: it returns to IDLE, its entry is marked released, nothing is placed for it and no flag is cleared, and the setting position moves on, here to complete. -/
def Clause.UnchangedEntriesAreReleasedAtOnce : Prop :=
  ∀ (c : Fin 4) (s : State) (i : Nat) (r : Resume) (started : Bool) (e e' : Entry)
    (st so : Story) (j : Job) (js : List Job), s.engine.owner = some (.channel c) →
    s.channels[c].grant = .keep → s.channels[c].pos = .at i r started →
    s.channels[c].jobs = j :: js → j.entries[i]? = some e → storyOf s e.story = some st →
    (channelGrant s e st r started).2 = none → j.entries[i + 1]? = some e' →
    j.entries.length = i + 2 → e'.released = false → e'.mode = .changed →
    storyOf s e'.story = some so → (∀ b ∈ so.chain, (Memory.read s.memory b).changed = false) →
    Completes (.channelGrantEnd c) [.channels, .engine, .stories] s fun u =>
      u.engine = { s.engine with owner := none } ∧
      storyOf u e'.story = some { so with holding := .idle } ∧
      (∀ x, x ≠ e'.story → storyOf u x = storyOf s x) ∧
      u.channels[c].lines = s.channels[c].lines ++ (channelGrant s e st r started).1 ∧
      u.channels[c].pos = .complete ∧
      u.channels[c].jobs =
        { j with entries := j.entries.set (i + 1) { e' with released := true } } :: js ∧
      ∀ x : Fin 4, x ≠ c → u.channels[x] = s.channels[x]

/-- R147: where a grant of an entry begins from a resume point: there for a WHOLE entry, and within a paragraph already begun; otherwise, in CHANGED mode, at the first paragraph at or after it that has a flagged character, its mark included, with its ordinal in the whole story, and nowhere where no flagged character is left. A character is flagged as its block is. -/
def Clause.ChangedGrantsBeginAtTheFirstChangedParagraph : Prop :=
  ∀ (s : State) (e : Entry) (st : Story) (r : Resume) (text : List Byte) (flags : List Bool),
    text = textOf s st → flags = charFlags s.memory st.chain →
    (∀ before b after p, st.chain = before ++ b :: after → p < fill s.memory b →
      flags[chainLength s.memory before + p]? = some (Memory.read s.memory b).changed) ∧
    flags.length = text.length ∧
    (e.mode = .whole → grantStart s e st r = some r) ∧
    (e.mode = .changed → r.first = false → r.offset < text.length →
      grantStart s e st r = some r) ∧
    (e.mode = .changed → (r.first = true ∨ text.length ≤ r.offset) →
      ((∀ q, r.offset ≤ q → flags[q]? ≠ some true) → grantStart s e st r = none) ∧
      ∀ p, r.offset ≤ p → flags[p]? = some true → (∀ q, r.offset ≤ q → q < p → flags[q]? ≠ some true) →
        ∃ off, r.offset ≤ off ∧ off ≤ p ∧ (off = r.offset ∨ text[off - 1]? = some 0x0D#8) ∧
          (∀ q, off ≤ q → q < p → text[q]? ≠ some 0x0D#8) ∧
          grantStart s e st r =
            some ⟨r.para + ((text.take off).drop r.offset).count 0x0D#8, off, true⟩)

/-- R141, R145, R147, Table 8-4: the entries that a channel's grant gives: one for each line of the grant's work (GrantsSetAParagraphOrSixtyFourLines) with the effective setting, the overrides in the place of the story's own fields and the indent at most half the measure. Before the story's first line stand STORY START and the four values, before a paragraph's first line PARAGRAPH in CHANGED mode and a nonzero INDENT, before a quad-left line with gaps its WORD SPACE, then the characters and the line's end; STORY END follows the last line where no paragraph is left to set, and a story without a line gives the bare entry. The grant stops where its work does. -/
def Clause.GrantsGiveLinesTheirCodes : Prop :=
  ∀ (s : State) (e : Entry) (st : Story) (r begin : Resume) (started : Bool) (x : Setting)
    (w : List LineRec × Option Resume) (g : List (List SetCode) × Option Resume) (last : Bool)
    (start : List SetCode),
    x = ⟨e.face.getD st.setting.face, e.size.getD st.setting.size,
      e.measure.getD st.setting.measure, e.leading.getD st.setting.leading,
      min (e.indent.getD st.setting.indent) (e.measure.getD st.setting.measure / 2),
      st.setting.budget⟩ →
    grantStart s e st r = some begin →
    w = grantWork ⟨s.faces[x.face].widths, s.faces[x.face].minSpace, s.faces[x.face].maxSpace, x⟩
      (textOf s st) begin →
    (last = true ↔ ∀ r', w.2 = some r' → grantStart s e st r' = none) →
    start = [.storyStart e.story, .face x.face, .size x.size, .leading x.leading,
      .measure x.measure] →
    g = channelGrant s e st r started →
    (last = true → g.2 = none) ∧ (last = false → g.2 = w.2) ∧
    (w.1 ≠ [] → g.1.length = w.1.length) ∧
    (∀ i l, w.1[i]? = some l → g.1[i]? = some
      ((if i = 0 ∧ started = false then start else []) ++
        (if l.first = true ∧ e.mode = .changed then [.paragraph l.para] else []) ++
        (if l.first = true ∧ x.indent ≠ 0 then [.indent x.indent] else []) ++
        (match l.space with
          | none => []
          | some u => [.wordSpace u]) ++
        l.chars.map .char ++
        [match l.cls with
          | .justified => .justifyEnd
          | .quadLeft => .leftEnd] ++
        (if last = true ∧ i + 1 = w.1.length then [.storyEnd e.story] else []))) ∧
    (w.1 = [] → last = true → started = false → g.1 = [start ++ [.storyEnd e.story]])

/-- R196, R152, R153, Table 11-9: the bytes of each setting code, operands high byte first; placed in the FIFO, the first byte of a STORY END or an ABANDON is marked as opening the batch, and the last byte with what its sending ends. -/
def Clause.CodesHaveTheirBytes : Prop :=
  ∀ (n now : Nat) (c : Byte) (hi lo : Byte), hi = BitVec.ofNat 8 (n / 256) → lo = BitVec.ofNat 8 n →
    (SetCode.storyStart n).bytes = [0x80#8, hi, lo] ∧ (SetCode.face n).bytes = [0x81#8, lo] ∧
    (SetCode.size n).bytes = [0x82#8, hi, lo] ∧ (SetCode.leading n).bytes = [0x83#8, hi, lo] ∧
    (SetCode.measure n).bytes = [0x84#8, hi, lo] ∧ (SetCode.indent n).bytes = [0x85#8, hi, lo] ∧
    (SetCode.paragraph n).bytes = [0x86#8, hi, lo] ∧
    (SetCode.wordSpace n).bytes = [0x87#8, lo] ∧ (SetCode.char c).bytes = [c] ∧
    SetCode.justifyEnd.bytes = [0x88#8] ∧ SetCode.leftEnd.bytes = [0x89#8] ∧
    (SetCode.storyEnd n).bytes = [0x8A#8, hi, lo] ∧ (SetCode.abandon n).bytes = [0x8F#8, lo] ∧
    (SetCode.storyEnd n).outBytes now = [⟨0x8A#8, true, .plain, now⟩, ⟨hi, false, .plain, now⟩,
      ⟨lo, false, .storyEnd n, now⟩] ∧
    (SetCode.abandon n).outBytes now =
      [⟨0x8F#8, true, .plain, now⟩, ⟨lo, false, .abandon, now⟩] ∧
    ∀ code : SetCode, (∀ m, code ≠ .storyEnd m) → (∀ m, code ≠ .abandon m) →
      code.outBytes now = code.bytes.map fun b => ⟨b, false, .plain, now⟩

/-- R151: at the end of every event, whatever the channel's state, the codes at the head of its line queue stand in its output FIFO, whole and in order, as many as fit: the first code left, if there is one, does not fit. An entry has left the line queue when its last code has moved; the one at the head keeps the codes that have not. -/
def Clause.CodesMoveWholeAndInOrder : Prop :=
  ∀ (s : State) (c : Fin 4), ChannelsFit s →
    ∃ (moved : List SetCode) (k : Nat),
      s.channels[c].lines.flatten = moved ++ (settle s).channels[c].lines.flatten ∧
      (settle s).channels[c].fifo =
        s.channels[c].fifo ++ moved.flatMap (SetCode.outBytes s.now) ∧
      (settle s).channels[c].fifo.length ≤ 64 ∧
      (∀ code codes, (settle s).channels[c].lines.flatten = code :: codes →
        64 < (settle s).channels[c].fifo.length + code.bytes.length) ∧
      ((settle s).channels[c].lines = [] ∨
        ∃ gone entry more, s.channels[c].lines.drop k = (gone ++ entry) :: more ∧ entry ≠ [] ∧
          (settle s).channels[c].lines = entry :: more)

/-- R141, R144 to R148, R151 to R153, R160, R196: the codes of a grant's lines, the bytes of a code and their way into the FIFO; the end of a channel's grant, a byte sent to the typesetter, the end of a job, and entries released at once. -/
def Obligations.ChannelOutputLeavesInOrder : Prop :=
  Clause.ChangedGrantsBeginAtTheFirstChangedParagraph ∧
    Clause.GrantsGiveLinesTheirCodes ∧
    Clause.CodesHaveTheirBytes ∧
    Clause.CodesMoveWholeAndInOrder ∧
    Clause.ChannelGrantEndTakesTheLines ∧
    Clause.TypesetterByteLeavesAndReleases ∧
    Clause.LastStoryEndsTheJob ∧
    Clause.UnchangedEntriesAreReleasedAtOnce

/-- R151, R152, R155, R160: READY takes the level of its pin; the end of the batch wait opens a CLOSED batch; a stall halts a RUNNING channel with its batch closed, its FIFO, lines and stories kept and CHANNEL raised, and ends a CANCELLING one with ABANDON not sent, its FIFO emptied and a byte being sent finished. That the oscillator then reads at least the moment of the expiry is the model's choice (log entry 5). -/
def Obligations.ReadyBatchAndStall : Prop :=
  ∀ (c : Fin 4) (s : State),
    (∀ level, Completes (.typReady c level) [.channels] s fun u =>
      u.channels = s.channels.set c { s.channels[c] with ready := level }) ∧
    (∀ b bs w, s.channels[c].fifo = b :: bs → batchWait s.channels[c].waitChoice = some w →
      s.channels[c].batchOpen = false →
      Completes (.batchWaitExpiry c) [.channels, .now] s fun u =>
        u.now = max s.now (b.placed + w) ∧
        u.channels = s.channels.set c { s.channels[c] with batchOpen := true }) ∧
    (∀ f limit, s.channels[c].stallFrom = some f → stallLimit s.channels[c].stallChoice = some limit →
      s.channels[c].state = .running →
      Completes (.channelStall c) [.channels, .notices, .now] s fun u =>
        u.now = max s.now (f + limit) ∧
        u.channels = s.channels.set c
          { s.channels[c] with state := .halted, batchOpen := false, stallFrom := none } ∧
        u.notices = s.notices.setPending (srcChannel c) true) ∧
    (∀ f limit j, s.channels[c].stallFrom = some f →
      stallLimit s.channels[c].stallChoice = some limit → s.channels[c].state = .cancelling →
      s.channels[c].jobs = [j] →
      Completes (.channelStall c) [.channels, .stories, .notices, .now] s fun u =>
        u.channels[c].state = .idle ∧ u.channels[c].jobs = [] ∧ u.channels[c].fifo = [] ∧
        ByteFinished s.channels[c].sending u.channels[c].sending ∧
        u.channels[c].finished.getLast? = some ⟨j.number, j.edition, .cancelled, j.entries.length,
          (j.entries.filter (·.sent)).length, .notSent⟩ ∧
        u.notices = s.notices.setPending (srcChannel c) true ∧ u.stories = s.stories)

/-! ### Wire lines (spec/09) -/

/-- R164, R175, R178, R134: SET WIRE LINE: with the flag and the format unchanged nothing changes; otherwise the FIFO is emptied, the line takes both and enters HUNT or OFF, and a story being filed is filed CUT, with the WIRE notice's CUT and filed count, its offer for a fit, and the flash alerts of a FLASH story. That the enabled flag's yes is sent as 01h is the model's choice (log entry 8, DEDUCED). -/
def Clause.SetWireLineTakesFlagAndFormat : Prop :=
  ∀ (tag : Byte) (body : List Byte) (s : State), 7 ≤ body.length → Takes ⟨0x2E#8, tag, body⟩ s →
    (4 ≤ u8 body 0 → Refuses (.setWireLine tag body) 0x2E#8 tag .range s) ∧
    ∀ (w : Fin 4) (on : Bool) (f : LineFormat), u8 body 0 = w.val → on = decide (u8 body 1 ≠ 0) →
      f = (lineFormatAt body 2).1 →
      ∃ r : ResultCode, (r = if (lineFormatAt body 2).2 then .clamped else .ok) ∧
        (decide (s.wires[w].intake ≠ .off) = on → s.wires[w].format = f →
          Reads (.setWireLine tag body) 0x2E#8 tag
            ⟨r, eFlag on ++ eFormat f ++ e8 s.wires[w].intake.code⟩ s) ∧
        ((decide (s.wires[w].intake ≠ .off) ≠ on ∨ s.wires[w].format ≠ f) →
          Replies (.setWireLine tag body) 0x2E#8 tag
            ⟨r, eFlag (decide (s.wires[w].intake ≠ .off)) ++ eFormat s.wires[w].format ++
              e8 s.wires[w].intake.code⟩ [.stories, .fit, .notices, .screens, .wires] s fun u =>
            u.wires[w].fifo = [] ∧ u.wires[w].format = f ∧
            u.wires[w].intake = (if on then .hunt else .off) ∧
            (∀ x : Fin 4, x ≠ w → u.wires[x] = s.wires[x]) ∧
            (∀ id st, s.wires[w].intake = .text id → storyOf s id = some st →
              OfferTaken s u id { st with cut := true, holding := .idle } ∧
              u.notices.pending[srcWire w] = true ∧
              u.notices.wire[w] = { s.notices.wire[w] with
                cut := true, filed := min 255 (s.notices.wire[w].filed + 1) } ∧
              ∀ t : Fin 32, u.screens[t] =
                if st.priority = .flash ∧ s.lines[t].attached = true ∧
                  (s.desks[s.lines[t].desk].row[st.basket]).take = true then
                  { s.screens[t] with flash := some ⟨st.slug.take 10, s.now⟩, bell := true }
                else s.screens[t]) ∧
            ((∀ id, s.wires[w].intake ≠ .text id) →
              u.stories = s.stories ∧ u.notices = s.notices ∧ u.screens = s.screens))

/-- R170: SET SELECTION refuses an entry, pattern, action, basket or key out of range, and otherwise replaces the entry and answers with its previous contents; READ SELECTION answers with all 32 and changes nothing. That the in-use flag's yes is sent as 01h, and an unused entry as 7 zeros, is the model's choice (log entry 8, DEDUCED). -/
def Clause.SelectionEntriesAreReplaced : Prop :=
  ∀ (tag : Byte) (body : List Byte) (s : State),
    (8 ≤ body.length → Takes ⟨0x30#8, tag, body⟩ s →
      (32 ≤ u8 body 0 → Refuses (.setSelection tag body) 0x30#8 tag .range s) ∧
      (u8 body 1 ≠ 0 →
        (patternOk (body.getD 2 0) (body.getD 3 0) (body.getD 4 0) = false ∨ 2 ≤ u8 body 5 ∨
          64 ≤ u8 body 6 ∨ 16 ≤ u8 body 7) →
        Refuses (.setSelection tag body) 0x30#8 tag .range s) ∧
      ∀ (i : Fin 32) (e : Option SelEntry), u8 body 0 = i.val →
        (u8 body 1 = 0 ∧ e = none ∨
          u8 body 1 ≠ 0 ∧ patternOk (body.getD 2 0) (body.getD 3 0) (body.getD 4 0) = true ∧
          ∃ a b k, u8 body 5 = SelAction.code a ∧ u8 body 6 = b.val ∧ u8 body 7 = k.val ∧
            e = some ⟨body.getD 2 0, body.getD 3 0, body.getD 4 0, a, b, k⟩) →
        Replies (.setSelection tag body) 0x30#8 tag ⟨.ok, eSelection s.selection[i]⟩ [.selection] s
          fun u => u.selection = s.selection.set i e) ∧
    (Takes ⟨0x31#8, tag, body⟩ s →
      Reads (.readSelection tag body) 0x31#8 tag ⟨.ok, s.selection.toList.flatMap eSelection⟩ s)

/-- R177: SET WIRE RESERVE takes the value brought to at most 4096 and answers with the previous one and the free count; it makes no test. Power-on and COLD set it to 256, WARM keeps it. -/
def Clause.WireReserveIsReplaced : Prop :=
  (∀ (tag : Byte) (body : List Byte) (s : State), 2 ≤ body.length → Takes ⟨0x32#8, tag, body⟩ s →
    Replies (.setWireReserve tag body) 0x32#8 tag
      ⟨if u16 body 0 ≤ 4096 then .ok else .clamped,
        e16 s.reserve ++ e16 (Memory.freeCount s.memory)⟩ [.reserve] s fun u =>
      u.reserve = min 4096 (u16 body 0)) ∧
  ∀ tag s, (startAs .powerOn tag s).reserve = 256 ∧ (startAs .cold tag s).reserve = 256 ∧
    (startAs .warm tag s).reserve = s.reserve

/-- R164, R170, R177: SET WIRE LINE, SET SELECTION, SET WIRE RESERVE. -/
def Obligations.WireOrdersReplaceTheirSettings : Prop :=
  Clause.SetWireLineTakesFlagAndFormat ∧
    Clause.SelectionEntriesAreReplaced ∧
    Clause.WireReserveIsReplaced

/-- R58, R166: a frame on an enabled wire line joins its FIFO, marked damaged where parity or framing is wrong; with 16 waiting it is lost with a loss mark on the tail and OVERRUN; a disabled line takes nothing. A break marks the tail of the FIFO. -/
def Clause.WireFramesJoinTheFifo : Prop :=
  ∀ (w : Fin 4) (f : RxFrame) (s : State),
    (s.wires[w].intake = .off →
      Completes (.wireCharacterReceived w f) [] s (fun _ => True) ∧
      Completes (.wireBreak w) [] s fun _ => True) ∧
    (s.wires[w].intake ≠ .off → s.wires[w].fifo.length < 16 →
      Completes (.wireCharacterReceived w f) [.wires] s fun u =>
        u.wires = s.wires.set w { s.wires[w] with
          silenceFrom := s.now
          fifo := s.wires[w].fifo ++ [⟨frameCode s.wires[w].format f,
            !f.stop || !parityRight s.wires[w].format f, false, false⟩] }) ∧
    (∀ init last, s.wires[w].intake ≠ .off → s.wires[w].fifo = init ++ [last] →
      (16 ≤ s.wires[w].fifo.length →
        Completes (.wireCharacterReceived w f) [.wires, .notices] s fun u =>
          u.wires = s.wires.set w { s.wires[w] with
            silenceFrom := s.now, fifo := init ++ [{ last with loss := true }] } ∧
          u.notices.pending[srcWire w] = true ∧
          u.notices.wire[w] = { s.notices.wire[w] with overrun := true }) ∧
      (Completes (.wireBreak w) [.wires] s fun u =>
        u.wires = s.wires.set w { s.wires[w] with fifo := init ++ [{ last with brk := true }] })) ∧
    (s.wires[w].fifo = [] → (s.wires[w].intake = .skip ∨ ∃ got, s.wires[w].intake = .header got) →
      Completes (.wireBreak w) [.wires] s fun u =>
        u.wires = s.wires.set w { s.wires[w] with intake := .hunt, silenceFrom := s.now })

/-- R167, R168: in HUNT and SKIP intake discards every character but an undamaged SOH, which begins a heading; in HEADER a damaged character or one wrong for its position enters SKIP, and one that is right joins the header in hand. -/
def Clause.IntakeHuntsAndReadsHeadings : Prop :=
  ∀ (w : Fin 4) (s : State) (c : WireChar) (cs : List WireChar), s.wires[w].fifo = c :: cs →
    c.loss = false → c.brk = false →
    (s.wires[w].intake = .hunt ∨ s.wires[w].intake = .skip →
      Completes (.wireIntakeCharacter w) [.wires] s fun u =>
        u.wires = s.wires.set w
          (if c.code = 0x01#8 ∧ c.damaged = false then
            { s.wires[w] with fifo := cs, intake := .header [], silenceFrom := s.now }
          else { s.wires[w] with fifo := cs })) ∧
    (∀ got, s.wires[w].intake = .header got →
      (c.damaged = true → Completes (.wireIntakeCharacter w) [.wires, .notices] s fun u =>
        u.wires[w].intake = .skip ∧ u.wires[w].fifo = cs ∧ u.notices.pending[srcWire w] = true ∧
        u.notices.wire[w] = { s.notices.wire[w] with character := true }) ∧
      (c.damaged = false → c.code = 0x01#8 → Completes (.wireIntakeCharacter w) [.wires] s fun u =>
        u.wires[w].intake = .header [] ∧ u.wires[w].fifo = cs) ∧
      (c.damaged = false → c.code ≠ 0x01#8 → (c.code = 0x0D#8 → got.length < 6) →
        headingFits got.length c.code = false →
        Completes (.wireIntakeCharacter w) [.wires, .notices] s fun u =>
          u.wires[w].intake = .skip ∧ u.wires[w].fifo = cs ∧
          u.notices.wire[w] = { s.notices.wire[w] with header := true }) ∧
      (c.damaged = false → c.code ≠ 0x01#8 → headingFits got.length c.code = true →
        Completes (.wireIntakeCharacter w) [.wires] s fun u =>
          u.wires[w].intake = .header (if got.length < 21 then got ++ [c.code] else got) ∧
          u.wires[w].fifo = cs))

/-- R166 to R168: frames and breaks on a wire line, HUNT, SKIP and HEADER. -/
def Obligations.WireReception : Prop :=
  Clause.WireFramesJoinTheFifo ∧ Clause.IntakeHuntsAndReadsHeadings

/-- R13, R31, R169, R171: a complete heading is decided by the lowest-numbered matching entry of the Selection Table: with none, or REJECT, the line enters SKIP; with TAKE a story is created in FILING under the lowest free identifier (R13), joins its basket's list at the tail of its class (R31), and the line enters TEXT, or, with the directory full, the story is counted as dropped; the other wire lines and baskets stand. -/
def Clause.CompleteHeadingIsLookedUp : Prop :=
  ∀ (w : Fin 4) (s : State) (got : List Byte) (cs : List WireChar),
    s.wires[w].fifo = ⟨0x0D#8, false, false, false⟩ :: cs → s.wires[w].intake = .header got →
    6 ≤ got.length →
    ((∀ i : Fin 32, ∀ e, s.selection[i] = some e → e.fits (got.take 3) = false) →
      Completes (.wireIntakeCharacter w) [.wires] s fun u =>
        u.wires = s.wires.set w
          { s.wires[w] with fifo := cs, intake := .skip, silenceFrom := s.now }) ∧
    ∀ (i : Fin 32) (e : SelEntry), s.selection[i] = some e → e.fits (got.take 3) = true →
      (∀ j : Fin 32, j < i → ∀ x, s.selection[j] = some x → x.fits (got.take 3) = false) →
      (e.action = .reject → Completes (.wireIntakeCharacter w) [.wires] s fun u =>
        u.wires = s.wires.set w
          { s.wires[w] with fifo := cs, intake := .skip, silenceFrom := s.now }) ∧
      (e.action = .take → freeStory? s = none →
        Completes (.wireIntakeCharacter w) [.wires, .notices] s fun u =>
          u.wires = s.wires.set w
            { s.wires[w] with fifo := cs, intake := .skip, silenceFrom := s.now } ∧
          u.notices.pending[srcWire w] = true ∧
          u.notices.wire[w] = { s.notices.wire[w] with
            dropped := min 255 (s.notices.wire[w].dropped + 1) }) ∧
      (∀ id, e.action = .take → freeStory? s = some id →
        Completes (.wireIntakeCharacter w) [.wires, .stories, .baskets] s fun u =>
          u.wires = s.wires.set w
            { s.wires[w] with fifo := cs, intake := .text id, silenceFrom := s.now } ∧
          ∃ st, u.stories = Tab.put s.stories id st ∧
            (∀ p, wirePriority (got.getD 3 0) = some p → st.priority = p) ∧
            (st = { st with
              slug := got.drop 5, basket := e.basket, key := e.key, holding := .filing w
              embargo := decide (got.getD 4 0 = 0x45#8), garbled := false, cut := false
              chain := [], version := 0, filed := stamp s, moved := none
              origin := some ⟨w, got.take 3⟩
              setting := (s.baskets[e.basket].default).getD ⟨0, 18, 60, 20, 0, 0⟩
              fit := ⟨.unknown, 0, 0, 0, 0, 0⟩ }) ∧
            JoinsTail u st.priority.rank id s.baskets[e.basket].list u.baskets[e.basket].list ∧
            (u.baskets[e.basket] =
              { s.baskets[e.basket] with list := u.baskets[e.basket].list }) ∧
            ∀ x : Fin 64, x ≠ e.basket → u.baskets[x] = s.baskets[x])

/-- R172 to R175, R134, R114, R104: in TEXT a text character or a paragraph mark is stored at the end of the current story as one text change, and the reference panes on it keep their top offsets; at the cap, or with the free count at or below the reserve where a block is needed, the story is filed CUT and the line enters SKIP; an ETX files it complete and an SOH files it CUT; a story filed is offered for a fit. -/
def Clause.IntakeStoresAndFiles : Prop :=
  ∀ (w : Fin 4) (s : State) (id : Nat) (st : Story) (code : Byte) (cs : List WireChar),
    s.wires[w].fifo = ⟨code, false, false, false⟩ :: cs → s.wires[w].intake = .text id →
    storyOf s id = some st →
    (∀ m chain, (isText code = true ∨ code = 0x0D#8) →
      (needsBlock s.memory st.chain (lengthOf s st) = true →
        s.reserve < Memory.freeCount s.memory) →
      insertChar s.memory st.chain (lengthOf s st) code = .made m chain →
      Completes (.wireIntakeCharacter w) [.wires, .stories, .memory, .panes] s fun u =>
        u.wires = s.wires.set w { s.wires[w] with fifo := cs } ∧ u.memory = m ∧
        (storyOf u id = some { st with
          chain := chain, version := st.version + 1
          fit := if st.fit.status = .pending then st.fit else { st.fit with status := .unknown } }) ∧
        RefTopsFollow s u id (chainText m chain)
          (fun top => topAfterInsert top (lengthOf s st) 1) ∧
        ∀ x : Fin 32, u.panes[x].session = s.panes[x].session) ∧
    ((isText code = true ∨ code = 0x0D#8) →
      (atCap s.memory st.chain (lengthOf s st) = true ∨
        (needsBlock s.memory st.chain (lengthOf s st) = true ∧
          Memory.freeCount s.memory ≤ s.reserve)) →
      Completes (.wireIntakeCharacter w)
        [.wires, .stories, .fit, .notices, .screens, .pressure] s fun u =>
        u.wires[w].intake = .skip ∧ u.wires[w].fifo = cs ∧
        OfferTaken s u id { st with cut := true, holding := .idle } ∧
        (∀ x : Fin 4, x ≠ w → u.wires[x] = s.wires[x]) ∧ u.notices.pending[srcWire w] = true ∧
        u.notices.wire[w] = { s.notices.wire[w] with
          cut := true, filed := min 255 (s.notices.wire[w].filed + 1) } ∧
        (atCap s.memory st.chain (lengthOf s st) = false →
          u.pressure = true ∧ u.notices.pending[srcPool] = true ∧
          u.notices.pool.cond = some .low)) ∧
    (∀ cut, (code = 0x03#8 ∧ cut = false ∨ code = 0x01#8 ∧ cut = true) →
      Completes (.wireIntakeCharacter w) [.wires, .stories, .fit, .notices, .screens] s fun u =>
        u.wires[w].intake = (if cut then .header [] else .hunt) ∧ u.wires[w].fifo = cs ∧
        OfferTaken s u id { st with cut := st.cut || cut, holding := .idle } ∧
        (∀ x : Fin 4, x ≠ w → u.wires[x] = s.wires[x]) ∧
        u.notices.pending[srcWire w] = true ∧
        u.notices.wire[w].filed = min 255 (s.notices.wire[w].filed + 1) ∧
        ∀ t : Fin 32, u.screens[t] =
          if st.priority = .flash ∧ s.lines[t].attached = true ∧
            (s.desks[s.lines[t].desk].row[st.basket]).take = true then
            { s.screens[t] with flash := some ⟨st.slug.take 10, s.now⟩, bell := true }
          else s.screens[t]) ∧
    (isText code = false → code ≠ 0x0D#8 → code ≠ 0x03#8 → code ≠ 0x01#8 →
      Completes (.wireIntakeCharacter w) [.wires] s fun u =>
        u.wires = s.wires.set w { s.wires[w] with fifo := cs })

/-- R166, R172, R173, R175 (log entry 1 for a line that is OFF): in TEXT a damaged character is stored as "?" with GARBLED set and CHARACTER raised; a loss mark sets GARBLED after its character, and a break mark files the story CUT after its character and enters HUNT, as does a break on a line whose FIFO is empty. -/
def Clause.DamageLossAndBreakInText : Prop :=
  ∀ (w : Fin 4) (s : State) (id : Nat) (st : Story) (c : WireChar) (cs : List WireChar),
    s.wires[w].intake = .text id → storyOf s id = some st →
    (∀ m chain, s.wires[w].fifo = c :: cs → c.damaged = true → c.brk = false →
      (needsBlock s.memory st.chain (lengthOf s st) = true →
        s.reserve < Memory.freeCount s.memory) →
      insertChar s.memory st.chain (lengthOf s st) 0x3F#8 = .made m chain →
      Completes (.wireIntakeCharacter w) [.wires, .stories, .memory, .panes, .notices] s fun u =>
        u.wires = s.wires.set w { s.wires[w] with fifo := cs } ∧ u.memory = m ∧
        storyOf u id = some { st with
          chain := chain, version := st.version + 1, garbled := true
          fit := if st.fit.status = .pending then st.fit else { st.fit with status := .unknown } } ∧
        u.notices.pending[srcWire w] = true ∧
        u.notices.wire[w] = { s.notices.wire[w] with character := true }) ∧
    (∀ m chain, s.wires[w].fifo = c :: cs → c.damaged = false → c.loss = true → c.brk = false →
      (isText c.code = true ∨ c.code = 0x0D#8) →
      (needsBlock s.memory st.chain (lengthOf s st) = true →
        s.reserve < Memory.freeCount s.memory) →
      insertChar s.memory st.chain (lengthOf s st) c.code = .made m chain →
      Completes (.wireIntakeCharacter w) [.wires, .stories, .memory, .panes] s fun u =>
        u.wires = s.wires.set w { s.wires[w] with fifo := cs } ∧ u.memory = m ∧
        storyOf u id = some { st with
          chain := chain, version := st.version + 1, garbled := true
          fit := if st.fit.status = .pending then st.fit else { st.fit with status := .unknown } }) ∧
    (s.wires[w].fifo = c :: cs → c.damaged = false → c.brk = true → isText c.code = false →
      c.code ≠ 0x0D#8 → c.code ≠ 0x03#8 → c.code ≠ 0x01#8 →
      Completes (.wireIntakeCharacter w) [.wires, .stories, .fit, .notices, .screens] s fun u =>
        u.wires[w].intake = .hunt ∧ u.wires[w].fifo = cs ∧
        OfferTaken s u id
          { st with garbled := st.garbled || c.loss, cut := true, holding := .idle } ∧
        u.notices.pending[srcWire w] = true ∧
        u.notices.wire[w] = { s.notices.wire[w] with
          cut := true, filed := min 255 (s.notices.wire[w].filed + 1) }) ∧
    (s.wires[w].fifo = [] →
      Completes (.wireBreak w) [.wires, .stories, .fit, .notices, .screens] s fun u =>
        u.wires[w].intake = .hunt ∧ u.wires[w].fifo = [] ∧
        OfferTaken s u id { st with cut := true, holding := .idle } ∧
        u.notices.pending[srcWire w] = true ∧
        u.notices.wire[w] = { s.notices.wire[w] with
          cut := true, filed := min 255 (s.notices.wire[w].filed + 1) })

/-- R167, R168, R176: outside TEXT: in HEADER a loss mark after an accepted character enters SKIP and a break mark HUNT, the header in hand dropped, and a break mark in SKIP enters HUNT; an SOH in HEADER empties the header in hand without measuring the silence anew. -/
def Clause.MarksOutsideText : Prop :=
  ∀ (w : Fin 4) (s : State) (c : WireChar) (cs : List WireChar), s.wires[w].fifo = c :: cs →
    c.damaged = false →
    (∀ got, s.wires[w].intake = .header got → c.code = 0x01#8 → c.loss = false → c.brk = false →
      Completes (.wireIntakeCharacter w) [.wires] s fun u =>
        u.wires[w] = { s.wires[w] with fifo := cs, intake := .header [] }) ∧
    (∀ got, s.wires[w].intake = .header got → headingFits got.length c.code = true →
      c.code ≠ 0x01#8 → c.loss = true → c.brk = false →
      Completes (.wireIntakeCharacter w) [.wires] s fun u =>
        u.wires[w].intake = .skip ∧ u.wires[w].fifo = cs) ∧
    (∀ got, s.wires[w].intake = .header got → headingFits got.length c.code = true →
      c.code ≠ 0x01#8 → c.brk = true →
      Completes (.wireIntakeCharacter w) [.wires] s fun u =>
        u.wires[w].intake = .hunt ∧ u.wires[w].fifo = cs) ∧
    (s.wires[w].intake = .skip → c.code ≠ 0x01#8 → c.brk = true →
      Completes (.wireIntakeCharacter w) [.wires] s fun u =>
        u.wires[w].intake = .hunt ∧ u.wires[w].fifo = cs)

/-- R176: after 90 seconds of silence in TEXT the story is filed CUT and the line enters HUNT; in HEADER the header in hand is dropped and nothing is raised; outside HEADER and TEXT, or with characters waiting, the timer does not run, and the command changes nothing (log entry 1). That the oscillator then reads at least the moment of the expiry is the model's choice (log entry 5). -/
def Clause.SilenceEndsAStory : Prop :=
  ∀ (w : Fin 4) (s : State),
    (∀ id st, s.wires[w].fifo = [] → s.wires[w].intake = .text id → storyOf s id = some st →
      Completes (.wireSilenceExpiry w) [.wires, .stories, .fit, .notices, .screens, .now] s fun u =>
        u.now = max s.now (s.wires[w].silenceFrom + 90000) ∧ u.wires[w].intake = .hunt ∧
        OfferTaken s u id { st with cut := true, holding := .idle } ∧
        u.notices.pending[srcWire w] = true) ∧
    (∀ got, s.wires[w].fifo = [] → s.wires[w].intake = .header got →
      Completes (.wireSilenceExpiry w) [.wires, .now] s fun u =>
        u.now = max s.now (s.wires[w].silenceFrom + 90000) ∧ u.wires[w].intake = .hunt) ∧
    (s.wires[w].fifo ≠ [] ∨ s.wires[w].intake = .off ∨ s.wires[w].intake = .hunt ∨
        s.wires[w].intake = .skip →
      Completes (.wireSilenceExpiry w) [] s fun _ => True)

/-- R13, R166 to R169, R171 to R176: the lowest free identifier, a complete heading, storing, filing, damage and marks, and silence. -/
def Obligations.HeadingsStoriesAndSilence : Prop :=
  Clause.FreshIdentifierIsTheLowest ∧
    Clause.CompleteHeadingIsLookedUp ∧
    Clause.IntakeStoresAndFiles ∧
    Clause.DamageLossAndBreakInText ∧
    Clause.MarksOutsideText ∧
    Clause.SilenceEndsAStory

/-! ### Invariants -/

/-- R1, R3: every step keeps the store sound: each block that is not free stands in exactly one chain, once, and every chain holds at most 256 blocks of 1 to 240 characters. -/
def Clause.SoundStoreIsKept : Prop :=
  ∀ s t : State, StoreSound s → step s = .next t → StoreSound t

/-- R1: in a sound store the free count and the chain lengths of all stories add up to 8192. -/
def Clause.SoundStoreAccountsForEveryBlock : Prop :=
  ∀ s : State, StoreSound s →
    Memory.freeCount s.memory + (s.stories.map fun e => e.2.chain.length).sum = 8192

/-- R1, R3: every step keeps the store sound, and a sound store accounts for all 8192 blocks. -/
def Obligations.StepKeepsTheStoreSound : Prop :=
  Clause.SoundStoreIsKept ∧ Clause.SoundStoreAccountsForEveryBlock

/-- R51: every step keeps every ARMED edition's deadline later than a set clock. -/
def Clause.StepKeepsDeadlinesAhead : Prop :=
  ∀ s t : State, DeadlinesAhead s → step s = .next t → DeadlinesAhead t

/-- R92: every step keeps watches legal: no terminal watches itself or a terminal that is watching, and both ends are attached. -/
def Clause.StepKeepsWatchesLegal : Prop :=
  ∀ s t : State, WatchLegal s → step s = .next t → WatchLegal t

/-- R51, R92: deadlines ahead of the clock and legal watches are kept by every step. -/
def Obligations.StepKeepsDeadlinesAndWatches : Prop :=
  Clause.StepKeepsDeadlinesAhead ∧ Clause.StepKeepsWatchesLegal

/-- R64, R69, R72, R133, R140, R145, R151, R161, R166, R183, R185: every step keeps every queue and FIFO within its capacity. -/
def Clause.StepKeepsCapacities : Prop :=
  ∀ s t : State, QueuesFit s ∧ LineFifosFit s ∧ ChannelsFit s → step s = .next t →
    QueuesFit t ∧ LineFifosFit t ∧ ChannelsFit t

/-- R118, R122, R189, R190: every step keeps loaded faces, settings and the link watch within their ranges. -/
def Clause.StepKeepsRanges : Prop :=
  ∀ s t : State, FacesLegal s ∧ SettingsLegal s ∧ LinkWatchLegal s → step s = .next t →
    FacesLegal t ∧ SettingsLegal t ∧ LinkWatchLegal t

/-- R88, R89: every step keeps each row-change set a set of rows 1 to 24 in rising order, and a row in hand with codes to place. -/
def Clause.StepKeepsScreensInOrder : Prop :=
  ∀ s t : State, ScreensInOrder s → step s = .next t → ScreensInOrder t

/-- Every step keeps the queues and FIFOs within their capacities, faces, settings and the link watch within their ranges, and the row-change sets in order. -/
def Obligations.StepKeepsCapacitiesAndRanges : Prop :=
  Clause.StepKeepsCapacities ∧ Clause.StepKeepsRanges ∧ Clause.StepKeepsScreensInOrder

/-- The reset state satisfies every invariant stated above. -/
def Obligations.ResetStateSatisfiesTheInvariants : Prop :=
  StoreSound State.reset ∧ DeadlinesAhead State.reset ∧ WatchLegal State.reset ∧
    QueuesFit State.reset ∧ LineFifosFit State.reset ∧ ChannelsFit State.reset ∧
    FacesLegal State.reset ∧ SettingsLegal State.reset ∧ LinkWatchLegal State.reset ∧
    ScreensInOrder State.reset

/-! ### What the screens show (spec/05) -/

/-- R76, R88, R93: at the end of every event the composed image of an attached terminal is its shown image, its own image or, in WATCHING, its target's own image; and recomposing marks, besides the rows already marked, exactly the rows whose cells change (log entry 40: a watcher's too). -/
def Clause.ComposedImageIsTheShownImage : Prop :=
  ∀ (s : State) (t : Fin 32),
    (s.lines[t].attached = true → (settle s).screens[t].composed = shownImage s t) ∧
    (∀ x, s.screens[t].mode = .watching x → shownImage s t = ownImage s x) ∧
    ((∀ x, s.screens[t].mode ≠ .watching x) → shownImage s t = ownImage s t) ∧
    ∀ (sc : Screen) (im : Image) (r : Nat), (sc.recompose im).composed = im ∧
      (r ∈ (sc.recompose im).marks ↔ 1 ≤ r ∧ r ≤ 24 ∧
        (r ∈ sc.marks ∨ sc.composed.rows[r - 1]? ≠ im.rows[r - 1]?))

/-- R81 to R83, R85: row 24 of a terminal's own image: the clock, the slug and fit field of its edit session's story, the state field with the first condition that applies, the edition countdown, and MSG, in their columns. -/
def Clause.StatusRowShowsItsFields : Prop :=
  ∀ (s : State) (t : Fin 32), ∃ (clock : List Cell) (slug fit state count msg : List Byte),
    (ownRows s t).getLast? = some (clock ++ cellsOf .normal
      ([spaceCode] ++ padTo 16 slug ++ [spaceCode] ++ padTo 10 fit ++ [spaceCode] ++ padTo 16 state ++
        [spaceCode] ++
        padTo 8 count ++ List.replicate 15 spaceCode ++ padTo 3 msg)) ∧
    (s.clock.state = .unset → clock = cellsOf .normal (asc "--:--:--")) ∧
    (s.clock.state = .running → clock = cellsOf .normal (two (s.clock.value / 3600) ++ asc ":" ++
      two (s.clock.value / 60 % 60) ++ asc ":" ++ two (s.clock.value % 60))) ∧
    (s.clock.state = .stopped → clock = cellsOf .inverse (two (s.clock.value / 3600) ++ asc ":" ++
      two (s.clock.value / 60 % 60) ++ asc ":" ++ two (s.clock.value % 60))) ∧
    (s.panes[t].session = none → slug = [] ∧ fit = [] ∧ count = []) ∧
    (∀ e st, s.panes[t].session = some e → storyOf s e.story = some st →
      slug = st.slug ∧ fit = fitText st ∧
      (st.fit.status = .on → fit = asc "ON") ∧ (st.fit.status = .unknown → fit = asc "FIT ?") ∧
      (st.fit.status = .pending → fit = asc "FIT ..") ∧ (st.fit.status = .none → fit = []) ∧
      (∀ n, n = fitLines st.setting st.fit.depth →
        (st.fit.status = .over → fit = asc "OVER " ++ decimal n ++ asc "L") ∧
        (st.fit.status = .short → fit = asc "SHORT " ++ decimal n ++ asc "L")) ∧
      (s.baskets[st.basket].edition.val = 0 → count = []) ∧
      ∀ d : Fin 4, s.baskets[st.basket].edition.val = d.val + 1 →
        (s.editions[d].state = .passed → count = asc "E" ++ [digit (d.val + 1)] ++ asc " LATE") ∧
        (s.editions[d].state = .unarmed → count = []) ∧
        (s.editions[d].state = .armed → s.clock.state = .unset → count = []) ∧
        ∀ m, s.editions[d].state = .armed → s.clock.state ≠ .unset →
          m = (s.editions[d].time - s.clock.value + 59) / 60 →
          count = asc "E" ++ [digit (d.val + 1)] ++ asc " " ++ decimal (m / 60) ++ asc ":" ++
            two (m % 60)) ∧
    (s.link.hostLost = true → state = asc "HOST LOST") ∧
    (s.link.hostLost = false →
      (∀ f, s.screens[t].flash = some f → state = asc "FLASH " ++ padTo 10 f.slug) ∧
      (s.screens[t].flash = none →
        (s.panes[t].session = none → state = s.screens[t].status) ∧
        ∀ e st, s.panes[t].session = some e → storyOf s e.story = some st →
          state = if storyLate s st then asc "LATE" else s.screens[t].status)) ∧
    msg = if s.slots[t] = none then [] else asc "MSG"

/-- R76, R79, R80: rows 1 to 23 of the own image of a terminal that is not ROTATING: the base layer, covered by its open panes and by the message of a full slot. -/
def Clause.PanesAndMessageCoverTheBase : Prop :=
  ∀ (s : State) (t : Fin 32) (row1 : List Cell) (below : List (List Cell)),
    (∀ r, s.screens[t].mode ≠ .rotating r) → s.screens[t].base = row1 :: below →
    (∀ m, s.slots[t] = some m → (ownRows s t).head? = some (cellsOf .inverse
      (padTo 60 m.text ++ List.replicate 6 spaceCode ++ padTo 12 s.desks[m.sender].name ++
        [spaceCode, spaceCode]))) ∧
    (s.lines[t].layout = .full →
      (s.slots[t] = none → (ownRows s t).head? = some row1) ∧
      (s.panes[t].session = none → (ownRows s t).tail = below ++ [statusRow s t]) ∧
      ∀ e st, s.panes[t].session = some e → storyOf s e.story = some st →
        (ownRows s t).tail = paneRows 80 (textOf s st) e.top ++ [statusRow s t]) ∧
    (s.lines[t].layout = .split →
      (s.slots[t] = none → s.panes[t].ref = none → (ownRows s t).head? = some row1) ∧
      (∀ r st, s.slots[t] = none → s.panes[t].ref = some r → storyOf s r.story = some st →
        (ownRows s t).head? = some (cellsOf .bright (padTo 16 st.slug) ++ row1.drop 16)) ∧
      ∀ left right : List (List Cell),
        (s.panes[t].ref = none ∧ left = below.map (·.take 39) ∨
          ∃ r st, s.panes[t].ref = some r ∧ storyOf s r.story = some st ∧
            left = paneRows 39 (textOf s st) r.top) →
        (s.panes[t].session = none ∧ right = below.map (·.drop 40) ∨
          ∃ e st, s.panes[t].session = some e ∧ storyOf s e.story = some st ∧
            right = paneRows 40 (textOf s st) e.top) →
        (ownRows s t).tail =
          List.zipWith (fun l r => l ++ (⟨0x7C#8, .normal⟩ : Cell) :: r) left right ++
            [statusRow s t])

/-- R102: the display rows of a text in a pane of width w. The first begins at offset 0, each begins where the one before it ended, and the last ends at the text's length; a row without characters is the end row, which a text of length 0 or one that ends with a paragraph mark has, and no other text. A row with characters ends by the first of the five cases that applies: behind the first mark among its first w characters; at the end of a text of which w or fewer characters remain; behind the spaces that follow w characters, and a mark directly after them; behind a mark that follows w characters; behind the last space among the w characters, or, with no space, after the w characters. Every offset lies on exactly one row, the end of the text on the last. -/
def Clause.DisplayRowsEndByTheFiveCases : Prop :=
  ∀ (w : Nat) (text : List Byte) (rows : List DRow), 1 ≤ w → rows = displayRows w text →
    (∃ r, rows.head? = some r ∧ r.start = 0) ∧
    (∀ i r next, rows[i]? = some r → rows[i + 1]? = some next → next.start = r.start + r.len) ∧
    (∃ r, rows.getLast? = some r ∧ r.start + r.len = text.length) ∧
    (∀ i r, rows[i]? = some r → r.len = 0 → i + 1 = rows.length ∧ r.start = text.length) ∧
    ((∃ r ∈ rows, r.len = 0) ↔ text = [] ∨ text.getLast? = some 0x0D#8) ∧
    (∀ r rest win, r ∈ rows → r.len ≠ 0 → rest = text.drop r.start → win = rest.take w →
      (∀ p, win[p]? = some 0x0D#8 → 0x0D#8 ∉ win.take p → r.len = p + 1) ∧
      (0x0D#8 ∉ win → rest.length ≤ w → r.len = rest.length) ∧
      (0x0D#8 ∉ win → w < rest.length →
        (∀ n, rest[w]? = some 0x20#8 → (∀ j, j < n → rest[w + j]? = some 0x20#8) →
          rest[w + n]? ≠ some 0x20#8 →
          r.len = w + n + if rest[w + n]? = some 0x0D#8 then 1 else 0) ∧
        (rest[w]? = some 0x0D#8 → r.len = w + 1) ∧
        (rest[w]? ≠ some 0x20#8 → rest[w]? ≠ some 0x0D#8 →
          (∀ p, win[p]? = some 0x20#8 → 0x20#8 ∉ win.drop (p + 1) → r.len = p + 1) ∧
          (0x20#8 ∉ win → r.len = w)))) ∧
    ∀ off, off ≤ text.length → ∃ r, rows[rowIndex rows off]? = some r ∧ rowStart rows off = r.start ∧
      r.start ≤ off ∧ (off < r.start + r.len ∨ off = text.length ∧ rowIndex rows off + 1 = rows.length)

/-- R103: an open pane of width w shows 22 rows of w cells from the row of its top offset on: the first w characters of each display row with attribute normal, a paragraph mark as a space, and spaces past a row's characters and past the last row. The column of an offset is its place on its row, at most w. -/
def Clause.PanesShowTheirRows : Prop :=
  ∀ (w top : Nat) (text : List Byte) (rows : List DRow), 1 ≤ w → rows = displayRows w text →
    (paneRows w text top).length = 22 ∧
    (∀ i, i < 22 → ∃ cells, (paneRows w text top)[i]? = some cells ∧ cells.length = w ∧
      (∀ r j, rows[rowIndex rows top + i]? = some r → j < w →
        (∀ c, j < r.len → text[r.start + j]? = some c →
          cells[j]? = some ⟨if c = 0x0D#8 then 0x20#8 else c, .normal⟩) ∧
        (r.len ≤ j → cells[j]? = some ⟨0x20#8, .normal⟩)) ∧
      (rows.length ≤ rowIndex rows top + i →
        cells = List.replicate w (⟨0x20#8, .normal⟩ : Cell))) ∧
    ∀ off r, rows[rowIndex rows off]? = some r → r.start ≤ off →
      columnOf w rows off = min w (off - r.start + 1)

/-- R90, R93, R103: the rest position of a terminal's own image: row 24, column 80 in ROTATING and with no edit session; with focus REFERENCE row 2, column 1; with focus EDIT the cursor cell, the pane row of the cursor's display row and its column, behind 40 columns in SPLIT. A watcher's rest position is its target's. -/
def Clause.RestPositionFollowsTheFocus : Prop :=
  ∀ (s : State) (t : Fin 32),
    ((∃ r, s.screens[t].mode = .rotating r) ∨ s.panes[t].session = none →
      (ownImage s t).rest = (24, 80)) ∧
    (∀ e st rows, (∀ r, s.screens[t].mode ≠ .rotating r) → s.panes[t].session = some e →
      storyOf s e.story = some st →
      (e.focus = .reference → (ownImage s t).rest = (2, 1)) ∧
      (e.focus = .edit → s.lines[t].layout = .full → rows = displayRows 80 (textOf s st) →
        (ownImage s t).rest = (2 + (rowIndex rows e.cursor - rowIndex rows e.top),
          min 80 (e.cursor - rowStart rows e.cursor + 1))) ∧
      (e.focus = .edit → s.lines[t].layout = .split → rows = displayRows 40 (textOf s st) →
        (ownImage s t).rest = (2 + (rowIndex rows e.cursor - rowIndex rows e.top),
          40 + min 40 (e.cursor - rowStart rows e.cursor + 1)))) ∧
    (∀ x, s.screens[t].mode = .watching x →
      (shownImage s t).rest = (ownImage s x).rest) ∧
    ((∀ x, s.screens[t].mode ≠ .watching x) → (shownImage s t).rest = (ownImage s t).rest)

/-- R95 (log entry 23: the attributes): rows 1 to 23 of a ROTATING terminal's own image: the basket's name, edition, LATE and position, and its first 22 stories in list order. -/
def Clause.RotationDisplayShowsTheBasket : Prop :=
  ∀ (s : State) (t : Fin 32) (r : Rotation) (b : Fin 64), s.screens[t].mode = .rotating r →
    r.baskets[r.position - 1]? = some b →
    (∀ id ∈ s.baskets[b].list, (storyOf s id).isSome = true) →
    (s.slots[t] = none → ∃ edition late, (ownRows s t).head? = some (cellsOf .bright
        (padTo 12 s.baskets[b].name ++ [spaceCode] ++ padTo 2 edition ++ [spaceCode] ++
          padTo 4 late ++
          List.replicate 54 spaceCode ++
          padTo 6 (decimal r.position ++ asc " OF " ++ decimal r.baskets.length))) ∧
      (s.baskets[b].edition.val = 0 → edition = [] ∧ late = []) ∧
      ∀ d : Fin 4, s.baskets[b].edition.val = d.val + 1 →
        edition = asc "E" ++ [digit (d.val + 1)] ∧
        late = if s.editions[d].state = .passed then asc "LATE" else []) ∧
    (∀ i id st, i < 22 → s.baskets[b].list[i]? = some id → storyOf s id = some st →
      (ownRows s t)[i + 1]? = some (cellsOf (if st.priority = .flash then .bright else .normal)
        (padTo 80 (padTo 16 st.slug ++ [spaceCode] ++
          (match st.priority with
            | .flash => asc "F"
            | .urgent => asc "U"
            | .routine => asc "R") ++ [spaceCode] ++
          padTo 7 (match st.holding with
            | .filing _ => asc "FILING"
            | .idle => asc "IDLE"
            | .editing _ => asc "EDITING"
            | .setting _ => asc "SETTING") ++ [spaceCode] ++
          padTo 10 (fitText st) ++ [spaceCode] ++
          match st.filed with
          | none => asc "--:--:--"
          | some v => two (v / 3600) ++ asc ":" ++ two (v / 60 % 60) ++ asc ":" ++ two (v % 60))))) ∧
    ∀ i, s.baskets[b].list.length ≤ i → i < 22 → (ownRows s t)[i + 1]? = some blankRow

/-- R89, R73: the codes of a row in hand draw it: a terminal that shows what the sent image says, on receiving the codes of the row taken, shows the shown row there and every other row as before, with the cursor and the attribute that the sent image then says; and the row leaves the set and becomes the last row taken. That it does so also where no cell differs is the model's choice (log entry 11). -/
def Clause.RowCodesDrawTheRow : Prop :=
  ∀ (sc : Screen) (im : Sent) (r : Nat) (shown old : List Cell), 1 ≤ r → r ≤ 24 →
    sc.composed.rows[r - 1]? = some shown → im.rows[r - 1]? = some old → shown.length = 80 →
    old.length = 80 → (∀ x ∈ shown, isText x.ch = true) → sc.hand = none →
    (takeRow sc im r).marks = sc.marks.erase r ∧ (takeRow sc im r).last = some r ∧
    (shown = old → (takeRow sc im r).hand = none ∧ (takeRow sc im r).sent = sc.sent) ∧
    (shown ≠ old → ∃ codes sent, (takeRow sc im r).hand = some (r, codes) ∧
      (takeRow sc im r).sent = some sent ∧ codes.foldl Sent.draw im = sent ∧
      sent.rows = im.rows.set (r - 1) shown ∧
      ∀ f, (differingColumns shown old).head? = some f →
        codes.head? = some (positionCode (r, f)))

/-- R73, R76, R79 to R83, R85, R88 to R90, R93, R95, R102, R103: what the rows of a screen show, the display rows and the panes, the rest position, and the codes that draw a row. -/
def Obligations.RowsAreComposedAndSent : Prop :=
  Clause.ComposedImageIsTheShownImage ∧
    Clause.StatusRowShowsItsFields ∧
    Clause.PanesAndMessageCoverTheBase ∧
    Clause.DisplayRowsEndByTheFiveCases ∧
    Clause.PanesShowTheirRows ∧
    Clause.RestPositionFollowsTheFocus ∧
    Clause.RotationDisplayShowsTheBasket ∧
    Clause.RowCodesDrawTheRow
end

