-- ==== Sys2Proof/Laws/State.lean ====
section
/-! SUPPORT. What each small update of State leaves alone: one lemma per field per update, and one frame per update. -/

namespace Sys2Proof.Machine

/-! ### Frames -/

theorem KeepsBut.refl (fs : List Field) (s : State) : KeepsBut fs s s := by
  intro f _; cases f <;> rfl

theorem Field.same_trans {f : Field} {s t u : State} (h : f.same s t) (k : f.same t u) : f.same s u := by
  cases f <;> exact Eq.trans k h

theorem KeepsBut.trans {fs : List Field} {s t u : State} (h : KeepsBut fs s t) (k : KeepsBut fs t u) :
    KeepsBut fs s u := fun f hf => Field.same_trans (h f hf) (k f hf)

theorem KeepsBut.mono {fs gs : List Field} {s t : State} (h : KeepsBut fs s t) (hs : fs ⊆ gs) :
    KeepsBut gs s t := fun f hf => h f fun hm => hf (hs hm)

/-! ### Updates -/

@[simp] theorem modLine_memory (s : State) (t : Fin 32) (g : Line → Line) : (modLine t g s).memory = s.memory := rfl
@[simp] theorem modLine_stories (s : State) (t : Fin 32) (g : Line → Line) : (modLine t g s).stories = s.stories := rfl
@[simp] theorem modLine_pressure (s : State) (t : Fin 32) (g : Line → Line) : (modLine t g s).pressure = s.pressure := rfl
@[simp] theorem modLine_desks (s : State) (t : Fin 32) (g : Line → Line) : (modLine t g s).desks = s.desks := rfl
@[simp] theorem modLine_slots (s : State) (t : Fin 32) (g : Line → Line) : (modLine t g s).slots = s.slots := rfl
@[simp] theorem modLine_baskets (s : State) (t : Fin 32) (g : Line → Line) : (modLine t g s).baskets = s.baskets := rfl
@[simp] theorem modLine_clock (s : State) (t : Fin 32) (g : Line → Line) : (modLine t g s).clock = s.clock := rfl
@[simp] theorem modLine_editions (s : State) (t : Fin 32) (g : Line → Line) : (modLine t g s).editions = s.editions := rfl
@[simp] theorem modLine_keys (s : State) (t : Fin 32) (g : Line → Line) : (modLine t g s).keys = s.keys := rfl
@[simp] theorem modLine_screens (s : State) (t : Fin 32) (g : Line → Line) : (modLine t g s).screens = s.screens := rfl
@[simp] theorem modLine_panes (s : State) (t : Fin 32) (g : Line → Line) : (modLine t g s).panes = s.panes := rfl
@[simp] theorem modLine_faces (s : State) (t : Fin 32) (g : Line → Line) : (modLine t g s).faces = s.faces := rfl
@[simp] theorem modLine_fit (s : State) (t : Fin 32) (g : Line → Line) : (modLine t g s).fit = s.fit := rfl
@[simp] theorem modLine_lastJob (s : State) (t : Fin 32) (g : Line → Line) : (modLine t g s).lastJob = s.lastJob := rfl
@[simp] theorem modLine_channels (s : State) (t : Fin 32) (g : Line → Line) : (modLine t g s).channels = s.channels := rfl
@[simp] theorem modLine_engine (s : State) (t : Fin 32) (g : Line → Line) : (modLine t g s).engine = s.engine := rfl
@[simp] theorem modLine_wires (s : State) (t : Fin 32) (g : Line → Line) : (modLine t g s).wires = s.wires := rfl
@[simp] theorem modLine_selection (s : State) (t : Fin 32) (g : Line → Line) : (modLine t g s).selection = s.selection := rfl
@[simp] theorem modLine_reserve (s : State) (t : Fin 32) (g : Line → Line) : (modLine t g s).reserve = s.reserve := rfl
@[simp] theorem modLine_notices (s : State) (t : Fin 32) (g : Line → Line) : (modLine t g s).notices = s.notices := rfl
@[simp] theorem modLine_link (s : State) (t : Fin 32) (g : Line → Line) : (modLine t g s).link = s.link := rfl
@[simp] theorem modLine_now (s : State) (t : Fin 32) (g : Line → Line) : (modLine t g s).now = s.now := rfl
@[simp] theorem modLine_pending (s : State) (t : Fin 32) (g : Line → Line) : (modLine t g s).pending = s.pending := rfl

theorem modLine_keeps (s : State) (t : Fin 32) (g : Line → Line) : KeepsBut [.lines] s (modLine t g s) := by
  intro f hf; cases f <;> first | rfl | simp at hf

@[simp] theorem modScreen_memory (s : State) (t : Fin 32) (g : Screen → Screen) : (modScreen t g s).memory = s.memory := rfl
@[simp] theorem modScreen_stories (s : State) (t : Fin 32) (g : Screen → Screen) : (modScreen t g s).stories = s.stories := rfl
@[simp] theorem modScreen_pressure (s : State) (t : Fin 32) (g : Screen → Screen) : (modScreen t g s).pressure = s.pressure := rfl
@[simp] theorem modScreen_desks (s : State) (t : Fin 32) (g : Screen → Screen) : (modScreen t g s).desks = s.desks := rfl
@[simp] theorem modScreen_slots (s : State) (t : Fin 32) (g : Screen → Screen) : (modScreen t g s).slots = s.slots := rfl
@[simp] theorem modScreen_baskets (s : State) (t : Fin 32) (g : Screen → Screen) : (modScreen t g s).baskets = s.baskets := rfl
@[simp] theorem modScreen_clock (s : State) (t : Fin 32) (g : Screen → Screen) : (modScreen t g s).clock = s.clock := rfl
@[simp] theorem modScreen_editions (s : State) (t : Fin 32) (g : Screen → Screen) : (modScreen t g s).editions = s.editions := rfl
@[simp] theorem modScreen_lines (s : State) (t : Fin 32) (g : Screen → Screen) : (modScreen t g s).lines = s.lines := rfl
@[simp] theorem modScreen_keys (s : State) (t : Fin 32) (g : Screen → Screen) : (modScreen t g s).keys = s.keys := rfl
@[simp] theorem modScreen_panes (s : State) (t : Fin 32) (g : Screen → Screen) : (modScreen t g s).panes = s.panes := rfl
@[simp] theorem modScreen_faces (s : State) (t : Fin 32) (g : Screen → Screen) : (modScreen t g s).faces = s.faces := rfl
@[simp] theorem modScreen_fit (s : State) (t : Fin 32) (g : Screen → Screen) : (modScreen t g s).fit = s.fit := rfl
@[simp] theorem modScreen_lastJob (s : State) (t : Fin 32) (g : Screen → Screen) : (modScreen t g s).lastJob = s.lastJob := rfl
@[simp] theorem modScreen_channels (s : State) (t : Fin 32) (g : Screen → Screen) : (modScreen t g s).channels = s.channels := rfl
@[simp] theorem modScreen_engine (s : State) (t : Fin 32) (g : Screen → Screen) : (modScreen t g s).engine = s.engine := rfl
@[simp] theorem modScreen_wires (s : State) (t : Fin 32) (g : Screen → Screen) : (modScreen t g s).wires = s.wires := rfl
@[simp] theorem modScreen_selection (s : State) (t : Fin 32) (g : Screen → Screen) : (modScreen t g s).selection = s.selection := rfl
@[simp] theorem modScreen_reserve (s : State) (t : Fin 32) (g : Screen → Screen) : (modScreen t g s).reserve = s.reserve := rfl
@[simp] theorem modScreen_notices (s : State) (t : Fin 32) (g : Screen → Screen) : (modScreen t g s).notices = s.notices := rfl
@[simp] theorem modScreen_link (s : State) (t : Fin 32) (g : Screen → Screen) : (modScreen t g s).link = s.link := rfl
@[simp] theorem modScreen_now (s : State) (t : Fin 32) (g : Screen → Screen) : (modScreen t g s).now = s.now := rfl
@[simp] theorem modScreen_pending (s : State) (t : Fin 32) (g : Screen → Screen) : (modScreen t g s).pending = s.pending := rfl

theorem modScreen_keeps (s : State) (t : Fin 32) (g : Screen → Screen) : KeepsBut [.screens] s (modScreen t g s) := by
  intro f hf; cases f <;> first | rfl | simp at hf

@[simp] theorem modPanes_memory (s : State) (t : Fin 32) (g : Panes → Panes) : (modPanes t g s).memory = s.memory := rfl
@[simp] theorem modPanes_stories (s : State) (t : Fin 32) (g : Panes → Panes) : (modPanes t g s).stories = s.stories := rfl
@[simp] theorem modPanes_pressure (s : State) (t : Fin 32) (g : Panes → Panes) : (modPanes t g s).pressure = s.pressure := rfl
@[simp] theorem modPanes_desks (s : State) (t : Fin 32) (g : Panes → Panes) : (modPanes t g s).desks = s.desks := rfl
@[simp] theorem modPanes_slots (s : State) (t : Fin 32) (g : Panes → Panes) : (modPanes t g s).slots = s.slots := rfl
@[simp] theorem modPanes_baskets (s : State) (t : Fin 32) (g : Panes → Panes) : (modPanes t g s).baskets = s.baskets := rfl
@[simp] theorem modPanes_clock (s : State) (t : Fin 32) (g : Panes → Panes) : (modPanes t g s).clock = s.clock := rfl
@[simp] theorem modPanes_editions (s : State) (t : Fin 32) (g : Panes → Panes) : (modPanes t g s).editions = s.editions := rfl
@[simp] theorem modPanes_lines (s : State) (t : Fin 32) (g : Panes → Panes) : (modPanes t g s).lines = s.lines := rfl
@[simp] theorem modPanes_keys (s : State) (t : Fin 32) (g : Panes → Panes) : (modPanes t g s).keys = s.keys := rfl
@[simp] theorem modPanes_screens (s : State) (t : Fin 32) (g : Panes → Panes) : (modPanes t g s).screens = s.screens := rfl
@[simp] theorem modPanes_faces (s : State) (t : Fin 32) (g : Panes → Panes) : (modPanes t g s).faces = s.faces := rfl
@[simp] theorem modPanes_fit (s : State) (t : Fin 32) (g : Panes → Panes) : (modPanes t g s).fit = s.fit := rfl
@[simp] theorem modPanes_lastJob (s : State) (t : Fin 32) (g : Panes → Panes) : (modPanes t g s).lastJob = s.lastJob := rfl
@[simp] theorem modPanes_channels (s : State) (t : Fin 32) (g : Panes → Panes) : (modPanes t g s).channels = s.channels := rfl
@[simp] theorem modPanes_engine (s : State) (t : Fin 32) (g : Panes → Panes) : (modPanes t g s).engine = s.engine := rfl
@[simp] theorem modPanes_wires (s : State) (t : Fin 32) (g : Panes → Panes) : (modPanes t g s).wires = s.wires := rfl
@[simp] theorem modPanes_selection (s : State) (t : Fin 32) (g : Panes → Panes) : (modPanes t g s).selection = s.selection := rfl
@[simp] theorem modPanes_reserve (s : State) (t : Fin 32) (g : Panes → Panes) : (modPanes t g s).reserve = s.reserve := rfl
@[simp] theorem modPanes_notices (s : State) (t : Fin 32) (g : Panes → Panes) : (modPanes t g s).notices = s.notices := rfl
@[simp] theorem modPanes_link (s : State) (t : Fin 32) (g : Panes → Panes) : (modPanes t g s).link = s.link := rfl
@[simp] theorem modPanes_now (s : State) (t : Fin 32) (g : Panes → Panes) : (modPanes t g s).now = s.now := rfl
@[simp] theorem modPanes_pending (s : State) (t : Fin 32) (g : Panes → Panes) : (modPanes t g s).pending = s.pending := rfl

theorem modPanes_keeps (s : State) (t : Fin 32) (g : Panes → Panes) : KeepsBut [.panes] s (modPanes t g s) := by
  intro f hf; cases f <;> first | rfl | simp at hf

@[simp] theorem setSlot_memory (s : State) (t : Fin 32) (m : Option Message) : (setSlot t m s).memory = s.memory := rfl
@[simp] theorem setSlot_stories (s : State) (t : Fin 32) (m : Option Message) : (setSlot t m s).stories = s.stories := rfl
@[simp] theorem setSlot_pressure (s : State) (t : Fin 32) (m : Option Message) : (setSlot t m s).pressure = s.pressure := rfl
@[simp] theorem setSlot_desks (s : State) (t : Fin 32) (m : Option Message) : (setSlot t m s).desks = s.desks := rfl
@[simp] theorem setSlot_baskets (s : State) (t : Fin 32) (m : Option Message) : (setSlot t m s).baskets = s.baskets := rfl
@[simp] theorem setSlot_clock (s : State) (t : Fin 32) (m : Option Message) : (setSlot t m s).clock = s.clock := rfl
@[simp] theorem setSlot_editions (s : State) (t : Fin 32) (m : Option Message) : (setSlot t m s).editions = s.editions := rfl
@[simp] theorem setSlot_lines (s : State) (t : Fin 32) (m : Option Message) : (setSlot t m s).lines = s.lines := rfl
@[simp] theorem setSlot_keys (s : State) (t : Fin 32) (m : Option Message) : (setSlot t m s).keys = s.keys := rfl
@[simp] theorem setSlot_screens (s : State) (t : Fin 32) (m : Option Message) : (setSlot t m s).screens = s.screens := rfl
@[simp] theorem setSlot_panes (s : State) (t : Fin 32) (m : Option Message) : (setSlot t m s).panes = s.panes := rfl
@[simp] theorem setSlot_faces (s : State) (t : Fin 32) (m : Option Message) : (setSlot t m s).faces = s.faces := rfl
@[simp] theorem setSlot_fit (s : State) (t : Fin 32) (m : Option Message) : (setSlot t m s).fit = s.fit := rfl
@[simp] theorem setSlot_lastJob (s : State) (t : Fin 32) (m : Option Message) : (setSlot t m s).lastJob = s.lastJob := rfl
@[simp] theorem setSlot_channels (s : State) (t : Fin 32) (m : Option Message) : (setSlot t m s).channels = s.channels := rfl
@[simp] theorem setSlot_engine (s : State) (t : Fin 32) (m : Option Message) : (setSlot t m s).engine = s.engine := rfl
@[simp] theorem setSlot_wires (s : State) (t : Fin 32) (m : Option Message) : (setSlot t m s).wires = s.wires := rfl
@[simp] theorem setSlot_selection (s : State) (t : Fin 32) (m : Option Message) : (setSlot t m s).selection = s.selection := rfl
@[simp] theorem setSlot_reserve (s : State) (t : Fin 32) (m : Option Message) : (setSlot t m s).reserve = s.reserve := rfl
@[simp] theorem setSlot_notices (s : State) (t : Fin 32) (m : Option Message) : (setSlot t m s).notices = s.notices := rfl
@[simp] theorem setSlot_link (s : State) (t : Fin 32) (m : Option Message) : (setSlot t m s).link = s.link := rfl
@[simp] theorem setSlot_now (s : State) (t : Fin 32) (m : Option Message) : (setSlot t m s).now = s.now := rfl
@[simp] theorem setSlot_pending (s : State) (t : Fin 32) (m : Option Message) : (setSlot t m s).pending = s.pending := rfl

theorem setSlot_keeps (s : State) (t : Fin 32) (m : Option Message) : KeepsBut [.slots] s (setSlot t m s) := by
  intro f hf; cases f <;> first | rfl | simp at hf

@[simp] theorem modChannel_memory (s : State) (c : Fin 4) (g : Channel → Channel) : (modChannel c g s).memory = s.memory := rfl
@[simp] theorem modChannel_stories (s : State) (c : Fin 4) (g : Channel → Channel) : (modChannel c g s).stories = s.stories := rfl
@[simp] theorem modChannel_pressure (s : State) (c : Fin 4) (g : Channel → Channel) : (modChannel c g s).pressure = s.pressure := rfl
@[simp] theorem modChannel_desks (s : State) (c : Fin 4) (g : Channel → Channel) : (modChannel c g s).desks = s.desks := rfl
@[simp] theorem modChannel_slots (s : State) (c : Fin 4) (g : Channel → Channel) : (modChannel c g s).slots = s.slots := rfl
@[simp] theorem modChannel_baskets (s : State) (c : Fin 4) (g : Channel → Channel) : (modChannel c g s).baskets = s.baskets := rfl
@[simp] theorem modChannel_clock (s : State) (c : Fin 4) (g : Channel → Channel) : (modChannel c g s).clock = s.clock := rfl
@[simp] theorem modChannel_editions (s : State) (c : Fin 4) (g : Channel → Channel) : (modChannel c g s).editions = s.editions := rfl
@[simp] theorem modChannel_lines (s : State) (c : Fin 4) (g : Channel → Channel) : (modChannel c g s).lines = s.lines := rfl
@[simp] theorem modChannel_keys (s : State) (c : Fin 4) (g : Channel → Channel) : (modChannel c g s).keys = s.keys := rfl
@[simp] theorem modChannel_screens (s : State) (c : Fin 4) (g : Channel → Channel) : (modChannel c g s).screens = s.screens := rfl
@[simp] theorem modChannel_panes (s : State) (c : Fin 4) (g : Channel → Channel) : (modChannel c g s).panes = s.panes := rfl
@[simp] theorem modChannel_faces (s : State) (c : Fin 4) (g : Channel → Channel) : (modChannel c g s).faces = s.faces := rfl
@[simp] theorem modChannel_fit (s : State) (c : Fin 4) (g : Channel → Channel) : (modChannel c g s).fit = s.fit := rfl
@[simp] theorem modChannel_lastJob (s : State) (c : Fin 4) (g : Channel → Channel) : (modChannel c g s).lastJob = s.lastJob := rfl
@[simp] theorem modChannel_engine (s : State) (c : Fin 4) (g : Channel → Channel) : (modChannel c g s).engine = s.engine := rfl
@[simp] theorem modChannel_wires (s : State) (c : Fin 4) (g : Channel → Channel) : (modChannel c g s).wires = s.wires := rfl
@[simp] theorem modChannel_selection (s : State) (c : Fin 4) (g : Channel → Channel) : (modChannel c g s).selection = s.selection := rfl
@[simp] theorem modChannel_reserve (s : State) (c : Fin 4) (g : Channel → Channel) : (modChannel c g s).reserve = s.reserve := rfl
@[simp] theorem modChannel_notices (s : State) (c : Fin 4) (g : Channel → Channel) : (modChannel c g s).notices = s.notices := rfl
@[simp] theorem modChannel_link (s : State) (c : Fin 4) (g : Channel → Channel) : (modChannel c g s).link = s.link := rfl
@[simp] theorem modChannel_now (s : State) (c : Fin 4) (g : Channel → Channel) : (modChannel c g s).now = s.now := rfl
@[simp] theorem modChannel_pending (s : State) (c : Fin 4) (g : Channel → Channel) : (modChannel c g s).pending = s.pending := rfl

theorem modChannel_keeps (s : State) (c : Fin 4) (g : Channel → Channel) : KeepsBut [.channels] s (modChannel c g s) := by
  intro f hf; cases f <;> first | rfl | simp at hf

@[simp] theorem modWire_memory (s : State) (w : Fin 4) (g : Wire → Wire) : (modWire w g s).memory = s.memory := rfl
@[simp] theorem modWire_stories (s : State) (w : Fin 4) (g : Wire → Wire) : (modWire w g s).stories = s.stories := rfl
@[simp] theorem modWire_pressure (s : State) (w : Fin 4) (g : Wire → Wire) : (modWire w g s).pressure = s.pressure := rfl
@[simp] theorem modWire_desks (s : State) (w : Fin 4) (g : Wire → Wire) : (modWire w g s).desks = s.desks := rfl
@[simp] theorem modWire_slots (s : State) (w : Fin 4) (g : Wire → Wire) : (modWire w g s).slots = s.slots := rfl
@[simp] theorem modWire_baskets (s : State) (w : Fin 4) (g : Wire → Wire) : (modWire w g s).baskets = s.baskets := rfl
@[simp] theorem modWire_clock (s : State) (w : Fin 4) (g : Wire → Wire) : (modWire w g s).clock = s.clock := rfl
@[simp] theorem modWire_editions (s : State) (w : Fin 4) (g : Wire → Wire) : (modWire w g s).editions = s.editions := rfl
@[simp] theorem modWire_lines (s : State) (w : Fin 4) (g : Wire → Wire) : (modWire w g s).lines = s.lines := rfl
@[simp] theorem modWire_keys (s : State) (w : Fin 4) (g : Wire → Wire) : (modWire w g s).keys = s.keys := rfl
@[simp] theorem modWire_screens (s : State) (w : Fin 4) (g : Wire → Wire) : (modWire w g s).screens = s.screens := rfl
@[simp] theorem modWire_panes (s : State) (w : Fin 4) (g : Wire → Wire) : (modWire w g s).panes = s.panes := rfl
@[simp] theorem modWire_faces (s : State) (w : Fin 4) (g : Wire → Wire) : (modWire w g s).faces = s.faces := rfl
@[simp] theorem modWire_fit (s : State) (w : Fin 4) (g : Wire → Wire) : (modWire w g s).fit = s.fit := rfl
@[simp] theorem modWire_lastJob (s : State) (w : Fin 4) (g : Wire → Wire) : (modWire w g s).lastJob = s.lastJob := rfl
@[simp] theorem modWire_channels (s : State) (w : Fin 4) (g : Wire → Wire) : (modWire w g s).channels = s.channels := rfl
@[simp] theorem modWire_engine (s : State) (w : Fin 4) (g : Wire → Wire) : (modWire w g s).engine = s.engine := rfl
@[simp] theorem modWire_selection (s : State) (w : Fin 4) (g : Wire → Wire) : (modWire w g s).selection = s.selection := rfl
@[simp] theorem modWire_reserve (s : State) (w : Fin 4) (g : Wire → Wire) : (modWire w g s).reserve = s.reserve := rfl
@[simp] theorem modWire_notices (s : State) (w : Fin 4) (g : Wire → Wire) : (modWire w g s).notices = s.notices := rfl
@[simp] theorem modWire_link (s : State) (w : Fin 4) (g : Wire → Wire) : (modWire w g s).link = s.link := rfl
@[simp] theorem modWire_now (s : State) (w : Fin 4) (g : Wire → Wire) : (modWire w g s).now = s.now := rfl
@[simp] theorem modWire_pending (s : State) (w : Fin 4) (g : Wire → Wire) : (modWire w g s).pending = s.pending := rfl

theorem modWire_keeps (s : State) (w : Fin 4) (g : Wire → Wire) : KeepsBut [.wires] s (modWire w g s) := by
  intro f hf; cases f <;> first | rfl | simp at hf

@[simp] theorem modBasket_memory (s : State) (b : Fin 64) (g : Basket → Basket) : (modBasket b g s).memory = s.memory := rfl
@[simp] theorem modBasket_stories (s : State) (b : Fin 64) (g : Basket → Basket) : (modBasket b g s).stories = s.stories := rfl
@[simp] theorem modBasket_pressure (s : State) (b : Fin 64) (g : Basket → Basket) : (modBasket b g s).pressure = s.pressure := rfl
@[simp] theorem modBasket_desks (s : State) (b : Fin 64) (g : Basket → Basket) : (modBasket b g s).desks = s.desks := rfl
@[simp] theorem modBasket_slots (s : State) (b : Fin 64) (g : Basket → Basket) : (modBasket b g s).slots = s.slots := rfl
@[simp] theorem modBasket_clock (s : State) (b : Fin 64) (g : Basket → Basket) : (modBasket b g s).clock = s.clock := rfl
@[simp] theorem modBasket_editions (s : State) (b : Fin 64) (g : Basket → Basket) : (modBasket b g s).editions = s.editions := rfl
@[simp] theorem modBasket_lines (s : State) (b : Fin 64) (g : Basket → Basket) : (modBasket b g s).lines = s.lines := rfl
@[simp] theorem modBasket_keys (s : State) (b : Fin 64) (g : Basket → Basket) : (modBasket b g s).keys = s.keys := rfl
@[simp] theorem modBasket_screens (s : State) (b : Fin 64) (g : Basket → Basket) : (modBasket b g s).screens = s.screens := rfl
@[simp] theorem modBasket_panes (s : State) (b : Fin 64) (g : Basket → Basket) : (modBasket b g s).panes = s.panes := rfl
@[simp] theorem modBasket_faces (s : State) (b : Fin 64) (g : Basket → Basket) : (modBasket b g s).faces = s.faces := rfl
@[simp] theorem modBasket_fit (s : State) (b : Fin 64) (g : Basket → Basket) : (modBasket b g s).fit = s.fit := rfl
@[simp] theorem modBasket_lastJob (s : State) (b : Fin 64) (g : Basket → Basket) : (modBasket b g s).lastJob = s.lastJob := rfl
@[simp] theorem modBasket_channels (s : State) (b : Fin 64) (g : Basket → Basket) : (modBasket b g s).channels = s.channels := rfl
@[simp] theorem modBasket_engine (s : State) (b : Fin 64) (g : Basket → Basket) : (modBasket b g s).engine = s.engine := rfl
@[simp] theorem modBasket_wires (s : State) (b : Fin 64) (g : Basket → Basket) : (modBasket b g s).wires = s.wires := rfl
@[simp] theorem modBasket_selection (s : State) (b : Fin 64) (g : Basket → Basket) : (modBasket b g s).selection = s.selection := rfl
@[simp] theorem modBasket_reserve (s : State) (b : Fin 64) (g : Basket → Basket) : (modBasket b g s).reserve = s.reserve := rfl
@[simp] theorem modBasket_notices (s : State) (b : Fin 64) (g : Basket → Basket) : (modBasket b g s).notices = s.notices := rfl
@[simp] theorem modBasket_link (s : State) (b : Fin 64) (g : Basket → Basket) : (modBasket b g s).link = s.link := rfl
@[simp] theorem modBasket_now (s : State) (b : Fin 64) (g : Basket → Basket) : (modBasket b g s).now = s.now := rfl
@[simp] theorem modBasket_pending (s : State) (b : Fin 64) (g : Basket → Basket) : (modBasket b g s).pending = s.pending := rfl

theorem modBasket_keeps (s : State) (b : Fin 64) (g : Basket → Basket) : KeepsBut [.baskets] s (modBasket b g s) := by
  intro f hf; cases f <;> first | rfl | simp at hf

@[simp] theorem modEdition_memory (s : State) (e : Fin 4) (g : Edition → Edition) : (modEdition e g s).memory = s.memory := rfl
@[simp] theorem modEdition_stories (s : State) (e : Fin 4) (g : Edition → Edition) : (modEdition e g s).stories = s.stories := rfl
@[simp] theorem modEdition_pressure (s : State) (e : Fin 4) (g : Edition → Edition) : (modEdition e g s).pressure = s.pressure := rfl
@[simp] theorem modEdition_desks (s : State) (e : Fin 4) (g : Edition → Edition) : (modEdition e g s).desks = s.desks := rfl
@[simp] theorem modEdition_slots (s : State) (e : Fin 4) (g : Edition → Edition) : (modEdition e g s).slots = s.slots := rfl
@[simp] theorem modEdition_baskets (s : State) (e : Fin 4) (g : Edition → Edition) : (modEdition e g s).baskets = s.baskets := rfl
@[simp] theorem modEdition_clock (s : State) (e : Fin 4) (g : Edition → Edition) : (modEdition e g s).clock = s.clock := rfl
@[simp] theorem modEdition_lines (s : State) (e : Fin 4) (g : Edition → Edition) : (modEdition e g s).lines = s.lines := rfl
@[simp] theorem modEdition_keys (s : State) (e : Fin 4) (g : Edition → Edition) : (modEdition e g s).keys = s.keys := rfl
@[simp] theorem modEdition_screens (s : State) (e : Fin 4) (g : Edition → Edition) : (modEdition e g s).screens = s.screens := rfl
@[simp] theorem modEdition_panes (s : State) (e : Fin 4) (g : Edition → Edition) : (modEdition e g s).panes = s.panes := rfl
@[simp] theorem modEdition_faces (s : State) (e : Fin 4) (g : Edition → Edition) : (modEdition e g s).faces = s.faces := rfl
@[simp] theorem modEdition_fit (s : State) (e : Fin 4) (g : Edition → Edition) : (modEdition e g s).fit = s.fit := rfl
@[simp] theorem modEdition_lastJob (s : State) (e : Fin 4) (g : Edition → Edition) : (modEdition e g s).lastJob = s.lastJob := rfl
@[simp] theorem modEdition_channels (s : State) (e : Fin 4) (g : Edition → Edition) : (modEdition e g s).channels = s.channels := rfl
@[simp] theorem modEdition_engine (s : State) (e : Fin 4) (g : Edition → Edition) : (modEdition e g s).engine = s.engine := rfl
@[simp] theorem modEdition_wires (s : State) (e : Fin 4) (g : Edition → Edition) : (modEdition e g s).wires = s.wires := rfl
@[simp] theorem modEdition_selection (s : State) (e : Fin 4) (g : Edition → Edition) : (modEdition e g s).selection = s.selection := rfl
@[simp] theorem modEdition_reserve (s : State) (e : Fin 4) (g : Edition → Edition) : (modEdition e g s).reserve = s.reserve := rfl
@[simp] theorem modEdition_notices (s : State) (e : Fin 4) (g : Edition → Edition) : (modEdition e g s).notices = s.notices := rfl
@[simp] theorem modEdition_link (s : State) (e : Fin 4) (g : Edition → Edition) : (modEdition e g s).link = s.link := rfl
@[simp] theorem modEdition_now (s : State) (e : Fin 4) (g : Edition → Edition) : (modEdition e g s).now = s.now := rfl
@[simp] theorem modEdition_pending (s : State) (e : Fin 4) (g : Edition → Edition) : (modEdition e g s).pending = s.pending := rfl

theorem modEdition_keeps (s : State) (e : Fin 4) (g : Edition → Edition) : KeepsBut [.editions] s (modEdition e g s) := by
  intro f hf; cases f <;> first | rfl | simp at hf

@[simp] theorem setStory_memory (s : State) (id : Nat) (st : Story) : (setStory id st s).memory = s.memory := rfl
@[simp] theorem setStory_pressure (s : State) (id : Nat) (st : Story) : (setStory id st s).pressure = s.pressure := rfl
@[simp] theorem setStory_desks (s : State) (id : Nat) (st : Story) : (setStory id st s).desks = s.desks := rfl
@[simp] theorem setStory_slots (s : State) (id : Nat) (st : Story) : (setStory id st s).slots = s.slots := rfl
@[simp] theorem setStory_baskets (s : State) (id : Nat) (st : Story) : (setStory id st s).baskets = s.baskets := rfl
@[simp] theorem setStory_clock (s : State) (id : Nat) (st : Story) : (setStory id st s).clock = s.clock := rfl
@[simp] theorem setStory_editions (s : State) (id : Nat) (st : Story) : (setStory id st s).editions = s.editions := rfl
@[simp] theorem setStory_lines (s : State) (id : Nat) (st : Story) : (setStory id st s).lines = s.lines := rfl
@[simp] theorem setStory_keys (s : State) (id : Nat) (st : Story) : (setStory id st s).keys = s.keys := rfl
@[simp] theorem setStory_screens (s : State) (id : Nat) (st : Story) : (setStory id st s).screens = s.screens := rfl
@[simp] theorem setStory_panes (s : State) (id : Nat) (st : Story) : (setStory id st s).panes = s.panes := rfl
@[simp] theorem setStory_faces (s : State) (id : Nat) (st : Story) : (setStory id st s).faces = s.faces := rfl
@[simp] theorem setStory_fit (s : State) (id : Nat) (st : Story) : (setStory id st s).fit = s.fit := rfl
@[simp] theorem setStory_lastJob (s : State) (id : Nat) (st : Story) : (setStory id st s).lastJob = s.lastJob := rfl
@[simp] theorem setStory_channels (s : State) (id : Nat) (st : Story) : (setStory id st s).channels = s.channels := rfl
@[simp] theorem setStory_engine (s : State) (id : Nat) (st : Story) : (setStory id st s).engine = s.engine := rfl
@[simp] theorem setStory_wires (s : State) (id : Nat) (st : Story) : (setStory id st s).wires = s.wires := rfl
@[simp] theorem setStory_selection (s : State) (id : Nat) (st : Story) : (setStory id st s).selection = s.selection := rfl
@[simp] theorem setStory_reserve (s : State) (id : Nat) (st : Story) : (setStory id st s).reserve = s.reserve := rfl
@[simp] theorem setStory_notices (s : State) (id : Nat) (st : Story) : (setStory id st s).notices = s.notices := rfl
@[simp] theorem setStory_link (s : State) (id : Nat) (st : Story) : (setStory id st s).link = s.link := rfl
@[simp] theorem setStory_now (s : State) (id : Nat) (st : Story) : (setStory id st s).now = s.now := rfl
@[simp] theorem setStory_pending (s : State) (id : Nat) (st : Story) : (setStory id st s).pending = s.pending := rfl

theorem setStory_keeps (s : State) (id : Nat) (st : Story) : KeepsBut [.stories] s (setStory id st s) := by
  intro f hf; cases f <;> first | rfl | simp at hf

@[simp] theorem setText_pressure (s : State) (id : Nat) (st : Story) (m : Memory) (c : List Nat) : (setText id st m c s).pressure = s.pressure := rfl
@[simp] theorem setText_desks (s : State) (id : Nat) (st : Story) (m : Memory) (c : List Nat) : (setText id st m c s).desks = s.desks := rfl
@[simp] theorem setText_slots (s : State) (id : Nat) (st : Story) (m : Memory) (c : List Nat) : (setText id st m c s).slots = s.slots := rfl
@[simp] theorem setText_baskets (s : State) (id : Nat) (st : Story) (m : Memory) (c : List Nat) : (setText id st m c s).baskets = s.baskets := rfl
@[simp] theorem setText_clock (s : State) (id : Nat) (st : Story) (m : Memory) (c : List Nat) : (setText id st m c s).clock = s.clock := rfl
@[simp] theorem setText_editions (s : State) (id : Nat) (st : Story) (m : Memory) (c : List Nat) : (setText id st m c s).editions = s.editions := rfl
@[simp] theorem setText_lines (s : State) (id : Nat) (st : Story) (m : Memory) (c : List Nat) : (setText id st m c s).lines = s.lines := rfl
@[simp] theorem setText_keys (s : State) (id : Nat) (st : Story) (m : Memory) (c : List Nat) : (setText id st m c s).keys = s.keys := rfl
@[simp] theorem setText_screens (s : State) (id : Nat) (st : Story) (m : Memory) (c : List Nat) : (setText id st m c s).screens = s.screens := rfl
@[simp] theorem setText_panes (s : State) (id : Nat) (st : Story) (m : Memory) (c : List Nat) : (setText id st m c s).panes = s.panes := rfl
@[simp] theorem setText_faces (s : State) (id : Nat) (st : Story) (m : Memory) (c : List Nat) : (setText id st m c s).faces = s.faces := rfl
@[simp] theorem setText_fit (s : State) (id : Nat) (st : Story) (m : Memory) (c : List Nat) : (setText id st m c s).fit = s.fit := rfl
@[simp] theorem setText_lastJob (s : State) (id : Nat) (st : Story) (m : Memory) (c : List Nat) : (setText id st m c s).lastJob = s.lastJob := rfl
@[simp] theorem setText_channels (s : State) (id : Nat) (st : Story) (m : Memory) (c : List Nat) : (setText id st m c s).channels = s.channels := rfl
@[simp] theorem setText_engine (s : State) (id : Nat) (st : Story) (m : Memory) (c : List Nat) : (setText id st m c s).engine = s.engine := rfl
@[simp] theorem setText_wires (s : State) (id : Nat) (st : Story) (m : Memory) (c : List Nat) : (setText id st m c s).wires = s.wires := rfl
@[simp] theorem setText_selection (s : State) (id : Nat) (st : Story) (m : Memory) (c : List Nat) : (setText id st m c s).selection = s.selection := rfl
@[simp] theorem setText_reserve (s : State) (id : Nat) (st : Story) (m : Memory) (c : List Nat) : (setText id st m c s).reserve = s.reserve := rfl
@[simp] theorem setText_notices (s : State) (id : Nat) (st : Story) (m : Memory) (c : List Nat) : (setText id st m c s).notices = s.notices := rfl
@[simp] theorem setText_link (s : State) (id : Nat) (st : Story) (m : Memory) (c : List Nat) : (setText id st m c s).link = s.link := rfl
@[simp] theorem setText_now (s : State) (id : Nat) (st : Story) (m : Memory) (c : List Nat) : (setText id st m c s).now = s.now := rfl
@[simp] theorem setText_pending (s : State) (id : Nat) (st : Story) (m : Memory) (c : List Nat) : (setText id st m c s).pending = s.pending := rfl

theorem setText_keeps (s : State) (id : Nat) (st : Story) (m : Memory) (c : List Nat) : KeepsBut [.stories, .memory] s (setText id st m c s) := by
  intro f hf; cases f <;> first | rfl | simp at hf

@[simp] theorem raiseSource_memory (s : State) (i : Fin 48) : (raiseSource i s).memory = s.memory := rfl
@[simp] theorem raiseSource_stories (s : State) (i : Fin 48) : (raiseSource i s).stories = s.stories := rfl
@[simp] theorem raiseSource_pressure (s : State) (i : Fin 48) : (raiseSource i s).pressure = s.pressure := rfl
@[simp] theorem raiseSource_desks (s : State) (i : Fin 48) : (raiseSource i s).desks = s.desks := rfl
@[simp] theorem raiseSource_slots (s : State) (i : Fin 48) : (raiseSource i s).slots = s.slots := rfl
@[simp] theorem raiseSource_baskets (s : State) (i : Fin 48) : (raiseSource i s).baskets = s.baskets := rfl
@[simp] theorem raiseSource_clock (s : State) (i : Fin 48) : (raiseSource i s).clock = s.clock := rfl
@[simp] theorem raiseSource_editions (s : State) (i : Fin 48) : (raiseSource i s).editions = s.editions := rfl
@[simp] theorem raiseSource_lines (s : State) (i : Fin 48) : (raiseSource i s).lines = s.lines := rfl
@[simp] theorem raiseSource_keys (s : State) (i : Fin 48) : (raiseSource i s).keys = s.keys := rfl
@[simp] theorem raiseSource_screens (s : State) (i : Fin 48) : (raiseSource i s).screens = s.screens := rfl
@[simp] theorem raiseSource_panes (s : State) (i : Fin 48) : (raiseSource i s).panes = s.panes := rfl
@[simp] theorem raiseSource_faces (s : State) (i : Fin 48) : (raiseSource i s).faces = s.faces := rfl
@[simp] theorem raiseSource_fit (s : State) (i : Fin 48) : (raiseSource i s).fit = s.fit := rfl
@[simp] theorem raiseSource_lastJob (s : State) (i : Fin 48) : (raiseSource i s).lastJob = s.lastJob := rfl
@[simp] theorem raiseSource_channels (s : State) (i : Fin 48) : (raiseSource i s).channels = s.channels := rfl
@[simp] theorem raiseSource_engine (s : State) (i : Fin 48) : (raiseSource i s).engine = s.engine := rfl
@[simp] theorem raiseSource_wires (s : State) (i : Fin 48) : (raiseSource i s).wires = s.wires := rfl
@[simp] theorem raiseSource_selection (s : State) (i : Fin 48) : (raiseSource i s).selection = s.selection := rfl
@[simp] theorem raiseSource_reserve (s : State) (i : Fin 48) : (raiseSource i s).reserve = s.reserve := rfl
@[simp] theorem raiseSource_link (s : State) (i : Fin 48) : (raiseSource i s).link = s.link := rfl
@[simp] theorem raiseSource_now (s : State) (i : Fin 48) : (raiseSource i s).now = s.now := rfl
@[simp] theorem raiseSource_pending (s : State) (i : Fin 48) : (raiseSource i s).pending = s.pending := rfl

theorem raiseSource_keeps (s : State) (i : Fin 48) : KeepsBut [.notices] s (raiseSource i s) := by
  intro f hf; cases f <;> first | rfl | simp at hf

@[simp] theorem raiseLink_memory (s : State) (g : LinkErrors → LinkErrors) : (raiseLink g s).memory = s.memory := rfl
@[simp] theorem raiseLink_stories (s : State) (g : LinkErrors → LinkErrors) : (raiseLink g s).stories = s.stories := rfl
@[simp] theorem raiseLink_pressure (s : State) (g : LinkErrors → LinkErrors) : (raiseLink g s).pressure = s.pressure := rfl
@[simp] theorem raiseLink_desks (s : State) (g : LinkErrors → LinkErrors) : (raiseLink g s).desks = s.desks := rfl
@[simp] theorem raiseLink_slots (s : State) (g : LinkErrors → LinkErrors) : (raiseLink g s).slots = s.slots := rfl
@[simp] theorem raiseLink_baskets (s : State) (g : LinkErrors → LinkErrors) : (raiseLink g s).baskets = s.baskets := rfl
@[simp] theorem raiseLink_clock (s : State) (g : LinkErrors → LinkErrors) : (raiseLink g s).clock = s.clock := rfl
@[simp] theorem raiseLink_editions (s : State) (g : LinkErrors → LinkErrors) : (raiseLink g s).editions = s.editions := rfl
@[simp] theorem raiseLink_lines (s : State) (g : LinkErrors → LinkErrors) : (raiseLink g s).lines = s.lines := rfl
@[simp] theorem raiseLink_keys (s : State) (g : LinkErrors → LinkErrors) : (raiseLink g s).keys = s.keys := rfl
@[simp] theorem raiseLink_screens (s : State) (g : LinkErrors → LinkErrors) : (raiseLink g s).screens = s.screens := rfl
@[simp] theorem raiseLink_panes (s : State) (g : LinkErrors → LinkErrors) : (raiseLink g s).panes = s.panes := rfl
@[simp] theorem raiseLink_faces (s : State) (g : LinkErrors → LinkErrors) : (raiseLink g s).faces = s.faces := rfl
@[simp] theorem raiseLink_fit (s : State) (g : LinkErrors → LinkErrors) : (raiseLink g s).fit = s.fit := rfl
@[simp] theorem raiseLink_lastJob (s : State) (g : LinkErrors → LinkErrors) : (raiseLink g s).lastJob = s.lastJob := rfl
@[simp] theorem raiseLink_channels (s : State) (g : LinkErrors → LinkErrors) : (raiseLink g s).channels = s.channels := rfl
@[simp] theorem raiseLink_engine (s : State) (g : LinkErrors → LinkErrors) : (raiseLink g s).engine = s.engine := rfl
@[simp] theorem raiseLink_wires (s : State) (g : LinkErrors → LinkErrors) : (raiseLink g s).wires = s.wires := rfl
@[simp] theorem raiseLink_selection (s : State) (g : LinkErrors → LinkErrors) : (raiseLink g s).selection = s.selection := rfl
@[simp] theorem raiseLink_reserve (s : State) (g : LinkErrors → LinkErrors) : (raiseLink g s).reserve = s.reserve := rfl
@[simp] theorem raiseLink_link (s : State) (g : LinkErrors → LinkErrors) : (raiseLink g s).link = s.link := rfl
@[simp] theorem raiseLink_now (s : State) (g : LinkErrors → LinkErrors) : (raiseLink g s).now = s.now := rfl
@[simp] theorem raiseLink_pending (s : State) (g : LinkErrors → LinkErrors) : (raiseLink g s).pending = s.pending := rfl

theorem raiseLink_keeps (s : State) (g : LinkErrors → LinkErrors) : KeepsBut [.notices] s (raiseLink g s) := by
  intro f hf; cases f <;> first | rfl | simp at hf

@[simp] theorem raiseHostBack_memory (s : State) : (raiseHostBack s).memory = s.memory := rfl
@[simp] theorem raiseHostBack_stories (s : State) : (raiseHostBack s).stories = s.stories := rfl
@[simp] theorem raiseHostBack_pressure (s : State) : (raiseHostBack s).pressure = s.pressure := rfl
@[simp] theorem raiseHostBack_desks (s : State) : (raiseHostBack s).desks = s.desks := rfl
@[simp] theorem raiseHostBack_slots (s : State) : (raiseHostBack s).slots = s.slots := rfl
@[simp] theorem raiseHostBack_baskets (s : State) : (raiseHostBack s).baskets = s.baskets := rfl
@[simp] theorem raiseHostBack_clock (s : State) : (raiseHostBack s).clock = s.clock := rfl
@[simp] theorem raiseHostBack_editions (s : State) : (raiseHostBack s).editions = s.editions := rfl
@[simp] theorem raiseHostBack_lines (s : State) : (raiseHostBack s).lines = s.lines := rfl
@[simp] theorem raiseHostBack_keys (s : State) : (raiseHostBack s).keys = s.keys := rfl
@[simp] theorem raiseHostBack_screens (s : State) : (raiseHostBack s).screens = s.screens := rfl
@[simp] theorem raiseHostBack_panes (s : State) : (raiseHostBack s).panes = s.panes := rfl
@[simp] theorem raiseHostBack_faces (s : State) : (raiseHostBack s).faces = s.faces := rfl
@[simp] theorem raiseHostBack_fit (s : State) : (raiseHostBack s).fit = s.fit := rfl
@[simp] theorem raiseHostBack_lastJob (s : State) : (raiseHostBack s).lastJob = s.lastJob := rfl
@[simp] theorem raiseHostBack_channels (s : State) : (raiseHostBack s).channels = s.channels := rfl
@[simp] theorem raiseHostBack_engine (s : State) : (raiseHostBack s).engine = s.engine := rfl
@[simp] theorem raiseHostBack_wires (s : State) : (raiseHostBack s).wires = s.wires := rfl
@[simp] theorem raiseHostBack_selection (s : State) : (raiseHostBack s).selection = s.selection := rfl
@[simp] theorem raiseHostBack_reserve (s : State) : (raiseHostBack s).reserve = s.reserve := rfl
@[simp] theorem raiseHostBack_link (s : State) : (raiseHostBack s).link = s.link := rfl
@[simp] theorem raiseHostBack_now (s : State) : (raiseHostBack s).now = s.now := rfl
@[simp] theorem raiseHostBack_pending (s : State) : (raiseHostBack s).pending = s.pending := rfl

theorem raiseHostBack_keeps (s : State) : KeepsBut [.notices] s (raiseHostBack s) := by
  intro f hf; cases f <;> first | rfl | simp at hf

@[simp] theorem raisePool_memory (s : State) (c : PoolCond) : (raisePool c s).memory = s.memory := rfl
@[simp] theorem raisePool_stories (s : State) (c : PoolCond) : (raisePool c s).stories = s.stories := rfl
@[simp] theorem raisePool_pressure (s : State) (c : PoolCond) : (raisePool c s).pressure = s.pressure := rfl
@[simp] theorem raisePool_desks (s : State) (c : PoolCond) : (raisePool c s).desks = s.desks := rfl
@[simp] theorem raisePool_slots (s : State) (c : PoolCond) : (raisePool c s).slots = s.slots := rfl
@[simp] theorem raisePool_baskets (s : State) (c : PoolCond) : (raisePool c s).baskets = s.baskets := rfl
@[simp] theorem raisePool_clock (s : State) (c : PoolCond) : (raisePool c s).clock = s.clock := rfl
@[simp] theorem raisePool_editions (s : State) (c : PoolCond) : (raisePool c s).editions = s.editions := rfl
@[simp] theorem raisePool_lines (s : State) (c : PoolCond) : (raisePool c s).lines = s.lines := rfl
@[simp] theorem raisePool_keys (s : State) (c : PoolCond) : (raisePool c s).keys = s.keys := rfl
@[simp] theorem raisePool_screens (s : State) (c : PoolCond) : (raisePool c s).screens = s.screens := rfl
@[simp] theorem raisePool_panes (s : State) (c : PoolCond) : (raisePool c s).panes = s.panes := rfl
@[simp] theorem raisePool_faces (s : State) (c : PoolCond) : (raisePool c s).faces = s.faces := rfl
@[simp] theorem raisePool_fit (s : State) (c : PoolCond) : (raisePool c s).fit = s.fit := rfl
@[simp] theorem raisePool_lastJob (s : State) (c : PoolCond) : (raisePool c s).lastJob = s.lastJob := rfl
@[simp] theorem raisePool_channels (s : State) (c : PoolCond) : (raisePool c s).channels = s.channels := rfl
@[simp] theorem raisePool_engine (s : State) (c : PoolCond) : (raisePool c s).engine = s.engine := rfl
@[simp] theorem raisePool_wires (s : State) (c : PoolCond) : (raisePool c s).wires = s.wires := rfl
@[simp] theorem raisePool_selection (s : State) (c : PoolCond) : (raisePool c s).selection = s.selection := rfl
@[simp] theorem raisePool_reserve (s : State) (c : PoolCond) : (raisePool c s).reserve = s.reserve := rfl
@[simp] theorem raisePool_link (s : State) (c : PoolCond) : (raisePool c s).link = s.link := rfl
@[simp] theorem raisePool_now (s : State) (c : PoolCond) : (raisePool c s).now = s.now := rfl
@[simp] theorem raisePool_pending (s : State) (c : PoolCond) : (raisePool c s).pending = s.pending := rfl

theorem raisePool_keeps (s : State) (c : PoolCond) : KeepsBut [.notices] s (raisePool c s) := by
  intro f hf; cases f <;> first | rfl | simp at hf

@[simp] theorem poolPressed_memory (s : State) (c : PoolCond) : (poolPressed c s).memory = s.memory := rfl
@[simp] theorem poolPressed_stories (s : State) (c : PoolCond) : (poolPressed c s).stories = s.stories := rfl
@[simp] theorem poolPressed_desks (s : State) (c : PoolCond) : (poolPressed c s).desks = s.desks := rfl
@[simp] theorem poolPressed_slots (s : State) (c : PoolCond) : (poolPressed c s).slots = s.slots := rfl
@[simp] theorem poolPressed_baskets (s : State) (c : PoolCond) : (poolPressed c s).baskets = s.baskets := rfl
@[simp] theorem poolPressed_clock (s : State) (c : PoolCond) : (poolPressed c s).clock = s.clock := rfl
@[simp] theorem poolPressed_editions (s : State) (c : PoolCond) : (poolPressed c s).editions = s.editions := rfl
@[simp] theorem poolPressed_lines (s : State) (c : PoolCond) : (poolPressed c s).lines = s.lines := rfl
@[simp] theorem poolPressed_keys (s : State) (c : PoolCond) : (poolPressed c s).keys = s.keys := rfl
@[simp] theorem poolPressed_screens (s : State) (c : PoolCond) : (poolPressed c s).screens = s.screens := rfl
@[simp] theorem poolPressed_panes (s : State) (c : PoolCond) : (poolPressed c s).panes = s.panes := rfl
@[simp] theorem poolPressed_faces (s : State) (c : PoolCond) : (poolPressed c s).faces = s.faces := rfl
@[simp] theorem poolPressed_fit (s : State) (c : PoolCond) : (poolPressed c s).fit = s.fit := rfl
@[simp] theorem poolPressed_lastJob (s : State) (c : PoolCond) : (poolPressed c s).lastJob = s.lastJob := rfl
@[simp] theorem poolPressed_channels (s : State) (c : PoolCond) : (poolPressed c s).channels = s.channels := rfl
@[simp] theorem poolPressed_engine (s : State) (c : PoolCond) : (poolPressed c s).engine = s.engine := rfl
@[simp] theorem poolPressed_wires (s : State) (c : PoolCond) : (poolPressed c s).wires = s.wires := rfl
@[simp] theorem poolPressed_selection (s : State) (c : PoolCond) : (poolPressed c s).selection = s.selection := rfl
@[simp] theorem poolPressed_reserve (s : State) (c : PoolCond) : (poolPressed c s).reserve = s.reserve := rfl
@[simp] theorem poolPressed_link (s : State) (c : PoolCond) : (poolPressed c s).link = s.link := rfl
@[simp] theorem poolPressed_now (s : State) (c : PoolCond) : (poolPressed c s).now = s.now := rfl
@[simp] theorem poolPressed_pending (s : State) (c : PoolCond) : (poolPressed c s).pending = s.pending := rfl

theorem poolPressed_keeps (s : State) (c : PoolCond) : KeepsBut [.notices, .pressure] s (poolPressed c s) := by
  intro f hf; cases f <;> first | rfl | simp at hf

@[simp] theorem raiseTerminal_memory (s : State) (t : Fin 32) (g : TermEvents → TermEvents) : (raiseTerminal t g s).memory = s.memory := rfl
@[simp] theorem raiseTerminal_stories (s : State) (t : Fin 32) (g : TermEvents → TermEvents) : (raiseTerminal t g s).stories = s.stories := rfl
@[simp] theorem raiseTerminal_pressure (s : State) (t : Fin 32) (g : TermEvents → TermEvents) : (raiseTerminal t g s).pressure = s.pressure := rfl
@[simp] theorem raiseTerminal_desks (s : State) (t : Fin 32) (g : TermEvents → TermEvents) : (raiseTerminal t g s).desks = s.desks := rfl
@[simp] theorem raiseTerminal_slots (s : State) (t : Fin 32) (g : TermEvents → TermEvents) : (raiseTerminal t g s).slots = s.slots := rfl
@[simp] theorem raiseTerminal_baskets (s : State) (t : Fin 32) (g : TermEvents → TermEvents) : (raiseTerminal t g s).baskets = s.baskets := rfl
@[simp] theorem raiseTerminal_clock (s : State) (t : Fin 32) (g : TermEvents → TermEvents) : (raiseTerminal t g s).clock = s.clock := rfl
@[simp] theorem raiseTerminal_editions (s : State) (t : Fin 32) (g : TermEvents → TermEvents) : (raiseTerminal t g s).editions = s.editions := rfl
@[simp] theorem raiseTerminal_lines (s : State) (t : Fin 32) (g : TermEvents → TermEvents) : (raiseTerminal t g s).lines = s.lines := rfl
@[simp] theorem raiseTerminal_keys (s : State) (t : Fin 32) (g : TermEvents → TermEvents) : (raiseTerminal t g s).keys = s.keys := rfl
@[simp] theorem raiseTerminal_screens (s : State) (t : Fin 32) (g : TermEvents → TermEvents) : (raiseTerminal t g s).screens = s.screens := rfl
@[simp] theorem raiseTerminal_panes (s : State) (t : Fin 32) (g : TermEvents → TermEvents) : (raiseTerminal t g s).panes = s.panes := rfl
@[simp] theorem raiseTerminal_faces (s : State) (t : Fin 32) (g : TermEvents → TermEvents) : (raiseTerminal t g s).faces = s.faces := rfl
@[simp] theorem raiseTerminal_fit (s : State) (t : Fin 32) (g : TermEvents → TermEvents) : (raiseTerminal t g s).fit = s.fit := rfl
@[simp] theorem raiseTerminal_lastJob (s : State) (t : Fin 32) (g : TermEvents → TermEvents) : (raiseTerminal t g s).lastJob = s.lastJob := rfl
@[simp] theorem raiseTerminal_channels (s : State) (t : Fin 32) (g : TermEvents → TermEvents) : (raiseTerminal t g s).channels = s.channels := rfl
@[simp] theorem raiseTerminal_engine (s : State) (t : Fin 32) (g : TermEvents → TermEvents) : (raiseTerminal t g s).engine = s.engine := rfl
@[simp] theorem raiseTerminal_wires (s : State) (t : Fin 32) (g : TermEvents → TermEvents) : (raiseTerminal t g s).wires = s.wires := rfl
@[simp] theorem raiseTerminal_selection (s : State) (t : Fin 32) (g : TermEvents → TermEvents) : (raiseTerminal t g s).selection = s.selection := rfl
@[simp] theorem raiseTerminal_reserve (s : State) (t : Fin 32) (g : TermEvents → TermEvents) : (raiseTerminal t g s).reserve = s.reserve := rfl
@[simp] theorem raiseTerminal_link (s : State) (t : Fin 32) (g : TermEvents → TermEvents) : (raiseTerminal t g s).link = s.link := rfl
@[simp] theorem raiseTerminal_now (s : State) (t : Fin 32) (g : TermEvents → TermEvents) : (raiseTerminal t g s).now = s.now := rfl
@[simp] theorem raiseTerminal_pending (s : State) (t : Fin 32) (g : TermEvents → TermEvents) : (raiseTerminal t g s).pending = s.pending := rfl

theorem raiseTerminal_keeps (s : State) (t : Fin 32) (g : TermEvents → TermEvents) : KeepsBut [.notices] s (raiseTerminal t g s) := by
  intro f hf; cases f <;> first | rfl | simp at hf

@[simp] theorem raiseWire_memory (s : State) (w : Fin 4) (g : WireSummary → WireSummary) : (raiseWire w g s).memory = s.memory := rfl
@[simp] theorem raiseWire_stories (s : State) (w : Fin 4) (g : WireSummary → WireSummary) : (raiseWire w g s).stories = s.stories := rfl
@[simp] theorem raiseWire_pressure (s : State) (w : Fin 4) (g : WireSummary → WireSummary) : (raiseWire w g s).pressure = s.pressure := rfl
@[simp] theorem raiseWire_desks (s : State) (w : Fin 4) (g : WireSummary → WireSummary) : (raiseWire w g s).desks = s.desks := rfl
@[simp] theorem raiseWire_slots (s : State) (w : Fin 4) (g : WireSummary → WireSummary) : (raiseWire w g s).slots = s.slots := rfl
@[simp] theorem raiseWire_baskets (s : State) (w : Fin 4) (g : WireSummary → WireSummary) : (raiseWire w g s).baskets = s.baskets := rfl
@[simp] theorem raiseWire_clock (s : State) (w : Fin 4) (g : WireSummary → WireSummary) : (raiseWire w g s).clock = s.clock := rfl
@[simp] theorem raiseWire_editions (s : State) (w : Fin 4) (g : WireSummary → WireSummary) : (raiseWire w g s).editions = s.editions := rfl
@[simp] theorem raiseWire_lines (s : State) (w : Fin 4) (g : WireSummary → WireSummary) : (raiseWire w g s).lines = s.lines := rfl
@[simp] theorem raiseWire_keys (s : State) (w : Fin 4) (g : WireSummary → WireSummary) : (raiseWire w g s).keys = s.keys := rfl
@[simp] theorem raiseWire_screens (s : State) (w : Fin 4) (g : WireSummary → WireSummary) : (raiseWire w g s).screens = s.screens := rfl
@[simp] theorem raiseWire_panes (s : State) (w : Fin 4) (g : WireSummary → WireSummary) : (raiseWire w g s).panes = s.panes := rfl
@[simp] theorem raiseWire_faces (s : State) (w : Fin 4) (g : WireSummary → WireSummary) : (raiseWire w g s).faces = s.faces := rfl
@[simp] theorem raiseWire_fit (s : State) (w : Fin 4) (g : WireSummary → WireSummary) : (raiseWire w g s).fit = s.fit := rfl
@[simp] theorem raiseWire_lastJob (s : State) (w : Fin 4) (g : WireSummary → WireSummary) : (raiseWire w g s).lastJob = s.lastJob := rfl
@[simp] theorem raiseWire_channels (s : State) (w : Fin 4) (g : WireSummary → WireSummary) : (raiseWire w g s).channels = s.channels := rfl
@[simp] theorem raiseWire_engine (s : State) (w : Fin 4) (g : WireSummary → WireSummary) : (raiseWire w g s).engine = s.engine := rfl
@[simp] theorem raiseWire_wires (s : State) (w : Fin 4) (g : WireSummary → WireSummary) : (raiseWire w g s).wires = s.wires := rfl
@[simp] theorem raiseWire_selection (s : State) (w : Fin 4) (g : WireSummary → WireSummary) : (raiseWire w g s).selection = s.selection := rfl
@[simp] theorem raiseWire_reserve (s : State) (w : Fin 4) (g : WireSummary → WireSummary) : (raiseWire w g s).reserve = s.reserve := rfl
@[simp] theorem raiseWire_link (s : State) (w : Fin 4) (g : WireSummary → WireSummary) : (raiseWire w g s).link = s.link := rfl
@[simp] theorem raiseWire_now (s : State) (w : Fin 4) (g : WireSummary → WireSummary) : (raiseWire w g s).now = s.now := rfl
@[simp] theorem raiseWire_pending (s : State) (w : Fin 4) (g : WireSummary → WireSummary) : (raiseWire w g s).pending = s.pending := rfl

theorem raiseWire_keeps (s : State) (w : Fin 4) (g : WireSummary → WireSummary) : KeepsBut [.notices] s (raiseWire w g s) := by
  intro f hf; cases f <;> first | rfl | simp at hf

@[simp] theorem withdrawKeys_memory (s : State) : (withdrawKeys s).memory = s.memory := rfl
@[simp] theorem withdrawKeys_stories (s : State) : (withdrawKeys s).stories = s.stories := rfl
@[simp] theorem withdrawKeys_pressure (s : State) : (withdrawKeys s).pressure = s.pressure := rfl
@[simp] theorem withdrawKeys_desks (s : State) : (withdrawKeys s).desks = s.desks := rfl
@[simp] theorem withdrawKeys_slots (s : State) : (withdrawKeys s).slots = s.slots := rfl
@[simp] theorem withdrawKeys_baskets (s : State) : (withdrawKeys s).baskets = s.baskets := rfl
@[simp] theorem withdrawKeys_clock (s : State) : (withdrawKeys s).clock = s.clock := rfl
@[simp] theorem withdrawKeys_editions (s : State) : (withdrawKeys s).editions = s.editions := rfl
@[simp] theorem withdrawKeys_lines (s : State) : (withdrawKeys s).lines = s.lines := rfl
@[simp] theorem withdrawKeys_keys (s : State) : (withdrawKeys s).keys = s.keys := rfl
@[simp] theorem withdrawKeys_screens (s : State) : (withdrawKeys s).screens = s.screens := rfl
@[simp] theorem withdrawKeys_panes (s : State) : (withdrawKeys s).panes = s.panes := rfl
@[simp] theorem withdrawKeys_faces (s : State) : (withdrawKeys s).faces = s.faces := rfl
@[simp] theorem withdrawKeys_fit (s : State) : (withdrawKeys s).fit = s.fit := rfl
@[simp] theorem withdrawKeys_lastJob (s : State) : (withdrawKeys s).lastJob = s.lastJob := rfl
@[simp] theorem withdrawKeys_channels (s : State) : (withdrawKeys s).channels = s.channels := rfl
@[simp] theorem withdrawKeys_engine (s : State) : (withdrawKeys s).engine = s.engine := rfl
@[simp] theorem withdrawKeys_wires (s : State) : (withdrawKeys s).wires = s.wires := rfl
@[simp] theorem withdrawKeys_selection (s : State) : (withdrawKeys s).selection = s.selection := rfl
@[simp] theorem withdrawKeys_reserve (s : State) : (withdrawKeys s).reserve = s.reserve := rfl
@[simp] theorem withdrawKeys_link (s : State) : (withdrawKeys s).link = s.link := rfl
@[simp] theorem withdrawKeys_now (s : State) : (withdrawKeys s).now = s.now := rfl
@[simp] theorem withdrawKeys_pending (s : State) : (withdrawKeys s).pending = s.pending := rfl

theorem withdrawKeys_keeps (s : State) : KeepsBut [.notices] s (withdrawKeys s) := by
  intro f hf; cases f <;> first | rfl | simp at hf

@[simp] theorem dropFromFitList_memory (s : State) (id : Nat) : (dropFromFitList id s).memory = s.memory := rfl
@[simp] theorem dropFromFitList_stories (s : State) (id : Nat) : (dropFromFitList id s).stories = s.stories := rfl
@[simp] theorem dropFromFitList_pressure (s : State) (id : Nat) : (dropFromFitList id s).pressure = s.pressure := rfl
@[simp] theorem dropFromFitList_desks (s : State) (id : Nat) : (dropFromFitList id s).desks = s.desks := rfl
@[simp] theorem dropFromFitList_slots (s : State) (id : Nat) : (dropFromFitList id s).slots = s.slots := rfl
@[simp] theorem dropFromFitList_baskets (s : State) (id : Nat) : (dropFromFitList id s).baskets = s.baskets := rfl
@[simp] theorem dropFromFitList_clock (s : State) (id : Nat) : (dropFromFitList id s).clock = s.clock := rfl
@[simp] theorem dropFromFitList_editions (s : State) (id : Nat) : (dropFromFitList id s).editions = s.editions := rfl
@[simp] theorem dropFromFitList_lines (s : State) (id : Nat) : (dropFromFitList id s).lines = s.lines := rfl
@[simp] theorem dropFromFitList_keys (s : State) (id : Nat) : (dropFromFitList id s).keys = s.keys := rfl
@[simp] theorem dropFromFitList_screens (s : State) (id : Nat) : (dropFromFitList id s).screens = s.screens := rfl
@[simp] theorem dropFromFitList_panes (s : State) (id : Nat) : (dropFromFitList id s).panes = s.panes := rfl
@[simp] theorem dropFromFitList_faces (s : State) (id : Nat) : (dropFromFitList id s).faces = s.faces := rfl
@[simp] theorem dropFromFitList_lastJob (s : State) (id : Nat) : (dropFromFitList id s).lastJob = s.lastJob := rfl
@[simp] theorem dropFromFitList_channels (s : State) (id : Nat) : (dropFromFitList id s).channels = s.channels := rfl
@[simp] theorem dropFromFitList_engine (s : State) (id : Nat) : (dropFromFitList id s).engine = s.engine := rfl
@[simp] theorem dropFromFitList_wires (s : State) (id : Nat) : (dropFromFitList id s).wires = s.wires := rfl
@[simp] theorem dropFromFitList_selection (s : State) (id : Nat) : (dropFromFitList id s).selection = s.selection := rfl
@[simp] theorem dropFromFitList_reserve (s : State) (id : Nat) : (dropFromFitList id s).reserve = s.reserve := rfl
@[simp] theorem dropFromFitList_notices (s : State) (id : Nat) : (dropFromFitList id s).notices = s.notices := rfl
@[simp] theorem dropFromFitList_link (s : State) (id : Nat) : (dropFromFitList id s).link = s.link := rfl
@[simp] theorem dropFromFitList_now (s : State) (id : Nat) : (dropFromFitList id s).now = s.now := rfl
@[simp] theorem dropFromFitList_pending (s : State) (id : Nat) : (dropFromFitList id s).pending = s.pending := rfl

theorem dropFromFitList_keeps (s : State) (id : Nat) : KeepsBut [.fit] s (dropFromFitList id s) := by
  intro f hf; cases f <;> first | rfl | simp at hf

@[simp] theorem setProgress_memory (s : State) (p : Option FitProgress) : (setProgress p s).memory = s.memory := rfl
@[simp] theorem setProgress_stories (s : State) (p : Option FitProgress) : (setProgress p s).stories = s.stories := rfl
@[simp] theorem setProgress_pressure (s : State) (p : Option FitProgress) : (setProgress p s).pressure = s.pressure := rfl
@[simp] theorem setProgress_desks (s : State) (p : Option FitProgress) : (setProgress p s).desks = s.desks := rfl
@[simp] theorem setProgress_slots (s : State) (p : Option FitProgress) : (setProgress p s).slots = s.slots := rfl
@[simp] theorem setProgress_baskets (s : State) (p : Option FitProgress) : (setProgress p s).baskets = s.baskets := rfl
@[simp] theorem setProgress_clock (s : State) (p : Option FitProgress) : (setProgress p s).clock = s.clock := rfl
@[simp] theorem setProgress_editions (s : State) (p : Option FitProgress) : (setProgress p s).editions = s.editions := rfl
@[simp] theorem setProgress_lines (s : State) (p : Option FitProgress) : (setProgress p s).lines = s.lines := rfl
@[simp] theorem setProgress_keys (s : State) (p : Option FitProgress) : (setProgress p s).keys = s.keys := rfl
@[simp] theorem setProgress_screens (s : State) (p : Option FitProgress) : (setProgress p s).screens = s.screens := rfl
@[simp] theorem setProgress_panes (s : State) (p : Option FitProgress) : (setProgress p s).panes = s.panes := rfl
@[simp] theorem setProgress_faces (s : State) (p : Option FitProgress) : (setProgress p s).faces = s.faces := rfl
@[simp] theorem setProgress_lastJob (s : State) (p : Option FitProgress) : (setProgress p s).lastJob = s.lastJob := rfl
@[simp] theorem setProgress_channels (s : State) (p : Option FitProgress) : (setProgress p s).channels = s.channels := rfl
@[simp] theorem setProgress_engine (s : State) (p : Option FitProgress) : (setProgress p s).engine = s.engine := rfl
@[simp] theorem setProgress_wires (s : State) (p : Option FitProgress) : (setProgress p s).wires = s.wires := rfl
@[simp] theorem setProgress_selection (s : State) (p : Option FitProgress) : (setProgress p s).selection = s.selection := rfl
@[simp] theorem setProgress_reserve (s : State) (p : Option FitProgress) : (setProgress p s).reserve = s.reserve := rfl
@[simp] theorem setProgress_notices (s : State) (p : Option FitProgress) : (setProgress p s).notices = s.notices := rfl
@[simp] theorem setProgress_link (s : State) (p : Option FitProgress) : (setProgress p s).link = s.link := rfl
@[simp] theorem setProgress_now (s : State) (p : Option FitProgress) : (setProgress p s).now = s.now := rfl
@[simp] theorem setProgress_pending (s : State) (p : Option FitProgress) : (setProgress p s).pending = s.pending := rfl

theorem setProgress_keeps (s : State) (p : Option FitProgress) : KeepsBut [.fit] s (setProgress p s) := by
  intro f hf; cases f <;> first | rfl | simp at hf

@[simp] theorem freeEngine_memory (s : State) : (freeEngine s).memory = s.memory := rfl
@[simp] theorem freeEngine_stories (s : State) : (freeEngine s).stories = s.stories := rfl
@[simp] theorem freeEngine_pressure (s : State) : (freeEngine s).pressure = s.pressure := rfl
@[simp] theorem freeEngine_desks (s : State) : (freeEngine s).desks = s.desks := rfl
@[simp] theorem freeEngine_slots (s : State) : (freeEngine s).slots = s.slots := rfl
@[simp] theorem freeEngine_baskets (s : State) : (freeEngine s).baskets = s.baskets := rfl
@[simp] theorem freeEngine_clock (s : State) : (freeEngine s).clock = s.clock := rfl
@[simp] theorem freeEngine_editions (s : State) : (freeEngine s).editions = s.editions := rfl
@[simp] theorem freeEngine_lines (s : State) : (freeEngine s).lines = s.lines := rfl
@[simp] theorem freeEngine_keys (s : State) : (freeEngine s).keys = s.keys := rfl
@[simp] theorem freeEngine_screens (s : State) : (freeEngine s).screens = s.screens := rfl
@[simp] theorem freeEngine_panes (s : State) : (freeEngine s).panes = s.panes := rfl
@[simp] theorem freeEngine_faces (s : State) : (freeEngine s).faces = s.faces := rfl
@[simp] theorem freeEngine_fit (s : State) : (freeEngine s).fit = s.fit := rfl
@[simp] theorem freeEngine_lastJob (s : State) : (freeEngine s).lastJob = s.lastJob := rfl
@[simp] theorem freeEngine_channels (s : State) : (freeEngine s).channels = s.channels := rfl
@[simp] theorem freeEngine_wires (s : State) : (freeEngine s).wires = s.wires := rfl
@[simp] theorem freeEngine_selection (s : State) : (freeEngine s).selection = s.selection := rfl
@[simp] theorem freeEngine_reserve (s : State) : (freeEngine s).reserve = s.reserve := rfl
@[simp] theorem freeEngine_notices (s : State) : (freeEngine s).notices = s.notices := rfl
@[simp] theorem freeEngine_link (s : State) : (freeEngine s).link = s.link := rfl
@[simp] theorem freeEngine_now (s : State) : (freeEngine s).now = s.now := rfl
@[simp] theorem freeEngine_pending (s : State) : (freeEngine s).pending = s.pending := rfl

theorem freeEngine_keeps (s : State) : KeepsBut [.engine] s (freeEngine s) := by
  intro f hf; cases f <;> first | rfl | simp at hf

@[simp] theorem dropHead_memory (s : State) : (dropHead s).memory = s.memory := rfl
@[simp] theorem dropHead_stories (s : State) : (dropHead s).stories = s.stories := rfl
@[simp] theorem dropHead_pressure (s : State) : (dropHead s).pressure = s.pressure := rfl
@[simp] theorem dropHead_desks (s : State) : (dropHead s).desks = s.desks := rfl
@[simp] theorem dropHead_slots (s : State) : (dropHead s).slots = s.slots := rfl
@[simp] theorem dropHead_baskets (s : State) : (dropHead s).baskets = s.baskets := rfl
@[simp] theorem dropHead_clock (s : State) : (dropHead s).clock = s.clock := rfl
@[simp] theorem dropHead_editions (s : State) : (dropHead s).editions = s.editions := rfl
@[simp] theorem dropHead_lines (s : State) : (dropHead s).lines = s.lines := rfl
@[simp] theorem dropHead_keys (s : State) : (dropHead s).keys = s.keys := rfl
@[simp] theorem dropHead_screens (s : State) : (dropHead s).screens = s.screens := rfl
@[simp] theorem dropHead_panes (s : State) : (dropHead s).panes = s.panes := rfl
@[simp] theorem dropHead_faces (s : State) : (dropHead s).faces = s.faces := rfl
@[simp] theorem dropHead_fit (s : State) : (dropHead s).fit = s.fit := rfl
@[simp] theorem dropHead_lastJob (s : State) : (dropHead s).lastJob = s.lastJob := rfl
@[simp] theorem dropHead_channels (s : State) : (dropHead s).channels = s.channels := rfl
@[simp] theorem dropHead_engine (s : State) : (dropHead s).engine = s.engine := rfl
@[simp] theorem dropHead_wires (s : State) : (dropHead s).wires = s.wires := rfl
@[simp] theorem dropHead_selection (s : State) : (dropHead s).selection = s.selection := rfl
@[simp] theorem dropHead_reserve (s : State) : (dropHead s).reserve = s.reserve := rfl
@[simp] theorem dropHead_notices (s : State) : (dropHead s).notices = s.notices := rfl
@[simp] theorem dropHead_now (s : State) : (dropHead s).now = s.now := rfl
@[simp] theorem dropHead_pending (s : State) : (dropHead s).pending = s.pending := rfl

theorem dropHead_keeps (s : State) : KeepsBut [.link] s (dropHead s) := by
  intro f hf; cases f <;> first | rfl | simp at hf

@[simp] theorem setReceiver_memory (s : State) (r : Receiver) : (setReceiver r s).memory = s.memory := rfl
@[simp] theorem setReceiver_stories (s : State) (r : Receiver) : (setReceiver r s).stories = s.stories := rfl
@[simp] theorem setReceiver_pressure (s : State) (r : Receiver) : (setReceiver r s).pressure = s.pressure := rfl
@[simp] theorem setReceiver_desks (s : State) (r : Receiver) : (setReceiver r s).desks = s.desks := rfl
@[simp] theorem setReceiver_slots (s : State) (r : Receiver) : (setReceiver r s).slots = s.slots := rfl
@[simp] theorem setReceiver_baskets (s : State) (r : Receiver) : (setReceiver r s).baskets = s.baskets := rfl
@[simp] theorem setReceiver_clock (s : State) (r : Receiver) : (setReceiver r s).clock = s.clock := rfl
@[simp] theorem setReceiver_editions (s : State) (r : Receiver) : (setReceiver r s).editions = s.editions := rfl
@[simp] theorem setReceiver_lines (s : State) (r : Receiver) : (setReceiver r s).lines = s.lines := rfl
@[simp] theorem setReceiver_keys (s : State) (r : Receiver) : (setReceiver r s).keys = s.keys := rfl
@[simp] theorem setReceiver_screens (s : State) (r : Receiver) : (setReceiver r s).screens = s.screens := rfl
@[simp] theorem setReceiver_panes (s : State) (r : Receiver) : (setReceiver r s).panes = s.panes := rfl
@[simp] theorem setReceiver_faces (s : State) (r : Receiver) : (setReceiver r s).faces = s.faces := rfl
@[simp] theorem setReceiver_fit (s : State) (r : Receiver) : (setReceiver r s).fit = s.fit := rfl
@[simp] theorem setReceiver_lastJob (s : State) (r : Receiver) : (setReceiver r s).lastJob = s.lastJob := rfl
@[simp] theorem setReceiver_channels (s : State) (r : Receiver) : (setReceiver r s).channels = s.channels := rfl
@[simp] theorem setReceiver_engine (s : State) (r : Receiver) : (setReceiver r s).engine = s.engine := rfl
@[simp] theorem setReceiver_wires (s : State) (r : Receiver) : (setReceiver r s).wires = s.wires := rfl
@[simp] theorem setReceiver_selection (s : State) (r : Receiver) : (setReceiver r s).selection = s.selection := rfl
@[simp] theorem setReceiver_reserve (s : State) (r : Receiver) : (setReceiver r s).reserve = s.reserve := rfl
@[simp] theorem setReceiver_notices (s : State) (r : Receiver) : (setReceiver r s).notices = s.notices := rfl
@[simp] theorem setReceiver_now (s : State) (r : Receiver) : (setReceiver r s).now = s.now := rfl
@[simp] theorem setReceiver_pending (s : State) (r : Receiver) : (setReceiver r s).pending = s.pending := rfl

theorem setReceiver_keeps (s : State) (r : Receiver) : KeepsBut [.link] s (setReceiver r s) := by
  intro f hf; cases f <;> first | rfl | simp at hf

@[simp] theorem restartWatch_memory (s : State) : (restartWatch s).memory = s.memory := rfl
@[simp] theorem restartWatch_stories (s : State) : (restartWatch s).stories = s.stories := rfl
@[simp] theorem restartWatch_pressure (s : State) : (restartWatch s).pressure = s.pressure := rfl
@[simp] theorem restartWatch_desks (s : State) : (restartWatch s).desks = s.desks := rfl
@[simp] theorem restartWatch_slots (s : State) : (restartWatch s).slots = s.slots := rfl
@[simp] theorem restartWatch_baskets (s : State) : (restartWatch s).baskets = s.baskets := rfl
@[simp] theorem restartWatch_clock (s : State) : (restartWatch s).clock = s.clock := rfl
@[simp] theorem restartWatch_editions (s : State) : (restartWatch s).editions = s.editions := rfl
@[simp] theorem restartWatch_lines (s : State) : (restartWatch s).lines = s.lines := rfl
@[simp] theorem restartWatch_keys (s : State) : (restartWatch s).keys = s.keys := rfl
@[simp] theorem restartWatch_screens (s : State) : (restartWatch s).screens = s.screens := rfl
@[simp] theorem restartWatch_panes (s : State) : (restartWatch s).panes = s.panes := rfl
@[simp] theorem restartWatch_faces (s : State) : (restartWatch s).faces = s.faces := rfl
@[simp] theorem restartWatch_fit (s : State) : (restartWatch s).fit = s.fit := rfl
@[simp] theorem restartWatch_lastJob (s : State) : (restartWatch s).lastJob = s.lastJob := rfl
@[simp] theorem restartWatch_channels (s : State) : (restartWatch s).channels = s.channels := rfl
@[simp] theorem restartWatch_engine (s : State) : (restartWatch s).engine = s.engine := rfl
@[simp] theorem restartWatch_wires (s : State) : (restartWatch s).wires = s.wires := rfl
@[simp] theorem restartWatch_selection (s : State) : (restartWatch s).selection = s.selection := rfl
@[simp] theorem restartWatch_reserve (s : State) : (restartWatch s).reserve = s.reserve := rfl
@[simp] theorem restartWatch_notices (s : State) : (restartWatch s).notices = s.notices := rfl
@[simp] theorem restartWatch_now (s : State) : (restartWatch s).now = s.now := rfl
@[simp] theorem restartWatch_pending (s : State) : (restartWatch s).pending = s.pending := rfl

theorem restartWatch_keeps (s : State) : KeepsBut [.link] s (restartWatch s) := by
  intro f hf; cases f <;> first | rfl | simp at hf

@[simp] theorem advanceTo_memory (s : State) (n : Nat) : (advanceTo n s).memory = s.memory := rfl
@[simp] theorem advanceTo_stories (s : State) (n : Nat) : (advanceTo n s).stories = s.stories := rfl
@[simp] theorem advanceTo_pressure (s : State) (n : Nat) : (advanceTo n s).pressure = s.pressure := rfl
@[simp] theorem advanceTo_desks (s : State) (n : Nat) : (advanceTo n s).desks = s.desks := rfl
@[simp] theorem advanceTo_slots (s : State) (n : Nat) : (advanceTo n s).slots = s.slots := rfl
@[simp] theorem advanceTo_baskets (s : State) (n : Nat) : (advanceTo n s).baskets = s.baskets := rfl
@[simp] theorem advanceTo_clock (s : State) (n : Nat) : (advanceTo n s).clock = s.clock := rfl
@[simp] theorem advanceTo_editions (s : State) (n : Nat) : (advanceTo n s).editions = s.editions := rfl
@[simp] theorem advanceTo_lines (s : State) (n : Nat) : (advanceTo n s).lines = s.lines := rfl
@[simp] theorem advanceTo_keys (s : State) (n : Nat) : (advanceTo n s).keys = s.keys := rfl
@[simp] theorem advanceTo_screens (s : State) (n : Nat) : (advanceTo n s).screens = s.screens := rfl
@[simp] theorem advanceTo_panes (s : State) (n : Nat) : (advanceTo n s).panes = s.panes := rfl
@[simp] theorem advanceTo_faces (s : State) (n : Nat) : (advanceTo n s).faces = s.faces := rfl
@[simp] theorem advanceTo_fit (s : State) (n : Nat) : (advanceTo n s).fit = s.fit := rfl
@[simp] theorem advanceTo_lastJob (s : State) (n : Nat) : (advanceTo n s).lastJob = s.lastJob := rfl
@[simp] theorem advanceTo_channels (s : State) (n : Nat) : (advanceTo n s).channels = s.channels := rfl
@[simp] theorem advanceTo_engine (s : State) (n : Nat) : (advanceTo n s).engine = s.engine := rfl
@[simp] theorem advanceTo_wires (s : State) (n : Nat) : (advanceTo n s).wires = s.wires := rfl
@[simp] theorem advanceTo_selection (s : State) (n : Nat) : (advanceTo n s).selection = s.selection := rfl
@[simp] theorem advanceTo_reserve (s : State) (n : Nat) : (advanceTo n s).reserve = s.reserve := rfl
@[simp] theorem advanceTo_notices (s : State) (n : Nat) : (advanceTo n s).notices = s.notices := rfl
@[simp] theorem advanceTo_link (s : State) (n : Nat) : (advanceTo n s).link = s.link := rfl
@[simp] theorem advanceTo_pending (s : State) (n : Nat) : (advanceTo n s).pending = s.pending := rfl

theorem advanceTo_keeps (s : State) (n : Nat) : KeepsBut [.now] s (advanceTo n s) := by
  intro f hf; cases f <;> first | rfl | simp at hf

@[simp] theorem moveAll_memory (s : State) : (moveAll s).memory = s.memory := rfl
@[simp] theorem moveAll_stories (s : State) : (moveAll s).stories = s.stories := rfl
@[simp] theorem moveAll_pressure (s : State) : (moveAll s).pressure = s.pressure := rfl
@[simp] theorem moveAll_desks (s : State) : (moveAll s).desks = s.desks := rfl
@[simp] theorem moveAll_slots (s : State) : (moveAll s).slots = s.slots := rfl
@[simp] theorem moveAll_baskets (s : State) : (moveAll s).baskets = s.baskets := rfl
@[simp] theorem moveAll_clock (s : State) : (moveAll s).clock = s.clock := rfl
@[simp] theorem moveAll_editions (s : State) : (moveAll s).editions = s.editions := rfl
@[simp] theorem moveAll_lines (s : State) : (moveAll s).lines = s.lines := rfl
@[simp] theorem moveAll_keys (s : State) : (moveAll s).keys = s.keys := rfl
@[simp] theorem moveAll_screens (s : State) : (moveAll s).screens = s.screens := rfl
@[simp] theorem moveAll_panes (s : State) : (moveAll s).panes = s.panes := rfl
@[simp] theorem moveAll_faces (s : State) : (moveAll s).faces = s.faces := rfl
@[simp] theorem moveAll_fit (s : State) : (moveAll s).fit = s.fit := rfl
@[simp] theorem moveAll_lastJob (s : State) : (moveAll s).lastJob = s.lastJob := rfl
@[simp] theorem moveAll_engine (s : State) : (moveAll s).engine = s.engine := rfl
@[simp] theorem moveAll_wires (s : State) : (moveAll s).wires = s.wires := rfl
@[simp] theorem moveAll_selection (s : State) : (moveAll s).selection = s.selection := rfl
@[simp] theorem moveAll_reserve (s : State) : (moveAll s).reserve = s.reserve := rfl
@[simp] theorem moveAll_notices (s : State) : (moveAll s).notices = s.notices := rfl
@[simp] theorem moveAll_link (s : State) : (moveAll s).link = s.link := rfl
@[simp] theorem moveAll_now (s : State) : (moveAll s).now = s.now := rfl
@[simp] theorem moveAll_pending (s : State) : (moveAll s).pending = s.pending := rfl

theorem moveAll_keeps (s : State) : KeepsBut [.channels] s (moveAll s) := by
  intro f hf; cases f <;> first | rfl | simp at hf

@[simp] theorem refreshAll_memory (s : State) : (refreshAll s).memory = s.memory := by simp only [refreshAll]
@[simp] theorem refreshAll_stories (s : State) : (refreshAll s).stories = s.stories := by simp only [refreshAll]
@[simp] theorem refreshAll_pressure (s : State) : (refreshAll s).pressure = s.pressure := by simp only [refreshAll]
@[simp] theorem refreshAll_desks (s : State) : (refreshAll s).desks = s.desks := by simp only [refreshAll]
@[simp] theorem refreshAll_slots (s : State) : (refreshAll s).slots = s.slots := by simp only [refreshAll]
@[simp] theorem refreshAll_baskets (s : State) : (refreshAll s).baskets = s.baskets := by simp only [refreshAll]
@[simp] theorem refreshAll_clock (s : State) : (refreshAll s).clock = s.clock := by simp only [refreshAll]
@[simp] theorem refreshAll_editions (s : State) : (refreshAll s).editions = s.editions := by simp only [refreshAll]
@[simp] theorem refreshAll_keys (s : State) : (refreshAll s).keys = s.keys := by simp only [refreshAll]
@[simp] theorem refreshAll_panes (s : State) : (refreshAll s).panes = s.panes := by simp only [refreshAll]
@[simp] theorem refreshAll_faces (s : State) : (refreshAll s).faces = s.faces := by simp only [refreshAll]
@[simp] theorem refreshAll_fit (s : State) : (refreshAll s).fit = s.fit := by simp only [refreshAll]
@[simp] theorem refreshAll_lastJob (s : State) : (refreshAll s).lastJob = s.lastJob := by simp only [refreshAll]
@[simp] theorem refreshAll_channels (s : State) : (refreshAll s).channels = s.channels := by simp only [refreshAll]
@[simp] theorem refreshAll_engine (s : State) : (refreshAll s).engine = s.engine := by simp only [refreshAll]
@[simp] theorem refreshAll_wires (s : State) : (refreshAll s).wires = s.wires := by simp only [refreshAll]
@[simp] theorem refreshAll_selection (s : State) : (refreshAll s).selection = s.selection := by simp only [refreshAll]
@[simp] theorem refreshAll_reserve (s : State) : (refreshAll s).reserve = s.reserve := by simp only [refreshAll]
@[simp] theorem refreshAll_notices (s : State) : (refreshAll s).notices = s.notices := by simp only [refreshAll]
@[simp] theorem refreshAll_link (s : State) : (refreshAll s).link = s.link := by simp only [refreshAll]
@[simp] theorem refreshAll_now (s : State) : (refreshAll s).now = s.now := by simp only [refreshAll]
@[simp] theorem refreshAll_pending (s : State) : (refreshAll s).pending = s.pending := by simp only [refreshAll]

theorem refreshAll_keeps (s : State) : KeepsBut [.screens, .lines] s (refreshAll s) := by
  intro f hf; cases f <;> simp [Field.same] at hf ⊢

@[simp] theorem deliver_memory (s : State) (d : Fin 16) (m : Message) : (deliver d m s).memory = s.memory := by simp only [deliver]
@[simp] theorem deliver_stories (s : State) (d : Fin 16) (m : Message) : (deliver d m s).stories = s.stories := by simp only [deliver]
@[simp] theorem deliver_pressure (s : State) (d : Fin 16) (m : Message) : (deliver d m s).pressure = s.pressure := by simp only [deliver]
@[simp] theorem deliver_desks (s : State) (d : Fin 16) (m : Message) : (deliver d m s).desks = s.desks := by simp only [deliver]
@[simp] theorem deliver_baskets (s : State) (d : Fin 16) (m : Message) : (deliver d m s).baskets = s.baskets := by simp only [deliver]
@[simp] theorem deliver_clock (s : State) (d : Fin 16) (m : Message) : (deliver d m s).clock = s.clock := by simp only [deliver]
@[simp] theorem deliver_editions (s : State) (d : Fin 16) (m : Message) : (deliver d m s).editions = s.editions := by simp only [deliver]
@[simp] theorem deliver_lines (s : State) (d : Fin 16) (m : Message) : (deliver d m s).lines = s.lines := by simp only [deliver]
@[simp] theorem deliver_keys (s : State) (d : Fin 16) (m : Message) : (deliver d m s).keys = s.keys := by simp only [deliver]
@[simp] theorem deliver_screens (s : State) (d : Fin 16) (m : Message) : (deliver d m s).screens = s.screens := by simp only [deliver]
@[simp] theorem deliver_panes (s : State) (d : Fin 16) (m : Message) : (deliver d m s).panes = s.panes := by simp only [deliver]
@[simp] theorem deliver_faces (s : State) (d : Fin 16) (m : Message) : (deliver d m s).faces = s.faces := by simp only [deliver]
@[simp] theorem deliver_fit (s : State) (d : Fin 16) (m : Message) : (deliver d m s).fit = s.fit := by simp only [deliver]
@[simp] theorem deliver_lastJob (s : State) (d : Fin 16) (m : Message) : (deliver d m s).lastJob = s.lastJob := by simp only [deliver]
@[simp] theorem deliver_channels (s : State) (d : Fin 16) (m : Message) : (deliver d m s).channels = s.channels := by simp only [deliver]
@[simp] theorem deliver_engine (s : State) (d : Fin 16) (m : Message) : (deliver d m s).engine = s.engine := by simp only [deliver]
@[simp] theorem deliver_wires (s : State) (d : Fin 16) (m : Message) : (deliver d m s).wires = s.wires := by simp only [deliver]
@[simp] theorem deliver_selection (s : State) (d : Fin 16) (m : Message) : (deliver d m s).selection = s.selection := by simp only [deliver]
@[simp] theorem deliver_reserve (s : State) (d : Fin 16) (m : Message) : (deliver d m s).reserve = s.reserve := by simp only [deliver]
@[simp] theorem deliver_notices (s : State) (d : Fin 16) (m : Message) : (deliver d m s).notices = s.notices := by simp only [deliver]
@[simp] theorem deliver_link (s : State) (d : Fin 16) (m : Message) : (deliver d m s).link = s.link := by simp only [deliver]
@[simp] theorem deliver_now (s : State) (d : Fin 16) (m : Message) : (deliver d m s).now = s.now := by simp only [deliver]
@[simp] theorem deliver_pending (s : State) (d : Fin 16) (m : Message) : (deliver d m s).pending = s.pending := by simp only [deliver]

theorem deliver_keeps (s : State) (d : Fin 16) (m : Message) : KeepsBut [.slots] s (deliver d m s) := by
  intro f hf; cases f <;> simp [Field.same] at hf ⊢

end Sys2Proof.Machine
end

