-- ==== Sys2Proof/Laws/Ops.lean ====
section
/-! SUPPORT. The frame of every shared operation: which fields of State it may change; and what the pane operations, the recovery test and the emptied outputs do, in the words of the statements. A prover cites these in place of unfolding an operation. -/

namespace Sys2Proof.Machine

/-! ### Putting frames together -/

/-- A frame before a further update whose fields are among those listed. -/
theorem KeepsBut.step {as fs : List Field} {s t u : State} (h : KeepsBut as t u) (hs : as ⊆ fs)
    (k : KeepsBut fs s t) : KeepsBut fs s u := k.trans (h.mono hs)

/-- Whichever branch is taken, the frame holds. -/
theorem KeepsBut.ite {fs : List Field} {c : Prop} [Decidable c] {s t u : State}
    (h : KeepsBut fs s t) (k : KeepsBut fs s u) : KeepsBut fs s (if c then t else u) := by
  split
  · exact h
  · exact k

/-- A fold whose every step keeps a frame keeps it. -/
theorem KeepsBut.foldl {α : Type} {fs : List Field} (g : State → α → State)
    (h : ∀ s a, KeepsBut fs s (g s a)) (l : List α) (s : State) : KeepsBut fs s (l.foldl g s) := by
  induction l generalizing s with
  | nil => exact KeepsBut.refl _ _
  | cons a l ih => exact (h s a).trans (ih _)

/-- What is done for each terminal keeps a frame that each doing keeps. -/
theorem forTerminals_keeps {fs : List Field} (g : Fin 32 → State → State)
    (h : ∀ t s, KeepsBut fs s (g t s)) (s : State) : KeepsBut fs s (forTerminals g s) :=
  KeepsBut.foldl _ (fun s t => h t s) _ s

/-- The update of a single field keeps all others. -/
theorem keeps_memory (s : State) (x : Memory) : KeepsBut [.memory] s { s with memory := x } := by
  intro f hf; cases f <;> first | rfl | simp at hf
theorem keeps_stories (s : State) (x : Tab Story) : KeepsBut [.stories] s { s with stories := x } := by
  intro f hf; cases f <;> first | rfl | simp at hf
theorem keeps_copy (s : State) (m : Memory) (x : Tab Story) :
    KeepsBut [.memory, .stories] s { s with memory := m, stories := x } := by
  intro f hf; cases f <;> first | rfl | simp at hf
theorem keeps_pressure (s : State) (x : Bool) : KeepsBut [.pressure] s { s with pressure := x } := by
  intro f hf; cases f <;> first | rfl | simp at hf
theorem keeps_desks (s : State) (x : Vector Desk 16) : KeepsBut [.desks] s { s with desks := x } := by
  intro f hf; cases f <;> first | rfl | simp at hf
theorem keeps_clock (s : State) (x : Clock) : KeepsBut [.clock] s { s with clock := x } := by
  intro f hf; cases f <;> first | rfl | simp at hf
theorem keeps_keys (s : State) (x : List KeyReport) : KeepsBut [.keys] s { s with keys := x } := by
  intro f hf; cases f <;> first | rfl | simp at hf
theorem keeps_panes (s : State) (x : Vector Panes 32) : KeepsBut [.panes] s { s with panes := x } := by
  intro f hf; cases f <;> first | rfl | simp at hf
theorem keeps_faces (s : State) (x : Vector Face 8) : KeepsBut [.faces] s { s with faces := x } := by
  intro f hf; cases f <;> first | rfl | simp at hf
theorem keeps_facesStories (s : State) (x : Vector Face 8) (y : Tab Story) :
    KeepsBut [.faces, .stories] s { s with faces := x, stories := y } := by
  intro f hf; cases f <;> first | rfl | simp at hf
theorem keeps_fit (s : State) (x : FitQueue) : KeepsBut [.fit] s { s with fit := x } := by
  intro f hf; cases f <;> first | rfl | simp at hf
theorem keeps_lastJob (s : State) (x : Nat) : KeepsBut [.lastJob] s { s with lastJob := x } := by
  intro f hf; cases f <;> first | rfl | simp at hf
theorem keeps_engine (s : State) (x : Engine) : KeepsBut [.engine] s { s with engine := x } := by
  intro f hf; cases f <;> first | rfl | simp at hf
theorem keeps_selection (s : State) (x : Vector (Option SelEntry) 32) :
    KeepsBut [.selection] s { s with selection := x } := by
  intro f hf; cases f <;> first | rfl | simp at hf
theorem keeps_reserve (s : State) (x : Nat) : KeepsBut [.reserve] s { s with reserve := x } := by
  intro f hf; cases f <;> first | rfl | simp at hf
theorem keeps_notices (s : State) (x : Notices) : KeepsBut [.notices] s { s with notices := x } := by
  intro f hf; cases f <;> first | rfl | simp at hf
theorem keeps_link (s : State) (x : Link) : KeepsBut [.link] s { s with link := x } := by
  intro f hf; cases f <;> first | rfl | simp at hf
theorem keeps_linkNotices (s : State) (x : Link) (n : Notices) :
    KeepsBut [.link, .notices] s { s with link := x, notices := n } := by
  intro f hf; cases f <;> first | rfl | simp at hf
theorem keeps_now (s : State) (x : Nat) : KeepsBut [.now] s { s with now := x } := by
  intro f hf; cases f <;> first | rfl | simp at hf
theorem keeps_pending (s : State) (x : List Instr) : KeepsBut [.pending] s { s with pending := x } := by
  intro f hf; cases f <;> first | rfl | simp at hf

/-! ### Stories, screens, the Fit Queue (Ops.lean) -/

theorem modStory_keeps (id : Nat) (g : Story → Story) (s : State) :
    KeepsBut [.stories] s (modStory id g s) := by
  unfold modStory; split
  · exact KeepsBut.refl _ _
  · exact setStory_keeps _ _ _

theorem bell_keeps (t : Fin 32) (s : State) : KeepsBut [.screens] s (bell t s) := modScreen_keeps _ _ _
theorem repaint_keeps (t : Fin 32) (s : State) : KeepsBut [.screens] s (repaint t s) :=
  modScreen_keeps _ _ _
theorem markAll_keeps (t : Fin 32) (s : State) : KeepsBut [.screens] s (markAll t s) :=
  modScreen_keeps _ _ _
theorem flashAlert_keeps (x : List Byte) (t : Fin 32) (s : State) :
    KeepsBut [.screens] s (flashAlert x t s) := modScreen_keeps _ _ _
theorem setFitStatus_keeps (id : Nat) (x : FitStatus) (s : State) :
    KeepsBut [.stories] s (setFitStatus id x s) := modStory_keeps _ _ _
theorem release_keeps (id : Nat) (s : State) : KeepsBut [.stories] s (release id s) :=
  modStory_keeps _ _ _
theorem claim_keeps (id : Nat) (h : Holding) (s : State) : KeepsBut [.stories] s (claim id h s) :=
  modStory_keeps _ _ _

theorem joinFitQueue_keeps (id : Nat) (s : State) :
    KeepsBut [.stories, .fit] s (joinFitQueue id s) :=
  (setFitStatus_keeps _ _ _).step (by decide) ((keeps_fit _ _).mono (by decide))

theorem autoOffer_keeps (id : Nat) (s : State) : KeepsBut [.stories, .fit] s (autoOffer id s) := by
  unfold autoOffer
  split
  · exact KeepsBut.refl _ _
  · refine KeepsBut.ite (KeepsBut.refl _ _) (KeepsBut.ite (KeepsBut.refl _ _) (KeepsBut.ite ?_ ?_))
    · exact joinFitQueue_keeps _ _
    · exact (setStory_keeps _ _ _).mono (by decide)

theorem recoveryTest_keeps (s : State) : KeepsBut [.notices, .pressure] s (recoveryTest s) := by
  unfold recoveryTest
  exact KeepsBut.ite
    ((keeps_pressure _ _).step (by decide) ((raisePool_keeps _ _).mono (by decide)))
    (KeepsBut.refl _ _)

/-- What the recovery test does after a rise, in the words of the statements (R8). -/
theorem recoveryTest_poolTested (s : State) : PoolTested true s (recoveryTest s) := by
  unfold PoolTested recoveryTest
  cases hp : s.pressure <;> by_cases hr : s.reserve < Memory.freeCount s.memory <;>
    simp [hp, hr, raisePool, Notices.setPending]

/-- Without a rise nothing is tested: an operation that keeps pressure and notices leaves them so (R8). -/
theorem PoolTested.of_keeps {fs : List Field} {s u : State} (h : KeepsBut fs s u)
    (hp : Field.pressure ∉ fs) (hn : Field.notices ∉ fs) : PoolTested false s u := by
  have p : u.pressure = s.pressure := h _ hp
  have n : u.notices = s.notices := h _ hn
  unfold PoolTested
  rw [p, n]
  refine ⟨?_, fun _ => ⟨rfl, rfl, rfl⟩⟩
  intro x
  cases x

/-- A byte that is cut off is finished (R151). -/
theorem OutTx.cutOff_finished (o : OutTx) : ByteFinished o o.cutOff := by cases o <;> rfl

/-- Emptying the output finishes a byte being sent (R151). -/
theorem emptyOutput_finished (ch : Channel) : ByteFinished ch.sending ch.emptyOutput.sending :=
  ch.sending.cutOff_finished

/-- What is being sent when every block starts afresh is finished (R151). -/
theorem bytesBegun_finished (s : State) (c : Fin 4) : ByteFinished s.channels[c].sending (bytesBegun s c) :=
  OutTx.cutOff_finished _

theorem keepRefTops_keeps (id : Nat) (move : Nat → Nat) (s : State) :
    KeepsBut [.panes] s (keepRefTops id move s) := keeps_panes _ _

/-- What keepRefTops does, in the words of the statements (R104, R114). -/
theorem keepRefTops_refTopsFollow (id : Nat) (move : Nat → Nat) (s : State) (st : Story)
    (h : storyOf s id = some st) :
    RefTopsFollow s (keepRefTops id move s) id (textOf s st) move := by
  intro x
  show (Vector.ofFn fun t => keepRefTop s id move s.panes[t])[x].ref = _
  simp only [Fin.getElem_fin, Vector.getElem_ofFn, keepRefTop, h]
  cases hr : s.panes[x.val].ref with
  | none => simp [hr]
  | some r => by_cases hs : r.story = id <;> simp [hs, hr, refWidth]

theorem keepSessionTop_keeps (t : Fin 32) (move : Nat → Nat) (s : State) :
    KeepsBut [.panes] s (keepSessionTop t move s) := modPanes_keeps _ _ _

theorem deleteAt_keeps (id k : Nat) (s : State) :
    KeepsBut [.stories, .memory, .notices, .pressure] s (deleteAt id k s) := by
  unfold deleteAt; split
  · exact KeepsBut.refl _ _
  · exact KeepsBut.ite
      ((recoveryTest_keeps _).step (by decide) ((setText_keeps _ _ _ _ _).mono (by decide)))
      ((setText_keeps _ _ _ _ _).mono (by decide))

theorem insertAt_keeps (id k : Nat) (c : Byte) (s : State) :
    KeepsBut [.stories, .memory] s (insertAt id k c s) := by
  unfold insertAt
  split
  · exact KeepsBut.refl _ _
  · split
    · exact setText_keeps _ _ _ _ _
    · exact KeepsBut.refl _ _
    · exact KeepsBut.refl _ _

theorem deleteMany_keeps (id k n : Nat) (s : State) :
    KeepsBut [.stories, .memory, .notices, .pressure] s (deleteMany id k n s) := by
  induction n generalizing s with
  | zero => exact KeepsBut.refl _ _
  | succ n ih => exact (deleteAt_keeps id k s).trans (ih _)

theorem insertMany_keeps (id : Nat) (cs : List Byte) (k : Nat) (s : State) :
    KeepsBut [.stories, .memory] s (insertMany id k cs s) := by
  induction cs generalizing k s with
  | nil => exact KeepsBut.refl _ _
  | cons c cs ih => exact (insertAt_keeps id k c s).trans (ih _ _)

/-! ### Panes and baskets -/

theorem clearRef_keeps (t : Fin 32) (s : State) : KeepsBut [.panes] s (clearRef t s) :=
  modPanes_keeps _ _ _

theorem closeSession_keeps (t : Fin 32) (offer : Bool) (s : State) :
    KeepsBut [.stories, .fit, .panes] s (closeSession t offer s) := by
  unfold closeSession; split
  · exact KeepsBut.refl _ _
  · refine (modPanes_keeps _ _ _).step (by decide) (KeepsBut.ite ?_ ?_)
    · exact (autoOffer_keeps _ _).step (by decide) ((release_keeps _ _).mono (by decide))
    · exact (release_keeps _ _).mono (by decide)

theorem closePanes_keeps (t : Fin 32) (s : State) :
    KeepsBut [.stories, .fit, .panes] s (closePanes t s) :=
  (clearRef_keeps t _).step (by decide) (closeSession_keeps t true s)

theorem recheck_keeps (only : Option Nat) (t : Fin 32) (s : State) :
    KeepsBut [.stories, .fit, .panes, .notices] s (recheck only t s) := by
  have h : KeepsBut [.stories, .fit, .panes, .notices] s
      (if sessionFails s t only then
        raiseTerminal t TermEvents.addWindowClosed (closeSession t true s) else s) :=
    KeepsBut.ite
      ((raiseTerminal_keeps _ _ _).step (by decide) ((closeSession_keeps _ _ _).mono (by decide)))
      (KeepsBut.refl _ _)
  exact KeepsBut.ite
    ((raiseTerminal_keeps _ _ _).step (by decide) ((clearRef_keeps _ _).step (by decide) h)) h

theorem recheckWhere_keeps (p : State → Fin 32 → Bool) (only : Option Nat) (s : State) :
    KeepsBut [.stories, .fit, .panes, .notices] s (recheckWhere p only s) :=
  forTerminals_keeps _ (fun _ _ => KeepsBut.ite (recheck_keeps _ _ _) (KeepsBut.refl _ _)) s

theorem joinBasket_keeps (b : Fin 64) (id : Nat) (s : State) :
    KeepsBut [.baskets] s (joinBasket b id s) := modBasket_keeps _ _ _
theorem leaveBasket_keeps (b : Fin 64) (id : Nat) (s : State) :
    KeepsBut [.baskets] s (leaveBasket b id s) := modBasket_keeps _ _ _
theorem createStory_keeps (id : Nat) (st : Story) (s : State) :
    KeepsBut [.baskets, .stories] s (createStory id st s) :=
  (joinBasket_keeps _ _ _).step (by decide) ((setStory_keeps _ _ _).mono (by decide))

theorem passageTest_keeps (e : Fin 4) (s : State) :
    KeepsBut [.editions, .notices] s (passageTest e s) := by
  unfold passageTest
  exact KeepsBut.ite
    ((raiseSource_keeps _ _).step (by decide) ((modEdition_keeps _ _ _).mono (by decide)))
    (KeepsBut.refl _ _)

theorem passageTests_keeps (s : State) : KeepsBut [.editions, .notices] s (passageTests s) :=
  KeepsBut.foldl _ (fun s e => passageTest_keeps e s) _ s

/-! ### Channels and the arbiter (Output.lean) -/

theorem recordHead_keeps (o : JobOutcome) (a : AbandonMark) (c : Fin 4) (s : State) :
    KeepsBut [.channels, .notices] s (recordHead o a c s) := by
  unfold recordHead; split
  · exact KeepsBut.refl _ _
  · exact (raiseSource_keeps _ _).step (by decide) ((modChannel_keeps _ _ _).mono (by decide))

theorem reach_keeps (c : Fin 4) (n i : Nat) (s : State) :
    KeepsBut [.channels, .stories] s (reach c n i s) := by
  induction n generalizing i s with
  | zero => exact (modChannel_keeps _ _ _).mono (by decide)
  | succ n ih =>
    unfold reach; split
    · exact (modChannel_keeps _ _ _).mono (by decide)
    · refine KeepsBut.ite (ih _ _) (KeepsBut.ite ?_ ((modChannel_keeps _ _ _).mono (by decide)))
      exact ((modChannel_keeps _ _ _).step (by decide)
        ((release_keeps _ _).mono (by decide))).trans (ih _ _)

theorem startHead_keeps (c : Fin 4) (n : Nat) (s : State) :
    KeepsBut [.channels, .stories, .notices] s (startHead c n s) := by
  induction n generalizing s with
  | zero => exact KeepsBut.refl _ _
  | succ n ih =>
    unfold startHead; split
    · exact (modChannel_keeps _ _ _).mono (by decide)
    · have h := fun i k => (reach_keeps c i k (modChannel c (fun ch => { ch with state := .running }) s)).step
        (fs := [.channels, .stories, .notices]) (by decide) ((modChannel_keeps s c _).mono (by decide))
      exact KeepsBut.ite (((recordHead_keeps _ _ _ _).step (by decide) (h _ _)).trans (ih _)) (h _ _)

theorem endJob_keeps (o : JobOutcome) (a : AbandonMark) (c : Fin 4) (s : State) :
    KeepsBut [.channels, .stories, .notices] s (endJob o a c s) :=
  ((recordHead_keeps _ _ _ _).mono (by decide)).trans (startHead_keeps _ _ _)

theorem releaseSent_keeps (c : Fin 4) (id : Nat) (s : State) :
    KeepsBut [.channels, .stories, .notices, .memory] s (releaseSent c id s) := by
  unfold releaseSent; split
  · exact KeepsBut.refl _ _
  · have h : ∀ g m, KeepsBut [.channels, .stories, .notices, .memory] s
        (modChannel c g (release id { s with memory := m })) := fun g m =>
      (modChannel_keeps _ _ _).step (by decide)
        ((release_keeps _ _).step (by decide) ((keeps_memory _ _).mono (by decide)))
    exact KeepsBut.ite ((endJob_keeps _ _ _ _).step (by decide) (h _ _)) (h _ _)

theorem stall_keeps (c : Fin 4) (s : State) :
    KeepsBut [.channels, .stories, .notices] s (stall c s) := by
  unfold stall; split
  · exact (raiseSource_keeps _ _).step (by decide) ((modChannel_keeps _ _ _).mono (by decide))
  · exact ((modChannel_keeps _ _ _).mono (by decide)).trans (endJob_keeps _ _ _ _)
  · exact KeepsBut.refl _ _

theorem grantEngine_keeps (s : State) : KeepsBut [.engine, .channels, .fit] s (grantEngine s) := by
  unfold grantEngine; split
  · exact KeepsBut.refl _ _
  · intro f hf; cases f <;> first | rfl | simp at hf

theorem takeLines_keeps (c : Fin 4) (s : State) : KeepsBut [.channels, .stories] s (takeLines c s) := by
  unfold takeLines; split
  · exact KeepsBut.refl _ _
  · split
    · exact KeepsBut.refl _ _
    · split
      · exact KeepsBut.refl _ _
      · dsimp only
        split
        · exact (modChannel_keeps _ _ _).step (by decide) ((modChannel_keeps _ _ _).mono (by decide))
        · exact ((modChannel_keeps _ _ _).mono (by decide)).trans (reach_keeps _ _ _ _)

/-! ### The end of an event and orders (Settle.lean) -/

theorem transmit_keeps (s : State) : KeepsBut [.link, .notices] s (transmit s) := by
  unfold transmit; split
  · exact KeepsBut.refl _ _
  · split
    · exact (keeps_link _ _).mono (by decide)
    · refine KeepsBut.ite ?_ (KeepsBut.refl _ _)
      split
      · exact KeepsBut.refl _ _
      · exact keeps_linkNotices _ _ _

theorem settle_keeps (s : State) :
    KeepsBut [.channels, .engine, .fit, .screens, .lines, .link, .notices] s (settle s) :=
  (transmit_keeps _).step (by decide) ((refreshAll_keeps _).step (by decide)
    ((grantEngine_keeps _).step (by decide) ((moveAll_keeps s).mono (by decide))))

@[simp] theorem settle_memory (s : State) : (settle s).memory = s.memory := settle_keeps s .memory (by decide)
@[simp] theorem settle_stories (s : State) : (settle s).stories = s.stories := settle_keeps s .stories (by decide)
@[simp] theorem settle_pressure (s : State) : (settle s).pressure = s.pressure := settle_keeps s .pressure (by decide)
@[simp] theorem settle_desks (s : State) : (settle s).desks = s.desks := settle_keeps s .desks (by decide)
@[simp] theorem settle_slots (s : State) : (settle s).slots = s.slots := settle_keeps s .slots (by decide)
@[simp] theorem settle_baskets (s : State) : (settle s).baskets = s.baskets := settle_keeps s .baskets (by decide)
@[simp] theorem settle_clock (s : State) : (settle s).clock = s.clock := settle_keeps s .clock (by decide)
@[simp] theorem settle_editions (s : State) : (settle s).editions = s.editions := settle_keeps s .editions (by decide)
@[simp] theorem settle_keys (s : State) : (settle s).keys = s.keys := settle_keeps s .keys (by decide)
@[simp] theorem settle_panes (s : State) : (settle s).panes = s.panes := settle_keeps s .panes (by decide)
@[simp] theorem settle_faces (s : State) : (settle s).faces = s.faces := settle_keeps s .faces (by decide)
@[simp] theorem settle_lastJob (s : State) : (settle s).lastJob = s.lastJob := settle_keeps s .lastJob (by decide)
@[simp] theorem settle_wires (s : State) : (settle s).wires = s.wires := settle_keeps s .wires (by decide)
@[simp] theorem settle_selection (s : State) : (settle s).selection = s.selection := settle_keeps s .selection (by decide)
@[simp] theorem settle_reserve (s : State) : (settle s).reserve = s.reserve := settle_keeps s .reserve (by decide)
@[simp] theorem settle_now (s : State) : (settle s).now = s.now := settle_keeps s .now (by decide)
@[simp] theorem settle_pending (s : State) : (settle s).pending = s.pending := settle_keeps s .pending (by decide)

theorem offerFrame_keeps (f : Frame) (s : State) : KeepsBut [.link, .notices] s (offerFrame f s) := by
  unfold offerFrame
  exact KeepsBut.ite ((keeps_link _ _).mono (by decide)) ((raiseLink_keeps _ _).mono (by decide))

theorem answer_keeps (kind tag : Byte) (s : State) (a : Answer) {fs : List Field}
    (h : KeepsBut fs s a.1) : KeepsBut (.link :: fs) s (answer kind tag a) :=
  (keeps_link _ _).step (by simp) (h.mono (List.subset_cons_self _ _))

/-- An order that is taken in hand when it comes runs what it runs. -/
theorem withOrder_takes {f : Frame} {s : State} (h : Takes f s) (act : State → State) :
    withOrder f act s = act s := by
  obtain ⟨h1, h2, h3⟩ := h
  have hr : orderReady s = true := by simp [orderReady, h1, h2]
  have ha : atHead f s = true := by
    rcases h3 with h3 | h3
    · simp [atHead, h3]
    · unfold atHead
      cases hi : s.link.inbound with
      | nil => rfl
      | cons g gs => rw [hi] at h3; simpa using h3
  simp [withOrder, hr, ha]

/-- An order in hand whose fixed fields are present is answered by its owner. -/
theorem takeOrder_takes {kind tag : Byte} {body : List Byte} {s : State} {need : Nat}
    {own : List Byte → State → Answer} (h : Takes ⟨kind, tag, body⟩ s) (hn : need ≤ body.length) :
    takeOrder kind need own tag body s = settle (answer kind tag (own body (dropHead s))) := by
  unfold takeOrder
  rw [withOrder_takes h, if_neg (by omega)]

/-- An order in hand whose body is shorter than its fixed fields is answered MALFORMED. -/
theorem takeOrder_short {kind tag : Byte} {body : List Byte} {s : State} {need : Nat}
    {own : List Byte → State → Answer} (h : Takes ⟨kind, tag, body⟩ s) (hn : body.length < need) :
    takeOrder kind need own tag body s =
      settle (answer kind tag (refuse .malformed (dropHead s))) := by
  unfold takeOrder
  rw [withOrder_takes h, if_pos hn]

/-- An owner's answer that leaves the link alone is an answered order. -/
theorem answeredBy_answer {kind tag : Byte} {fs : List Field} {s t : State} {r : Reply}
    (h : KeepsBut fs (dropHead s) t) (hl : Field.link ∉ fs) :
    AnsweredBy kind tag r fs s (answer kind tag (t, r)) := by
  have hlink : t.link = (dropHead s).link := h .link hl
  refine ⟨?_, ?_⟩
  · simp [answer, answeredLink, hlink, dropHead]
  · exact (answer_keeps kind tag _ (t, r) h).step (fun _ h => h)
      ((dropHead_keeps s).mono (by simp))

end Sys2Proof.Machine
end

