-- ==== Sys2Proof/Laws/Commands.lean ====
section
/-! SUPPORT. The frame of what each command does before the end of its event: which fields of State it may change. -/

namespace Sys2Proof.Machine

/-! ### Copy orders, desks, clock -/

theorem writeText_keeps (id off del : Nat) (text : List Byte) (s : State) :
    KeepsBut [.stories, .memory, .notices, .pressure, .panes] s (writeText id off del text s) := by
  unfold writeText
  refine KeepsBut.ite (KeepsBut.refl _ _) ?_
  exact (keepRefTops_keeps _ _ _).step (by decide) ((modStory_keeps _ _ _).step (by decide)
    ((insertMany_keeps _ _ _ _).step (by decide) ((deleteMany_keeps _ _ _ _).mono (by decide))))

theorem spikeFit_keeps (id : Nat) (s : State) : KeepsBut [.fit] s (spikeFit id s) := by
  unfold spikeFit
  exact KeepsBut.ite ((keeps_fit _ _).step (by decide) (dropFromFitList_keeps _ _))
    (dropFromFitList_keeps _ _)

theorem spikePanes_keeps (id : Nat) (s : State) : KeepsBut [.panes, .notices] s (spikePanes id s) :=
  forTerminals_keeps _ (fun _ _ => KeepsBut.ite
    ((raiseTerminal_keeps _ _ _).step (by decide) ((clearRef_keeps _ _).mono (by decide)))
    (KeepsBut.refl _ _)) s

theorem spike_keeps (id : Nat) (st : Story) (s : State) :
    KeepsBut [.memory, .stories, .notices, .pressure, .baskets, .fit, .panes] s (spike id st s) := by
  unfold spike
  refine (spikePanes_keeps _ _).step (by decide) ((spikeFit_keeps _ _).step (by decide)
    ((leaveBasket_keeps _ _ _).step (by decide) (KeepsBut.ite ?_ ?_)))
  · exact (keeps_copy _ _ _).mono (by decide)
  · exact (recoveryTest_keeps _).step (by decide) ((keeps_copy _ _ _).mono (by decide))

theorem moveTo_keeps (id : Nat) (a b : Fin 64) (s : State) :
    KeepsBut [.stories, .baskets, .fit, .panes, .notices] s (moveTo id a b s) :=
  (recheckWhere_keeps _ _ _).step (by decide) ((joinBasket_keeps _ _ _).step (by decide)
    ((modStory_keeps _ _ _).step (by decide) ((leaveBasket_keeps _ _ _).mono (by decide))))

theorem tick_keeps (s : State) : KeepsBut [.clock, .editions, .notices, .now] s (tick s) :=
  (passageTests_keeps _).step (by decide)
    ((keeps_clock _ _).step (by decide) ((advanceTo_keeps s _).mono (by decide)))

/-! ### Keys -/

theorem modSession_keeps (t : Fin 32) (g : Session → Session) (s : State) :
    KeepsBut [.panes] s (modSession t g s) := modPanes_keeps _ _ _

theorem withEdit_keeps {fs : List Field} (t : Fin 32) (s : State) (k : Session → Story → State)
    (hb : Field.screens ∈ fs) (h : ∀ e st, KeepsBut fs s (k e st)) :
    KeepsBut fs s (withEdit t s k) := by
  have hbell : KeepsBut fs s (bell t s) := (bell_keeps t s).mono (by simpa using hb)
  unfold withEdit; split
  · exact hbell
  · split
    · exact h _ _
    · exact hbell

theorem textEffects_keeps (t : Fin 32) (id k : Nat) (move : Nat → Nat) (s : State) :
    KeepsBut [.stories, .panes] s (textEffects t id k move s) :=
  (keepRefTops_keeps _ _ _).step (by decide) ((keepSessionTop_keeps _ _ _).step (by decide)
    ((modSession_keeps _ _ _).step (by decide) ((modStory_keeps _ _ _).mono (by decide))))

theorem insertKey_keeps (t : Fin 32) (c : Byte) (e : Session) (st : Story) (s : State) :
    KeepsBut [.stories, .panes, .memory, .screens, .notices, .pressure] s (insertKey t c e st s) := by
  unfold insertKey; split
  · exact (textEffects_keeps _ _ _ _ _).step (by decide) ((setText_keeps _ _ _ _ _).mono (by decide))
  · exact (bell_keeps _ _).mono (by decide)
  · exact (poolPressed_keeps _ _).step (by decide) ((bell_keeps _ _).mono (by decide))

theorem editText_keeps (t : Fin 32) (c : Byte) (s : State) :
    KeepsBut [.stories, .panes, .memory, .screens, .notices, .pressure] s (editText t c s) := by
  refine withEdit_keeps t s _ (by decide) fun e st => KeepsBut.ite ?_ (insertKey_keeps _ _ _ _ _)
  exact (textEffects_keeps _ _ _ _ _).step (by decide) ((keeps_memory _ _).mono (by decide))

theorem editParagraph_keeps (t : Fin 32) (s : State) :
    KeepsBut [.stories, .panes, .memory, .screens, .notices, .pressure] s (editParagraph t s) :=
  withEdit_keeps t s _ (by decide) fun _ _ => insertKey_keeps _ _ _ _ _

theorem deleteKey_keeps (t : Fin 32) (e : Session) (k : Nat) (s : State) :
    KeepsBut [.stories, .panes, .memory, .screens, .notices, .pressure] s (deleteKey t e k s) :=
  (textEffects_keeps _ _ _ _ _).step (by decide) ((deleteAt_keeps _ _ _).mono (by decide))

theorem editDeleteBack_keeps (t : Fin 32) (s : State) :
    KeepsBut [.stories, .panes, .memory, .screens, .notices, .pressure] s (editDeleteBack t s) :=
  withEdit_keeps t s _ (by decide) fun _ _ =>
    KeepsBut.ite ((bell_keeps _ _).mono (by decide)) (deleteKey_keeps _ _ _ _)

theorem editDeleteForward_keeps (t : Fin 32) (s : State) :
    KeepsBut [.stories, .panes, .memory, .screens, .notices, .pressure] s (editDeleteForward t s) :=
  withEdit_keeps t s _ (by decide) fun _ _ =>
    KeepsBut.ite (deleteKey_keeps _ _ _ _) ((bell_keeps _ _).mono (by decide))

theorem moveCursor_keeps (t : Fin 32) (k : Nat) (s : State) :
    KeepsBut [.panes] s (moveCursor t k s) :=
  (modSession_keeps _ _ _).trans (keepSessionTop_keeps _ _ _)

theorem editToggle_keeps (t : Fin 32) (s : State) : KeepsBut [.panes, .screens] s (editToggle t s) :=
  withEdit_keeps t s _ (by decide) fun _ _ => (modSession_keeps _ _ _).mono (by decide)

theorem editLeft_keeps (t : Fin 32) (s : State) : KeepsBut [.panes, .screens] s (editLeft t s) :=
  withEdit_keeps t s _ (by decide) fun _ _ =>
    KeepsBut.ite ((bell_keeps _ _).mono (by decide)) ((moveCursor_keeps _ _ _).mono (by decide))

theorem editRight_keeps (t : Fin 32) (s : State) : KeepsBut [.panes, .screens] s (editRight t s) :=
  withEdit_keeps t s _ (by decide) fun _ _ =>
    KeepsBut.ite ((bell_keeps _ _).mono (by decide)) ((moveCursor_keeps _ _ _).mono (by decide))

theorem scrollRef_keeps (t : Fin 32) (s : State) (k : List DRow → RefPane → Option Nat) :
    KeepsBut [.panes, .screens] s (scrollRef t s k) := by
  have hbell : KeepsBut [.panes, .screens] s (bell t s) := (bell_keeps t s).mono (by decide)
  unfold scrollRef; split
  · exact hbell
  · split
    · exact hbell
    · split
      · exact hbell
      · exact (modPanes_keeps _ _ _).mono (by decide)

theorem editUp_keeps (t : Fin 32) (s : State) : KeepsBut [.panes, .screens] s (editUp t s) := by
  unfold editUp
  refine KeepsBut.ite (scrollRef_keeps _ _ _) (withEdit_keeps t s _ (by decide) fun _ _ => ?_)
  exact KeepsBut.ite ((bell_keeps _ _).mono (by decide)) ((moveCursor_keeps _ _ _).mono (by decide))

theorem editDown_keeps (t : Fin 32) (s : State) : KeepsBut [.panes, .screens] s (editDown t s) := by
  unfold editDown
  refine KeepsBut.ite (scrollRef_keeps _ _ _) (withEdit_keeps t s _ (by decide) fun _ _ => ?_)
  exact KeepsBut.ite ((bell_keeps _ _).mono (by decide)) ((moveCursor_keeps _ _ _).mono (by decide))

theorem editSwitch_keeps (t : Fin 32) (s : State) : KeepsBut [.panes, .screens] s (editSwitch t s) := by
  have hbell : KeepsBut [.panes, .screens] s (bell t s) := (bell_keeps t s).mono (by decide)
  unfold editSwitch; split
  · exact hbell
  · split
    · exact (modSession_keeps _ _ _).mono (by decide)
    · exact (modSession_keeps _ _ _).mono (by decide)
    · exact hbell

theorem editKey_keeps {fs : List Field} (t : Fin 32) (act : State → State) (s : State)
    (hb : Field.screens ∈ fs) (h : KeepsBut fs s (act s)) : KeepsBut fs s (editKey t act s) := by
  unfold editKey
  exact KeepsBut.ite h ((bell_keeps t s).mono (by simpa using hb))

theorem clearSlot_keeps (t : Fin 32) (s : State) : KeepsBut [.slots, .notices] s (clearSlot t s) := by
  unfold clearSlot
  exact KeepsBut.ite ((raiseTerminal_keeps _ _ _).step (by decide) ((setSlot_keeps _ _ _).mono (by decide)))
    (KeepsBut.refl _ _)

theorem strikeFunction_keeps (t : Fin 32) (k : Fin 16) (s : State) :
    KeepsBut [.keys, .notices, .screens] s (strikeFunction t k s) := by
  have hr : KeepsBut [.keys, .notices, .screens] s (refuseKey t s) :=
    (raiseTerminal_keeps _ _ _).step (by decide) ((bell_keeps _ _).mono (by decide))
  unfold strikeFunction
  refine KeepsBut.ite ((bell_keeps _ _).mono (by decide)) (KeepsBut.ite hr (KeepsBut.ite hr ?_))
  exact (raiseSource_keeps _ _).step (by decide) ((keeps_keys _ _).mono (by decide))

/-- What the keys may change between them. -/
theorem handKey_keeps (t : Fin 32) (k : Key) (s : State) :
    KeepsBut [.stories, .panes, .memory, .screens, .notices, .pressure, .slots, .keys] s
      (handKey t k s) := by
  cases k with
  | text c => exact editKey_keeps t _ s (by decide) ((editText_keeps t c s).mono (by decide))
  | deleteBack => exact editKey_keeps t _ s (by decide) ((editDeleteBack_keeps t s).mono (by decide))
  | deleteForward =>
    exact editKey_keeps t _ s (by decide) ((editDeleteForward_keeps t s).mono (by decide))
  | paragraph => exact editKey_keeps t _ s (by decide) ((editParagraph_keeps t s).mono (by decide))
  | left => exact editKey_keeps t _ s (by decide) ((editLeft_keeps t s).mono (by decide))
  | right => exact editKey_keeps t _ s (by decide) ((editRight_keeps t s).mono (by decide))
  | up => exact editKey_keeps t _ s (by decide) ((editUp_keeps t s).mono (by decide))
  | down => exact editKey_keeps t _ s (by decide) ((editDown_keeps t s).mono (by decide))
  | switch => exact editKey_keeps t _ s (by decide) ((editSwitch_keeps t s).mono (by decide))
  | toggle => exact editKey_keeps t _ s (by decide) ((editToggle_keeps t s).mono (by decide))
  | clearMessage => exact (clearSlot_keeps t s).mono (by decide)
  | repaint => exact (repaint_keeps t s).mono (by decide)
  | function k => exact (strikeFunction_keeps t k s).mono (by decide)

theorem decodeChar_keeps (t : Fin 32) (c : Byte) (s : State) :
    KeepsBut [.stories, .panes, .memory, .screens, .notices, .pressure, .slots, .keys, .lines] s
      (decodeChar t c s) := by
  have hp : ∀ p, KeepsBut [.stories, .panes, .memory, .screens, .notices, .pressure, .slots, .keys,
      .lines] s (setPrefix t p s) := fun p => (modLine_keeps _ _ _).mono (by decide)
  unfold decodeChar
  refine KeepsBut.ite ?_ (KeepsBut.ite (hp _) ?_)
  · split
    · exact (handKey_keeps _ _ _).step (by decide) (hp _)
    · exact hp _
  · split
    · exact (handKey_keeps _ _ _).mono (by decide)
    · exact KeepsBut.refl _ _

theorem offerChar_keeps (t : Fin 32) (c : Byte) (s : State) :
    KeepsBut [.lines, .notices] s (offerChar t c s) := by
  unfold offerChar
  exact KeepsBut.ite ((modLine_keeps _ _ _).mono (by decide)) ((raiseTerminal_keeps _ _ _).mono (by decide))

theorem lineActive_keeps (t : Fin 32) (s : State) : KeepsBut [.lines] s (lineActive t s) :=
  modLine_keeps _ _ _

theorem arrive_keeps (t : Fin 32) (c : Byte) (s : State) :
    KeepsBut [.lines, .notices] s (arrive t c s) :=
  (offerChar_keeps t c _).step (by decide) ((lineActive_keeps t s).mono (by decide))

theorem takeCode_keeps (t : Fin 32) (c : Byte) (s : State) :
    KeepsBut [.stories, .panes, .memory, .screens, .notices, .pressure, .slots, .keys, .lines] s
      (takeCode t c s) := by
  unfold takeCode
  refine KeepsBut.ite (KeepsBut.refl _ _) (KeepsBut.ite ?_ (KeepsBut.ite (decodeChar_keeps _ _ _) ?_))
  · exact (modLine_keeps _ _ _).step (by decide) (decodeChar_keeps _ _ _)
  · exact (arrive_keeps _ _ _).mono (by decide)

theorem takeFunction_keeps (t : Fin 32) (k : Fin 16) (s : State) :
    KeepsBut [.stories, .panes, .memory, .screens, .notices, .pressure, .slots, .keys, .lines] s
      (takeFunction t k s) := by
  unfold takeFunction
  refine KeepsBut.ite (KeepsBut.refl _ _) (KeepsBut.ite (takeCode_keeps _ _ _) (KeepsBut.ite ?_ ?_))
  · exact (takeCode_keeps _ _ _).step (by decide) (takeCode_keeps _ _ _)
  · exact (arrive_keeps _ _ _).step (by decide) ((arrive_keeps _ _ _).mono (by decide))

/-! ### Terminals -/

theorem receiveFrame_keeps (t : Fin 32) (r : RxFrame) (s : State) :
    KeepsBut [.lines, .notices] s (receiveFrame t r s) := by
  unfold receiveFrame
  refine KeepsBut.ite (KeepsBut.ite ?_ ?_) (KeepsBut.refl _ _)
  · exact (raiseTerminal_keeps _ _ _).step (by decide) ((lineActive_keeps _ _).mono (by decide))
  · exact (offerChar_keeps _ _ _).step (by decide) ((lineActive_keeps _ _).mono (by decide))

theorem emptyFifos_keeps (t : Fin 32) (s : State) : KeepsBut [.lines, .screens] s (emptyFifos t s) :=
  (modScreen_keeps _ _ _).step (by decide) ((modLine_keeps _ _ _).mono (by decide))

theorem attach_keeps (t : Fin 32) (a : Assignment) (s : State) :
    KeepsBut [.lines, .screens, .slots] s (attach t a s) :=
  (repaint_keeps _ _).step (by decide) ((setSlot_keeps _ _ _).step (by decide)
    ((modScreen_keeps _ _ _).step (by decide) ((modLine_keeps _ _ _).step (by decide)
      ((emptyFifos_keeps t s).mono (by decide)))))

theorem setMode_keeps (t : Fin 32) (m : Mode) (s : State) : KeepsBut [.screens] s (setMode t m s) :=
  modScreen_keeps _ _ _

theorem reassignLine_keeps (t : Fin 32) (a : Assignment) (s : State) :
    KeepsBut [.lines, .screens] s (reassignLine t a s) := by
  have h : KeepsBut [.lines, .screens] s
      (if s.lines[t].format = a.format then s
      else repaint t (emptyFifos t (modLine t (fun l => { l with format := a.format }) s))) :=
    KeepsBut.ite (KeepsBut.refl _ _) ((repaint_keeps _ _).step (by decide)
      ((emptyFifos_keeps _ _).step (by decide) ((modLine_keeps _ _ _).mono (by decide))))
  exact KeepsBut.ite h ((modLine_keeps _ _ _).step (by decide) h)

theorem reassign_keeps (t : Fin 32) (a : Assignment) (s : State) :
    KeepsBut [.lines, .screens, .stories, .fit, .panes, .notices] s (reassign t a s) := by
  have h1 : KeepsBut [.lines, .screens, .stories, .fit, .panes, .notices] s (reassignLine t a s) :=
    (reassignLine_keeps t a s).mono (by decide)
  have h2 : KeepsBut [.lines, .screens, .stories, .fit, .panes, .notices] s
      (reassignLayout t a (reassignLine t a s)) := by
    unfold reassignLayout
    exact KeepsBut.ite h1 ((modLine_keeps _ _ _).step (by decide)
      ((closePanes_keeps _ _).step (by decide) h1))
  have h3 : KeepsBut [.lines, .screens, .stories, .fit, .panes, .notices] s
      (reassignAuthority t a (reassignLayout t a (reassignLine t a s))) := by
    unfold reassignAuthority
    exact KeepsBut.ite h2 ((recheck_keeps _ _ _).step (by decide)
      ((modLine_keeps _ _ _).step (by decide) h2))
  unfold reassign reassignWatch
  exact KeepsBut.ite ((setMode_keeps _ _ _).step (by decide) h3) h3

theorem endWatchers_keeps (t : Fin 32) (s : State) : KeepsBut [.screens] s (endWatchers t s) :=
  forTerminals_keeps _ (fun _ _ => KeepsBut.ite
    ((repaint_keeps _ _).step (by decide) (setMode_keeps _ _ _)) (KeepsBut.refl _ _)) s

theorem detach_keeps (t : Fin 32) (s : State) :
    KeepsBut [.lines, .screens, .slots, .stories, .fit, .panes] s (detach t s) := by
  unfold detach
  refine (modLine_keeps _ _ _).step (by decide) ?_
  refine (emptyFifos_keeps _ _).step (by decide) ?_
  refine (setSlot_keeps _ _ _).step (by decide) ?_
  refine (modScreen_keeps _ _ _).step (by decide) ?_
  exact (endWatchers_keeps _ _).step (by decide) ((closePanes_keeps t s).mono (by decide))

theorem removeKeys_keeps (n : Nat) (s : State) : KeepsBut [.keys, .notices] s (removeKeys n s) := by
  unfold removeKeys
  exact KeepsBut.ite ((withdrawKeys_keeps _).step (by decide) ((keeps_keys _ _).mono (by decide)))
    ((keeps_keys _ _).mono (by decide))

theorem terminalByteSent_keeps (t : Fin 32) (s : State) :
    KeepsBut [.lines, .screens] s (terminalByteSent t s) := by
  unfold terminalByteSent; split
  · exact KeepsBut.refl _ _
  · exact KeepsBut.ite ((modScreen_keeps _ _ _).step (by decide) ((modLine_keeps _ _ _).mono (by decide)))
      ((modLine_keeps _ _ _).mono (by decide))

/-! ### Screens -/

theorem openEdit_keeps (t : Fin 32) (id off : Nat) (st : Story) (s : State) :
    KeepsBut [.stories, .fit, .panes] s (openEdit t id off st s) :=
  (modPanes_keeps _ _ _).step (by decide) ((claim_keeps _ _ _).step (by decide)
    (closeSession_keeps t true s))

theorem openRef_keeps (t : Fin 32) (id off : Nat) (st : Story) (s : State) :
    KeepsBut [.panes] s (openRef t id off st s) :=
  (KeepsBut.ite (clearRef_keeps t s) (KeepsBut.refl _ _)).trans (modPanes_keeps _ _ _)

theorem endRotation_keeps (t : Fin 32) (s : State) : KeepsBut [.screens] s (endRotation t s) := by
  unfold endRotation; split
  · exact setMode_keeps _ _ _
  · exact KeepsBut.refl _ _

theorem beginRotation_keeps (t : Fin 32) (bs : List (Fin 64)) (d : Nat) (k : Bool) (s : State) :
    KeepsBut [.stories, .fit, .panes, .screens] s (beginRotation t bs d k s) :=
  (setMode_keeps _ _ _).step (by decide) ((closePanes_keeps t s).mono (by decide))

theorem flashExpires_keeps (t : Fin 32) (s : State) :
    KeepsBut [.screens, .now] s (flashExpires t s) := by
  unfold flashExpires; split
  · exact KeepsBut.refl _ _
  · exact (modScreen_keeps _ _ _).step (by decide) ((advanceTo_keeps _ _).mono (by decide))

theorem dwellExpires_keeps (t : Fin 32) (s : State) :
    KeepsBut [.screens, .now] s (dwellExpires t s) := by
  unfold dwellExpires; split
  · exact (modScreen_keeps _ _ _).step (by decide) ((advanceTo_keeps _ _).mono (by decide))
  · exact KeepsBut.refl _ _

/-! ### Faces and fits -/

theorem loadFace_keeps (f : Fin 8) (w : List Byte) (a b : Nat) (s : State) :
    KeepsBut [.faces, .stories, .fit] s (loadFace f w a b s) :=
  ((keeps_facesStories s _ _).mono (by decide)).trans
    (KeepsBut.foldl _ (fun _ _ => (autoOffer_keeps _ _).mono (by decide)) _ _)

theorem leaveForFace_keeps (id : Nat) (s : State) :
    KeepsBut [.stories, .fit] s (leaveForFace id s) := by
  unfold leaveForFace
  have h : KeepsBut [.stories, .fit] s (setFitStatus id .unknown (dropFromFitList id s)) :=
    (setFitStatus_keeps _ _ _).step (by decide) ((dropFromFitList_keeps _ _).mono (by decide))
  exact KeepsBut.ite (KeepsBut.refl _ _) (KeepsBut.ite ((keeps_fit _ _).step (by decide) h) h)

theorem changeSetting_keeps (id : Nat) (st : Story) (x : Setting) (s : State) :
    KeepsBut [.stories, .fit] s (changeSetting id st x s) := by
  unfold changeSetting
  exact KeepsBut.ite ((autoOffer_keeps _ _).step (by decide) ((setStory_keeps _ _ _).mono (by decide)))
    ((leaveForFace_keeps _ _).step (by decide) ((setStory_keeps _ _ _).mono (by decide)))

theorem endFitGrant_keeps (p : FitProgress) (s : State) :
    KeepsBut [.stories, .fit] s (endFitGrant p s) := by
  have hp : ∀ {t : State} q, KeepsBut [.stories, .fit] s t →
      KeepsBut [.stories, .fit] s (setProgress q t) := fun q h => (setProgress_keeps _ q).step (by decide) h
  have hd : KeepsBut [.stories, .fit] s (dropFromFitList p.story s) :=
    (dropFromFitList_keeps _ _).mono (by decide)
  unfold endFitGrant
  refine KeepsBut.ite (hp _ (KeepsBut.refl _ _)) ?_
  split
  · exact hp _ hd
  · refine KeepsBut.ite ?_ ?_
    · dsimp only; split
      · exact hp _ (KeepsBut.refl _ _)
      · exact hp _ ((dropFromFitList_keeps _ _).step (by decide) ((modStory_keeps _ _ _).mono (by decide)))
    · refine hp _ (KeepsBut.ite ?_ ?_)
      · exact (setFitStatus_keeps _ _ _).step (by decide) ((keeps_fit _ _).mono (by decide))
      · exact (setFitStatus_keeps _ _ _).step (by decide) hd

theorem fitGrantEnds_keeps (s : State) :
    KeepsBut [.stories, .fit, .engine] s (fitGrantEnds s) := by
  unfold fitGrantEnds
  refine KeepsBut.ite ?_ (KeepsBut.refl _ _)
  split
  · exact (freeEngine_keeps _).mono (by decide)
  · exact (freeEngine_keeps _).step (by decide) ((endFitGrant_keeps _ _).mono (by decide))

/-! ### Channels -/

theorem acceptJob_keeps (c : Fin 4) (ed : Fin 5) (es : List Entry) (s : State) :
    KeepsBut [.lastJob, .stories, .channels, .notices] s (acceptJob c ed es s) := by
  have h : ∀ g, KeepsBut [.lastJob, .stories, .channels, .notices] s (modChannel c g
      (es.foldl (fun s e => claim e.story (.setting c) s) { s with lastJob := nextNumber s })) := fun g =>
    (modChannel_keeps _ _ _).step (by decide)
      (((keeps_lastJob s _).mono (by decide)).trans
        (KeepsBut.foldl _ (fun _ _ => (claim_keeps _ _ _).mono (by decide)) _ _))
  unfold acceptJob
  exact KeepsBut.ite ((startHead_keeps _ _ _).step (by decide) (h _)) (h _)

theorem changeSettings_keeps (c : Fin 4) (r th w l : Nat) (s : State) :
    KeepsBut [.channels, .stories, .notices] s (changeSettings c r th w l s) := by
  unfold changeSettings
  exact KeepsBut.ite ((stall_keeps _ _).step (by decide) ((modChannel_keeps _ _ _).mono (by decide)))
    ((modChannel_keeps _ _ _).mono (by decide))

theorem releaseJob_keeps (j : Job) (s : State) : KeepsBut [.stories] s (releaseJob j s) :=
  KeepsBut.foldl _ (fun _ _ => release_keeps _ _) _ s

theorem cancelQueued_keeps (c : Fin 4) (j : Job) (s : State) :
    KeepsBut [.channels, .stories, .notices] s (cancelQueued c j s) :=
  (raiseSource_keeps _ _).step (by decide) ((modChannel_keeps _ _ _).step (by decide)
    ((releaseJob_keeps _ _).mono (by decide)))

theorem channelGrantEnds_keeps (c : Fin 4) (s : State) :
    KeepsBut [.channels, .stories, .engine] s (channelGrantEnds c s) := by
  unfold channelGrantEnds
  refine KeepsBut.ite ((freeEngine_keeps _).step (by decide) ((modChannel_keeps _ _ _).step (by decide)
    (KeepsBut.ite ((takeLines_keeps _ _).mono (by decide)) (KeepsBut.refl _ _)))) (KeepsBut.refl _ _)

theorem typesetterByteSent_keeps (c : Fin 4) (s : State) :
    KeepsBut [.channels, .stories, .notices, .memory] s (typesetterByteSent c s) := by
  unfold typesetterByteSent; split
  · exact KeepsBut.refl _ _
  · exact (modChannel_keeps _ _ _).mono (by decide)
  · unfold byteEnds; split
    · exact (modChannel_keeps _ _ _).mono (by decide)
    · exact (releaseSent_keeps _ _ _).step (by decide) ((modChannel_keeps _ _ _).mono (by decide))
    · exact (endJob_keeps _ _ _ _).step (by decide) ((modChannel_keeps _ _ _).mono (by decide))

theorem batchWaitExpires_keeps (c : Fin 4) (s : State) :
    KeepsBut [.channels, .now] s (batchWaitExpires c s) := by
  unfold batchWaitExpires; split
  · exact KeepsBut.ite (KeepsBut.refl _ _)
      ((modChannel_keeps _ _ _).step (by decide) ((advanceTo_keeps _ _).mono (by decide)))
  · exact KeepsBut.refl _ _

theorem channelStalls_keeps (c : Fin 4) (s : State) :
    KeepsBut [.channels, .stories, .notices, .now] s (channelStalls c s) := by
  unfold channelStalls; split
  · exact (stall_keeps _ _).step (by decide) ((advanceTo_keeps _ _).mono (by decide))
  · exact KeepsBut.refl _ _

/-! ### Wires -/

theorem setIntake_keeps (w : Fin 4) (i : Intake) (s : State) : KeepsBut [.wires] s (setIntake w i s) :=
  modWire_keeps _ _ _

theorem flashAlerts_keeps (st : Story) (s : State) : KeepsBut [.screens] s (flashAlerts st s) := by
  unfold flashAlerts
  exact KeepsBut.ite (forTerminals_keeps _ (fun _ _ => KeepsBut.ite (flashAlert_keeps _ _ _)
    (KeepsBut.refl _ _)) s) (KeepsBut.refl _ _)

theorem fileStory_keeps (w : Fin 4) (id : Nat) (cut : Bool) (i : Intake) (s : State) :
    KeepsBut [.stories, .fit, .notices, .screens, .wires] s (fileStory w id cut i s) := by
  have h0 : KeepsBut [.stories, .fit, .notices, .screens, .wires] s
      (if cut then modStory id (fun st => { st with cut := true }) s else s) :=
    KeepsBut.ite ((modStory_keeps _ _ _).mono (by decide)) (KeepsBut.refl _ _)
  have h1 : ∀ g, KeepsBut [.stories, .fit, .notices, .screens, .wires] s
      (autoOffer id (raiseWire w g (release id
        (if cut then modStory id (fun st => { st with cut := true }) s else s)))) := fun g =>
    (autoOffer_keeps _ _).step (by decide) ((raiseWire_keeps _ _ _).step (by decide)
      ((release_keeps _ _).step (by decide) h0))
  unfold fileStory
  refine (setIntake_keeps _ _ _).step (by decide) ?_
  split
  · exact h1 _
  · exact (flashAlerts_keeps _ _).step (by decide) (h1 _)

theorem stored_keeps (id : Nat) (st : Story) (m : Memory) (chain : List Nat) (s : State) :
    KeepsBut [.stories, .memory, .panes] s (stored id st m chain s) :=
  (keepRefTops_keeps _ _ _).step (by decide) ((modStory_keeps _ _ _).step (by decide)
    ((setText_keeps _ _ _ _ _).mono (by decide)))

theorem storeLow_keeps (w : Fin 4) (id : Nat) (s : State) :
    KeepsBut [.stories, .fit, .notices, .screens, .wires, .pressure] s (storeLow w id s) :=
  (fileStory_keeps _ _ _ _ _).step (by decide) ((poolPressed_keeps _ _).mono (by decide))

theorem storeChar_keeps (w : Fin 4) (id : Nat) (c : Byte) (s : State) :
    KeepsBut [.stories, .fit, .notices, .screens, .wires, .pressure, .memory, .panes] s
      (storeChar w id c s) := by
  unfold storeChar; split
  · exact KeepsBut.refl _ _
  · refine KeepsBut.ite ((fileStory_keeps _ _ _ _ _).mono (by decide))
      (KeepsBut.ite ((storeLow_keeps _ _ _).mono (by decide)) ?_)
    split
    · exact (stored_keeps _ _ _ _ _).mono (by decide)
    · exact (fileStory_keeps _ _ _ _ _).mono (by decide)
    · exact (storeLow_keeps _ _ _).mono (by decide)

theorem garble_keeps (id : Nat) (s : State) : KeepsBut [.stories] s (garble id s) := modStory_keeps _ _ _

theorem storeDamaged_keeps (w : Fin 4) (id : Nat) (s : State) :
    KeepsBut [.stories, .fit, .notices, .screens, .wires, .pressure, .memory, .panes] s
      (storeDamaged w id s) :=
  (storeChar_keeps _ _ _ _).step (by decide) ((garble_keeps _ _).step (by decide)
    ((raiseWire_keeps _ _ _).mono (by decide)))

theorem takeText_keeps (w : Fin 4) (id : Nat) (c : Byte) (s : State) :
    KeepsBut [.stories, .fit, .notices, .screens, .wires, .pressure, .memory, .panes] s
      (takeText w id c s) := by
  unfold takeText
  exact KeepsBut.ite (storeChar_keeps _ _ _ _)
    (KeepsBut.ite ((fileStory_keeps _ _ _ _ _).mono (by decide))
      (KeepsBut.ite ((fileStory_keeps _ _ _ _ _).mono (by decide)) (KeepsBut.refl _ _)))

theorem headingDone_keeps (w : Fin 4) (got : List Byte) (s : State) :
    KeepsBut [.stories, .baskets, .notices, .wires] s (headingDone w got s) := by
  have hi : ∀ i, KeepsBut [.stories, .baskets, .notices, .wires] s (setIntake w i s) := fun i =>
    (setIntake_keeps _ _ _).mono (by decide)
  unfold headingDone; split
  · exact hi _
  · split
    · exact hi _
    · split
      · exact (raiseWire_keeps _ _ _).step (by decide) (hi _)
      · exact (setIntake_keeps _ _ _).step (by decide) ((createStory_keeps _ _ _).mono (by decide))

theorem takeHeading_keeps (w : Fin 4) (got : List Byte) (c : Byte) (s : State) :
    KeepsBut [.stories, .baskets, .notices, .wires] s (takeHeading w got c s) := by
  unfold takeHeading
  exact KeepsBut.ite ((modWire_keeps _ _ _).mono (by decide)) (KeepsBut.ite (headingDone_keeps _ _ _)
    (KeepsBut.ite ((modWire_keeps _ _ _).mono (by decide))
      ((raiseWire_keeps _ _ _).step (by decide) ((setIntake_keeps _ _ _).mono (by decide)))))

theorem intakeChar_keeps (w : Fin 4) (c : WireChar) (s : State) :
    KeepsBut [.stories, .fit, .notices, .screens, .wires, .pressure, .memory, .panes, .baskets] s
      (intakeChar w c s) := by
  have hi : ∀ i, KeepsBut [.stories, .fit, .notices, .screens, .wires, .pressure, .memory, .panes,
      .baskets] s (setIntake w i s) := fun i => (setIntake_keeps _ _ _).mono (by decide)
  unfold intakeChar; split
  · exact KeepsBut.refl _ _
  · exact KeepsBut.ite (hi _) (KeepsBut.refl _ _)
  · exact KeepsBut.ite (hi _) (KeepsBut.refl _ _)
  · exact KeepsBut.ite ((raiseWire_keeps _ _ _).step (by decide) (hi _))
      ((takeHeading_keeps _ _ _ _).mono (by decide))
  · exact KeepsBut.ite ((storeDamaged_keeps _ _ _).mono (by decide))
      ((takeText_keeps _ _ _ _).mono (by decide))

theorem intakeLoss_keeps (w : Fin 4) (s : State) : KeepsBut [.wires, .stories] s (intakeLoss w s) := by
  unfold intakeLoss; split
  · exact (setIntake_keeps _ _ _).mono (by decide)
  · exact (garble_keeps _ _).mono (by decide)
  · exact KeepsBut.refl _ _

theorem intakeBreak_keeps (w : Fin 4) (s : State) :
    KeepsBut [.stories, .fit, .notices, .screens, .wires] s (intakeBreak w s) := by
  unfold intakeBreak; split
  · exact KeepsBut.refl _ _
  · exact KeepsBut.refl _ _
  · exact (setIntake_keeps _ _ _).mono (by decide)
  · exact (setIntake_keeps _ _ _).mono (by decide)
  · exact fileStory_keeps _ _ _ _ _

theorem takeIntake_keeps (w : Fin 4) (s : State) :
    KeepsBut [.stories, .fit, .notices, .screens, .wires, .pressure, .memory, .panes, .baskets] s
      (takeIntake w s) := by
  unfold takeIntake; split
  · exact KeepsBut.refl _ _
  · rename_i c cs _
    have h1 : ∀ g, KeepsBut [.stories, .fit, .notices, .screens, .wires, .pressure, .memory, .panes,
        .baskets] s (intakeChar w c (modWire w g s)) := fun g =>
      ((modWire_keeps _ _ _).mono (by decide)).trans (intakeChar_keeps _ _ _)
    have h2 : ∀ g, KeepsBut [.stories, .fit, .notices, .screens, .wires, .pressure, .memory, .panes,
        .baskets] s (if c.loss then intakeLoss w (intakeChar w c (modWire w g s))
          else intakeChar w c (modWire w g s)) := fun g =>
      KeepsBut.ite ((intakeLoss_keeps _ _).step (by decide) (h1 g)) (h1 g)
    exact KeepsBut.ite ((intakeBreak_keeps _ _).step (by decide) (h2 _)) (h2 _)

theorem receiveWire_keeps (w : Fin 4) (r : RxFrame) (s : State) :
    KeepsBut [.wires, .notices] s (receiveWire w r s) := by
  have h : ∀ g, KeepsBut [.wires, .notices] s (modWire w g s) := fun _ =>
    (modWire_keeps _ _ _).mono (by decide)
  unfold receiveWire
  refine KeepsBut.ite (KeepsBut.refl _ _) (KeepsBut.ite ?_ ?_)
  · exact (modWire_keeps _ _ _).step (by decide) (h _)
  · exact (raiseWire_keeps _ _ _).step (by decide) ((modWire_keeps _ _ _).step (by decide) (h _))

theorem wireBreak_keeps (w : Fin 4) (s : State) :
    KeepsBut [.stories, .fit, .notices, .screens, .wires] s (wireBreak w s) := by
  unfold wireBreak
  exact KeepsBut.ite (intakeBreak_keeps _ _) (KeepsBut.ite (KeepsBut.refl _ _)
    ((modWire_keeps _ _ _).mono (by decide)))

theorem silenceExpires_keeps (w : Fin 4) (s : State) :
    KeepsBut [.stories, .fit, .notices, .screens, .wires, .now] s (silenceExpires w s) := by
  unfold silenceExpires
  refine KeepsBut.ite ?_ (KeepsBut.refl _ _)
  dsimp only
  split
  · exact (fileStory_keeps _ _ _ _ _).step (by decide) ((advanceTo_keeps _ _).mono (by decide))
  · exact (setIntake_keeps _ _ _).step (by decide) ((advanceTo_keeps _ _).mono (by decide))

theorem changeWire_keeps (w : Fin 4) (on : Bool) (f : LineFormat) (s : State) :
    KeepsBut [.stories, .fit, .notices, .screens, .wires] s (changeWire w on f s) := by
  unfold changeWire
  refine (modWire_keeps _ _ _).step (by decide) ?_
  split
  · exact fileStory_keeps _ _ _ _ _
  · exact KeepsBut.refl _ _

/-! ### The control link -/

theorem goodFrame_keeps (f : Frame) (s : State) : KeepsBut [.link, .notices] s (goodFrame f s) := by
  have h : KeepsBut [.link, .notices] s (endHostLost s) := by
    unfold endHostLost
    exact KeepsBut.ite ((raiseHostBack_keeps _).step (by decide) ((keeps_link _ _).mono (by decide)))
      (KeepsBut.refl _ _)
  exact (offerFrame_keeps _ _).step (by decide) ((restartWatch_keeps _).step (by decide) h)

theorem receiveByte_keeps (s : State) (b : Byte) : KeepsBut [.link, .notices] s (receiveByte s b) := by
  have hr : ∀ r, KeepsBut [.link, .notices] s (setReceiver r s) := fun r =>
    (setReceiver_keeps _ _).mono (by decide)
  have hl : ∀ g, KeepsBut [.link, .notices] s (raiseLink g (setReceiver .hunt s)) := fun g =>
    (raiseLink_keeps _ _).step (by decide) (hr _)
  unfold receiveByte; split
  · exact KeepsBut.ite (hr _) (KeepsBut.refl _ _)
  · exact KeepsBut.ite (hr _) (KeepsBut.ite (hl _) (KeepsBut.ite (hr _)
      (KeepsBut.ite ((goodFrame_keeps _ _).step (by decide) (hr _)) (hl _))))

theorem receiveBytes_keeps (bytes : List Byte) (s : State) :
    KeepsBut [.link, .notices] s (receiveBytes bytes s) :=
  KeepsBut.foldl _ (fun s b => receiveByte_keeps s b) bytes s

theorem gapExpires_keeps (s : State) : KeepsBut [.link, .notices, .now] s (gapExpires s) := by
  unfold gapExpires; split
  · exact KeepsBut.refl _ _
  · exact (raiseLink_keeps _ _).step (by decide) ((setReceiver_keeps _ _).step (by decide)
      ((advanceTo_keeps _ _).mono (by decide)))

theorem frameSent_keeps (s : State) : KeepsBut [.link] s (frameSent s) := by
  unfold frameSent; split
  · exact KeepsBut.refl _ _
  · exact keeps_link _ _
  · exact keeps_link _ _

theorem hostIsLost_keeps (s : State) : KeepsBut [.link, .now] s (hostIsLost s) := by
  unfold hostIsLost; split
  · exact (keeps_link _ _).step (by decide) ((advanceTo_keeps _ _).mono (by decide))
  · exact KeepsBut.refl _ _

theorem takeRestart_keeps (f : Frame) (s : State) : KeepsBut [.link] s (takeRestart f s) := by
  have h : ∀ r, KeepsBut [.link] s (answer f.kind f.tag (refuse r (dropHead s))) := fun r =>
    (answer_keeps _ _ _ _ (fs := [.link]) (dropHead_keeps s)).mono (by decide)
  unfold takeRestart
  refine KeepsBut.ite (h _) ?_
  split
  · exact h _
  · exact keeps_link _ _

end Sys2Proof.Machine
end

