-- ==== Sys2Proof/Laws/Memory.lean ====
section
/-! SUPPORT. Sparse tables and copy memory: reading what was written, and the canonical form kept by every memory operation. -/

namespace Sys2Proof.Machine

/-! ### Tables -/

theorem Tab.get?_put_same {α : Type} (m : Tab α) (n : Nat) (v : α) : Tab.get? (Tab.put m n v) n = some v := by
  induction m with
  | nil => simp [Tab.put, Tab.get?]
  | cons e m ih =>
    obtain ⟨k, w⟩ := e
    simp only [Tab.put]
    split
    · simp [Tab.get?]
    · split
      · simp [Tab.get?]
      · rename_i h; simp [Tab.get?, h, ih]

theorem Tab.get?_put_ne {α : Type} (m : Tab α) (n k : Nat) (v : α) (h : k ≠ n) :
    Tab.get? (Tab.put m n v) k = Tab.get? m k := by
  induction m with
  | nil => simp [Tab.put, Tab.get?, Ne.symm h]
  | cons e m ih =>
    obtain ⟨j, w⟩ := e
    simp only [Tab.put]
    split
    · simp [Tab.get?, Ne.symm h]
    · split
      · rename_i hj; subst hj; simp [Tab.get?, Ne.symm h]
      · simp [Tab.get?, ih]

theorem Tab.get?_erase_ne {α : Type} (m : Tab α) (n k : Nat) (h : k ≠ n) :
    Tab.get? (Tab.erase m n) k = Tab.get? m k := by
  induction m with
  | nil => rfl
  | cons e m ih =>
    obtain ⟨j, w⟩ := e
    simp only [Tab.erase]
    split
    · rename_i hj; subst hj; simp [Tab.get?, Ne.symm h]
    · simp [Tab.get?, ih]

theorem Tab.get?_none_of_lt {α : Type} (m : Tab α) (n : Nat) (h : ∀ e ∈ m, n < e.1) :
    Tab.get? m n = none := by
  induction m with
  | nil => rfl
  | cons e m ih =>
    obtain ⟨j, w⟩ := e
    have hj := h (j, w) (by simp)
    simp only [Tab.get?]
    rw [if_neg (by simp at hj; omega)]
    exact ih fun e he => h e (by simp [he])

theorem Tab.get?_erase_same {α : Type} (m : Tab α) (n : Nat) (h : Tab.wf m) :
    Tab.get? (Tab.erase m n) n = none := by
  induction m with
  | nil => rfl
  | cons e m ih =>
    obtain ⟨j, w⟩ := e
    obtain ⟨h1, h2⟩ := List.pairwise_cons.mp h
    simp only [Tab.erase]
    split
    · rename_i hj; subst hj; exact Tab.get?_none_of_lt m j h1
    · rename_i hj; simp [Tab.get?, hj, ih h2]

theorem Tab.mem_put {α : Type} (m : Tab α) (n : Nat) (v : α) (e : Nat × α) (h : e ∈ Tab.put m n v) :
    e = (n, v) ∨ e ∈ m := by
  induction m with
  | nil => simpa [Tab.put] using h
  | cons x m ih =>
    obtain ⟨j, w⟩ := x
    simp only [Tab.put] at h
    split at h
    · simpa using h
    · split at h
      · rcases List.mem_cons.mp h with h | h
        · exact .inl h
        · exact .inr (by simp [h])
      · rcases List.mem_cons.mp h with h | h
        · exact .inr (by simp [h])
        · rcases ih h with h | h
          · exact .inl h
          · exact .inr (by simp [h])

theorem Tab.wf_put {α : Type} (m : Tab α) (n : Nat) (v : α) (h : Tab.wf m) : Tab.wf (Tab.put m n v) := by
  induction m with
  | nil => simp [Tab.put, Tab.wf]
  | cons x m ih =>
    obtain ⟨j, w⟩ := x
    obtain ⟨h1, h2⟩ := List.pairwise_cons.mp h
    simp only [Tab.put]
    split
    · rename_i hlt
      refine List.pairwise_cons.mpr ⟨fun e he => ?_, h⟩
      rcases List.mem_cons.mp he with he | he
      · subst he; exact hlt
      · have := h1 e he; simp at this ⊢; omega
    · split
      · rename_i _ hj; subst hj; exact List.pairwise_cons.mpr ⟨h1, h2⟩
      · rename_i hlt hj
        refine List.pairwise_cons.mpr ⟨fun e he => ?_, ih h2⟩
        rcases Tab.mem_put m n v e he with he | he
        · subst he; simp; omega
        · exact h1 e he

theorem Tab.mem_erase {α : Type} (m : Tab α) (n : Nat) (e : Nat × α) (h : e ∈ Tab.erase m n) : e ∈ m := by
  induction m with
  | nil => exact h
  | cons x m ih =>
    obtain ⟨j, w⟩ := x
    simp only [Tab.erase] at h
    split at h
    · simp [h]
    · rcases List.mem_cons.mp h with h | h
      · simp [h]
      · simp [ih h]

theorem Tab.wf_erase {α : Type} (m : Tab α) (n : Nat) (h : Tab.wf m) : Tab.wf (Tab.erase m n) := by
  induction m with
  | nil => exact h
  | cons x m ih =>
    obtain ⟨j, w⟩ := x
    obtain ⟨h1, h2⟩ := List.pairwise_cons.mp h
    simp only [Tab.erase]
    split
    · exact h2
    · exact List.pairwise_cons.mpr ⟨fun e he => h1 e (Tab.mem_erase m n e he), ih h2⟩

/-- The lowest free number from n on: it is free, and every number from n below it is listed. -/
theorem Tab.lowestFree_spec {α : Type} (m : Tab α) (n : Nat) (h : Tab.wf m) :
    n ≤ Tab.lowestFree m n ∧ Tab.get? m (Tab.lowestFree m n) = none ∧
      ∀ x, n ≤ x → x < Tab.lowestFree m n → Tab.get? m x ≠ none := by
  induction m generalizing n with
  | nil => exact ⟨Nat.le_refl n, rfl, fun x h1 h2 => absurd h2 (Nat.not_lt.mpr h1)⟩
  | cons e m ih =>
    obtain ⟨k, w⟩ := e
    obtain ⟨h1, h2⟩ := List.pairwise_cons.mp h
    simp only [Tab.lowestFree]
    split
    · obtain ⟨a, b, c⟩ := ih n h2
      refine ⟨a, ?_, fun x hx hl => ?_⟩
      · rw [Tab.get?, if_neg (by omega)]; exact b
      · rw [Tab.get?, if_neg (by omega)]; exact c x hx hl
    · split
      · rename_i hk; subst hk
        obtain ⟨a, b, c⟩ := ih (k + 1) h2
        refine ⟨by omega, ?_, fun x hx hl => ?_⟩
        · rw [Tab.get?, if_neg (by omega)]; exact b
        · rw [Tab.get?]; split
          · simp
          · exact c x (by omega) hl
      · refine ⟨Nat.le_refl n, ?_, fun x hx hl => absurd hl (by omega)⟩
        rw [Tab.get?, if_neg (by omega)]
        exact Tab.get?_none_of_lt m n fun e he => by have := h1 e he; simp at this; omega

/-! ### Copy memory -/

theorem Memory.write_wf (m : Memory) (b : Nat) (blk : Block) (h : Memory.wf m) :
    Memory.wf (Memory.write m b blk) := by
  unfold Memory.write
  split
  · exact ⟨Tab.wf_erase m b h.1, fun e he => h.2 e (Tab.mem_erase m b e he)⟩
  · rename_i hb
    refine ⟨Tab.wf_put m b blk h.1, fun e he => ?_⟩
    rcases Tab.mem_put m b blk e he with he | he
    · subst he; exact hb
    · exact h.2 e he

theorem Memory.read_write_ne (m : Memory) (b c : Nat) (blk : Block) (h : c ≠ b) :
    Memory.read (Memory.write m b blk) c = Memory.read m c := by
  unfold Memory.read Memory.write
  split
  · rw [Tab.get?_erase_ne m b c h]
  · rw [Tab.get?_put_ne m b c blk h]

theorem Memory.read_write_same (m : Memory) (b : Nat) (blk : Block) (h : Memory.wf m) :
    Memory.read (Memory.write m b blk) b = blk := by
  unfold Memory.read Memory.write
  split
  · rename_i hb; rw [Tab.get?_erase_same m b h.1, hb]; rfl
  · rw [Tab.get?_put_same]; rfl

/-- The block the pool gives is the lowest free one of the whole memory (R2). -/
theorem Memory.lowestFree?_spec (m : Memory) (b : Nat) (h : Memory.wf m)
    (hb : Memory.lowestFree? m = some b) :
    b < Config.blocks ∧ Tab.get? m b = none ∧ ∀ x < b, Tab.get? m x ≠ none := by
  obtain ⟨_, h2, h3⟩ := Tab.lowestFree_spec m 0 h.1
  unfold Memory.lowestFree? at hb
  split at hb
  · rename_i hlt
    cases hb
    exact ⟨hlt, h2, fun x hx => h3 x (Nat.zero_le x) hx⟩
  · cases hb

/-! ### Every memory operation keeps the canonical form -/

theorem flagBlock_wf (m : Memory) (b : Nat) (h : Memory.wf m) : Memory.wf (flagBlock m b) :=
  Memory.write_wf m b _ h

theorem clearFlags_wf (m : Memory) (chain : List Nat) (h : Memory.wf m) :
    Memory.wf (clearFlags m chain) := by
  unfold clearFlags
  induction chain generalizing m with
  | nil => exact h
  | cons b bs ih => exact ih _ (Memory.write_wf m b _ h)

theorem freeChain_wf (m : Memory) (chain : List Nat) (h : Memory.wf m) :
    Memory.wf (freeChain m chain) := by
  unfold freeChain
  induction chain generalizing m with
  | nil => exact h
  | cons b bs ih => exact ih _ (Memory.write_wf m b _ h)

/-- The memory of a split, written without the pair. -/
theorem splitInsert_fst (m : Memory) (chain : List Nat) (b nb p : Nat) (c : Byte) :
    (splitInsert m chain b nb p c).1 =
      if p ≤ Config.splitAt then
        (Memory.write
          (Memory.write m b ⟨((Memory.read m b).chars.take Config.splitAt).insertIdx p c, true⟩)
          nb ⟨(Memory.read m b).chars.drop Config.splitAt, true⟩)
      else
        (Memory.write (Memory.write m b ⟨(Memory.read m b).chars.take Config.splitAt, true⟩) nb
          ⟨((Memory.read m b).chars.drop Config.splitAt).insertIdx (p - Config.splitAt) c, true⟩) := by
  simp only [splitInsert, apply_ite Prod.fst]

theorem splitInsert_wf (m : Memory) (chain : List Nat) (b nb p : Nat) (c : Byte) (h : Memory.wf m) :
    Memory.wf (splitInsert m chain b nb p c).1 := by
  rw [splitInsert_fst]
  split
  · exact Memory.write_wf _ nb _ (Memory.write_wf m b _ h)
  · exact Memory.write_wf _ nb _ (Memory.write_wf m b _ h)

theorem insertChar_wf (m m' : Memory) (chain chain' : List Nat) (k : Nat) (c : Byte) (h : Memory.wf m)
    (hm : insertChar m chain k c = .made m' chain') : Memory.wf m' := by
  simp only [insertChar] at hm
  split at hm
  · cases hm
  · split at hm
    · split at hm
      · cases hm
      · cases hm; exact Memory.write_wf _ _ _ h
    · split at hm
      · cases hm; exact Memory.write_wf _ _ _ h
      · split at hm
        · cases hm
        · cases hm; exact splitInsert_wf _ _ _ _ _ _ h

theorem deleteChar_wf (m : Memory) (chain : List Nat) (k : Nat) (h : Memory.wf m) :
    Memory.wf (deleteChar m chain k).1 := by
  have freed : ∀ b, Memory.wf (Memory.write m b Block.free) := fun b => Memory.write_wf m b _ h
  simp only [deleteChar]
  split
  · exact h
  · split
    · split
      · exact freed _
      · exact flagBlock_wf _ _ (freed _)
    · exact Memory.write_wf m _ _ h

theorem replaceChar_wf (m : Memory) (chain : List Nat) (k : Nat) (c : Byte) (h : Memory.wf m) :
    Memory.wf (replaceChar m chain k c) := by
  unfold replaceChar
  split
  · exact h
  · exact Memory.write_wf _ _ _ h

/-- Reset memory is in canonical form. -/
theorem reset_memory_wf : Memory.wf State.reset.memory := by
  constructor
  · exact List.Pairwise.nil
  · intro e he; exact absurd he (List.not_mem_nil)

end Sys2Proof.Machine
end

