-- ==== Sys2Proof/Laws/PerInstr.lean ====
section
/-! SUPPORT. The link's frames carry the orders faithfully: the frame of an order, taken in hand, is that order again (R184, Table 11-4). One lemma per command; an event has no frame. -/

namespace Sys2Proof.Laws.OrderFrame

open Sys2Proof.Machine

/-- The command in hand for the frame of a command is that command. -/
def Statement (i : Instr) : Prop := ∀ f, orderFrame i = some f → instrOfFrame f = i

theorem powerOn : Statement .powerOn := by intro f h; cases h
theorem restartMade : Statement .restartMade := by intro f h; cases h
theorem frameReceived (bytes : List Byte) : Statement (.frameReceived bytes) :=
  by intro f h; cases h
theorem gapTimerExpiry (bytes : List Byte) : Statement (.gapTimerExpiry bytes) :=
  by intro f h; cases h
theorem hostLost : Statement .hostLost := by intro f h; cases h
theorem transmitFrameEnd : Statement .transmitFrameEnd := by intro f h; cases h
theorem unassignedKind (kind tag : Byte) (body : List Byte) : Statement (.unassignedKind kind tag body) := by
  intro f h
  simp only [orderFrame] at h
  split at h
  · cases h
  · rename_i hk
    cases h
    unfold instrOfFrame
    split <;> simp_all [kindAssigned]

theorem createStory (tag : Byte) (body : List Byte) : Statement (.createStory tag body) :=
  by intro f h; cases h; rfl
theorem readStory (tag : Byte) (body : List Byte) : Statement (.readStory tag body) :=
  by intro f h; cases h; rfl
theorem setFlags (tag : Byte) (body : List Byte) : Statement (.setFlags tag body) :=
  by intro f h; cases h; rfl
theorem writeText (tag : Byte) (body : List Byte) : Statement (.writeText tag body) :=
  by intro f h; cases h; rfl
theorem readText (tag : Byte) (body : List Byte) : Statement (.readText tag body) :=
  by intro f h; cases h; rfl
theorem spikeStory (tag : Byte) (body : List Byte) : Statement (.spikeStory tag body) :=
  by intro f h; cases h; rfl
theorem clearMarks (tag : Byte) (body : List Byte) : Statement (.clearMarks tag body) :=
  by intro f h; cases h; rfl
theorem setDesk (tag : Byte) (body : List Byte) : Statement (.setDesk tag body) :=
  by intro f h; cases h; rfl
theorem readDesk (tag : Byte) (body : List Byte) : Statement (.readDesk tag body) :=
  by intro f h; cases h; rfl
theorem setBasket (tag : Byte) (body : List Byte) : Statement (.setBasket tag body) :=
  by intro f h; cases h; rfl
theorem listBasket (tag : Byte) (body : List Byte) : Statement (.listBasket tag body) :=
  by intro f h; cases h; rfl
theorem moveStory (tag : Byte) (body : List Byte) : Statement (.moveStory tag body) :=
  by intro f h; cases h; rfl
theorem setStoryKey (tag : Byte) (body : List Byte) : Statement (.setStoryKey tag body) :=
  by intro f h; cases h; rfl
theorem sendMessage (tag : Byte) (body : List Byte) : Statement (.sendMessage tag body) :=
  by intro f h; cases h; rfl
theorem setClock (tag : Byte) (body : List Byte) : Statement (.setClock tag body) :=
  by intro f h; cases h; rfl
theorem startClock (tag : Byte) (body : List Byte) : Statement (.startClock tag body) :=
  by intro f h; cases h; rfl
theorem readClock (tag : Byte) (body : List Byte) : Statement (.readClock tag body) :=
  by intro f h; cases h; rfl
theorem setDeadline (tag : Byte) (body : List Byte) : Statement (.setDeadline tag body) :=
  by intro f h; cases h; rfl
theorem rearm (tag : Byte) (body : List Byte) : Statement (.rearm tag body) :=
  by intro f h; cases h; rfl
theorem clearDeadline (tag : Byte) (body : List Byte) : Statement (.clearDeadline tag body) :=
  by intro f h; cases h; rfl
theorem assignTerminal (tag : Byte) (body : List Byte) : Statement (.assignTerminal tag body) :=
  by intro f h; cases h; rfl
theorem detachTerminal (tag : Byte) (body : List Byte) : Statement (.detachTerminal tag body) :=
  by intro f h; cases h; rfl
theorem readTerminal (tag : Byte) (body : List Byte) : Statement (.readTerminal tag body) :=
  by intro f h; cases h; rfl
theorem takeKeys (tag : Byte) (body : List Byte) : Statement (.takeKeys tag body) :=
  by intro f h; cases h; rfl
theorem putScreenText (tag : Byte) (body : List Byte) : Statement (.putScreenText tag body) :=
  by intro f h; cases h; rfl
theorem fillBase (tag : Byte) (body : List Byte) : Statement (.fillBase tag body) :=
  by intro f h; cases h; rfl
theorem setStatus (tag : Byte) (body : List Byte) : Statement (.setStatus tag body) :=
  by intro f h; cases h; rfl
theorem repaint (tag : Byte) (body : List Byte) : Statement (.repaint tag body) :=
  by intro f h; cases h; rfl
theorem setWatch (tag : Byte) (body : List Byte) : Statement (.setWatch tag body) :=
  by intro f h; cases h; rfl
theorem setRotation (tag : Byte) (body : List Byte) : Statement (.setRotation tag body) :=
  by intro f h; cases h; rfl
theorem readSession (tag : Byte) (body : List Byte) : Statement (.readSession tag body) :=
  by intro f h; cases h; rfl
theorem openWindow (tag : Byte) (body : List Byte) : Statement (.openWindow tag body) :=
  by intro f h; cases h; rfl
theorem closeWindow (tag : Byte) (body : List Byte) : Statement (.closeWindow tag body) :=
  by intro f h; cases h; rfl
theorem setWidths (tag : Byte) (body : List Byte) : Statement (.setWidths tag body) :=
  by intro f h; cases h; rfl
theorem readWidths (tag : Byte) (body : List Byte) : Statement (.readWidths tag body) :=
  by intro f h; cases h; rfl
theorem setSetting (tag : Byte) (body : List Byte) : Statement (.setSetting tag body) :=
  by intro f h; cases h; rfl
theorem fitStory (tag : Byte) (body : List Byte) : Statement (.fitStory tag body) :=
  by intro f h; cases h; rfl
theorem readFitQueue (tag : Byte) (body : List Byte) : Statement (.readFitQueue tag body) :=
  by intro f h; cases h; rfl
theorem queueJob (tag : Byte) (body : List Byte) : Statement (.queueJob tag body) :=
  by intro f h; cases h; rfl
theorem setArbitration (tag : Byte) (body : List Byte) : Statement (.setArbitration tag body) :=
  by intro f h; cases h; rfl
theorem setChannel (tag : Byte) (body : List Byte) : Statement (.setChannel tag body) :=
  by intro f h; cases h; rfl
theorem resume (tag : Byte) (body : List Byte) : Statement (.resume tag body) :=
  by intro f h; cases h; rfl
theorem flushChannel (tag : Byte) (body : List Byte) : Statement (.flushChannel tag body) :=
  by intro f h; cases h; rfl
theorem cancelJob (tag : Byte) (body : List Byte) : Statement (.cancelJob tag body) :=
  by intro f h; cases h; rfl
theorem readChannel (tag : Byte) (body : List Byte) : Statement (.readChannel tag body) :=
  by intro f h; cases h; rfl
theorem setWireLine (tag : Byte) (body : List Byte) : Statement (.setWireLine tag body) :=
  by intro f h; cases h; rfl
theorem readWireLine (tag : Byte) (body : List Byte) : Statement (.readWireLine tag body) :=
  by intro f h; cases h; rfl
theorem setSelection (tag : Byte) (body : List Byte) : Statement (.setSelection tag body) :=
  by intro f h; cases h; rfl
theorem readSelection (tag : Byte) (body : List Byte) : Statement (.readSelection tag body) :=
  by intro f h; cases h; rfl
theorem setWireReserve (tag : Byte) (body : List Byte) : Statement (.setWireReserve tag body) :=
  by intro f h; cases h; rfl
theorem setLinkWatch (tag : Byte) (body : List Byte) : Statement (.setLinkWatch tag body) :=
  by intro f h; cases h; rfl
theorem queryPart (tag : Byte) (body : List Byte) : Statement (.queryPart tag body) :=
  by intro f h; cases h; rfl
theorem restart (tag : Byte) (body : List Byte) : Statement (.restart tag body) :=
  by intro f h; cases h; rfl
theorem clockTick : Statement .clockTick := by intro f h; cases h
theorem terminalCharacterReceived (t : Fin 32) (frame : RxFrame) : Statement (.terminalCharacterReceived t frame) :=
  by intro f h; cases h
theorem terminalIdleExpiry (t : Fin 32) : Statement (.terminalIdleExpiry t) := by intro f h; cases h
theorem terminalBreak (t : Fin 32) : Statement (.terminalBreak t) := by intro f h; cases h
theorem textKey (t : Fin 32) (code : Byte) : Statement (.textKey t code) := by intro f h; cases h
theorem newParagraph (t : Fin 32) : Statement (.newParagraph t) := by intro f h; cases h
theorem deleteBack (t : Fin 32) : Statement (.deleteBack t) := by intro f h; cases h
theorem deleteForward (t : Fin 32) : Statement (.deleteForward t) := by intro f h; cases h
theorem insertOvertypeToggle (t : Fin 32) : Statement (.insertOvertypeToggle t) :=
  by intro f h; cases h
theorem cursorLeft (t : Fin 32) : Statement (.cursorLeft t) := by intro f h; cases h
theorem cursorRight (t : Fin 32) : Statement (.cursorRight t) := by intro f h; cases h
theorem cursorUp (t : Fin 32) : Statement (.cursorUp t) := by intro f h; cases h
theorem cursorDown (t : Fin 32) : Statement (.cursorDown t) := by intro f h; cases h
theorem paneSwitch (t : Fin 32) : Statement (.paneSwitch t) := by intro f h; cases h
theorem clearMessage (t : Fin 32) : Statement (.clearMessage t) := by intro f h; cases h
theorem repaintKey (t : Fin 32) : Statement (.repaintKey t) := by intro f h; cases h
theorem functionKeyPrefix (t : Fin 32) : Statement (.functionKeyPrefix t) := by intro f h; cases h
theorem functionKey (t : Fin 32) (key : Fin 16) : Statement (.functionKey t key) :=
  by intro f h; cases h
theorem ignoredCode (t : Fin 32) (code : Byte) : Statement (.ignoredCode t code) :=
  by intro f h; cases h
theorem terminalByteSent (t : Fin 32) : Statement (.terminalByteSent t) := by intro f h; cases h
theorem flashAlertExpiry (t : Fin 32) : Statement (.flashAlertExpiry t) := by intro f h; cases h
theorem rotationDwellExpiry (t : Fin 32) : Statement (.rotationDwellExpiry t) :=
  by intro f h; cases h
theorem fitGrantEnd : Statement .fitGrantEnd := by intro f h; cases h
theorem channelGrantEnd (c : Fin 4) : Statement (.channelGrantEnd c) := by intro f h; cases h
theorem typesetterByteSent (c : Fin 4) : Statement (.typesetterByteSent c) := by intro f h; cases h
theorem typReady (c : Fin 4) (level : Bool) : Statement (.typReady c level) := by intro f h; cases h
theorem batchWaitExpiry (c : Fin 4) : Statement (.batchWaitExpiry c) := by intro f h; cases h
theorem channelStall (c : Fin 4) : Statement (.channelStall c) := by intro f h; cases h
theorem wireCharacterReceived (w : Fin 4) (frame : RxFrame) : Statement (.wireCharacterReceived w frame) :=
  by intro f h; cases h
theorem wireBreak (w : Fin 4) : Statement (.wireBreak w) := by intro f h; cases h
theorem wireIntakeCharacter (w : Fin 4) : Statement (.wireIntakeCharacter w) :=
  by intro f h; cases h
theorem wireSilenceExpiry (w : Fin 4) : Statement (.wireSilenceExpiry w) := by intro f h; cases h
theorem linkLengthError (hi lo : Byte) : Statement (.linkLengthError hi lo) := by intro f h; cases h

end Sys2Proof.Laws.OrderFrame
end

