-- ==== Sys2Proof/Laws/Settle.lean ====
section
/-! SUPPORT. How an order's answer becomes Replies, Reads or Refuses, and what the end of an event does to each record it touches. -/

namespace Sys2Proof.Machine

/-! ### Orders -/

/-- An order in hand whose owner leaves the link alone and answers r. -/
theorem replies_of_own {i : Instr} {kind tag : Byte} {body : List Byte} {s : State} {need : Nat}
    {own : List Byte → State → Answer} {r : Reply} {fs : List Field} {P : State → Prop}
    (hi : exec i s = .next (takeOrder kind need own tag body s)) (ht : Takes ⟨kind, tag, body⟩ s)
    (hn : need ≤ body.length) (hr : (own body (dropHead s)).2 = r)
    (hk : KeepsBut fs (dropHead s) (own body (dropHead s)).1) (hl : Field.link ∉ fs)
    (hP : P (answer kind tag (own body (dropHead s)))) : Replies i kind tag r fs s P := by
  refine ⟨answer kind tag (own body (dropHead s)), ?_, ?_, hP⟩
  · rw [hi, takeOrder_takes ht hn]
  · subst hr
    exact answeredBy_answer hk hl

/-- An order in hand whose owner changes nothing and answers r. -/
theorem reads_of_own {i : Instr} {kind tag : Byte} {body : List Byte} {s : State} {need : Nat}
    {own : List Byte → State → Answer} {r : Reply}
    (hi : exec i s = .next (takeOrder kind need own tag body s)) (ht : Takes ⟨kind, tag, body⟩ s)
    (hn : need ≤ body.length) (ho : own body (dropHead s) = (dropHead s, r)) :
    Reads i kind tag r s :=
  replies_of_own hi ht hn (by rw [ho]) (by rw [ho]; exact KeepsBut.refl _ _) (by decide) trivial

/-- An order in hand whose owner refuses it. -/
theorem refuses_of_own {i : Instr} {kind tag : Byte} {body : List Byte} {s : State} {need : Nat}
    {own : List Byte → State → Answer} {r : ResultCode}
    (hi : exec i s = .next (takeOrder kind need own tag body s)) (ht : Takes ⟨kind, tag, body⟩ s)
    (hn : need ≤ body.length) (ho : own body (dropHead s) = refuse r (dropHead s)) :
    Refuses i kind tag r s := reads_of_own hi ht hn ho

/-- An order in hand that has left the inbound queue is the state before it in every field but the link. -/
theorem dropHead_same (s : State) : KeepsBut [.link] s (dropHead s) := dropHead_keeps s

/-! ### The end of an event, record by record -/

theorem settle_eq (s : State) : settle s = transmit (refreshAll (grantEngine (moveAll s))) := rfl

/-- Codes moving into the FIFO leave the channel's state, jobs, position, results, pin and settings alone. -/
theorem moveIn_same (now : Nat) (ch : Channel) :
    (ch.moveIn now).state = ch.state ∧ (ch.moveIn now).jobs = ch.jobs ∧
      (ch.moveIn now).pos = ch.pos ∧ (ch.moveIn now).finished = ch.finished ∧
      (ch.moveIn now).ready = ch.ready ∧ (ch.moveIn now).rate = ch.rate ∧
      (ch.moveIn now).threshold = ch.threshold ∧ (ch.moveIn now).waitChoice = ch.waitChoice ∧
      (ch.moveIn now).stallChoice = ch.stallChoice := by
  unfold Channel.moveIn; dsimp only; split <;> simp [Channel.testBatch]

/-- A grant of the engine changes nothing of a channel but its grant. -/
theorem grantEngine_channel (s : State) (c : Fin 4) :
    ∃ g, (grantEngine s).channels[c] = { s.channels[c] with grant := g } := by
  unfold grantEngine; split
  · exact ⟨_, rfl⟩
  · rename_i k _
    cases k with
    | fit => exact ⟨_, rfl⟩
    | channel d =>
      by_cases h : d = c
      · subst h; exact ⟨.keep, by simp⟩
      · refine ⟨s.channels[c].grant, ?_⟩
        have : d.val ≠ c.val := fun hh => h (Fin.ext hh)
        simp [this]

/-- A channel after an event: what Channel.settle makes of it, and a grant. -/
theorem settle_channel (s : State) (c : Fin 4) :
    ∃ g, (settle s).channels[c] = { s.channels[c].settle s.now with grant := g } := by
  have ht : (transmit (refreshAll (grantEngine (moveAll s)))).channels =
      (refreshAll (grantEngine (moveAll s))).channels := transmit_keeps _ .channels (by decide)
  rw [settle_eq, ht, refreshAll_channels]
  obtain ⟨g, hg⟩ := grantEngine_channel (moveAll s) c
  refine ⟨g, ?_⟩
  rw [hg]; simp [moveAll]

set_option linter.unusedTactic false in
/-- The emitter leaves the base layer, the status text, the mode and the alert alone. -/
theorem emit_same (n : Nat) (sc : Screen) (tx : List Byte) :
    (emit n sc tx).1.base = sc.base ∧ (emit n sc tx).1.status = sc.status ∧
      (emit n sc tx).1.mode = sc.mode ∧ (emit n sc tx).1.flash = sc.flash := by
  induction n generalizing sc tx with
  | zero => simp [emit]
  | succ n ih =>
    simp only [emit]
    repeat' split
    all_goals first | (simp; done) | (simp only [ih]; simp; done) | skip
    rw [(ih _ _).1, (ih _ _).2.1, (ih _ _).2.2.1, (ih _ _).2.2.2]
    simp only [takeRow]; split <;> simp

/-- The screens after an event. -/
theorem settle_screens (s : State) :
    (settle s).screens = Vector.ofFn fun t => (refreshTerminal (grantEngine (moveAll s)) t).1 := by
  rw [settle_eq, transmit_keeps _ .screens (by decide)]; rfl

/-- The terminal lines after an event. -/
theorem settle_lines (s : State) :
    (settle s).lines = Vector.ofFn fun t => (refreshTerminal (grantEngine (moveAll s)) t).2 := by
  rw [settle_eq, transmit_keeps _ .lines (by decide)]; rfl

/-- Before the emitter the screens and lines of an event are those it left. -/
theorem grant_move_screens_lines (s : State) :
    (grantEngine (moveAll s)).screens = s.screens ∧ (grantEngine (moveAll s)).lines = s.lines := by
  constructor
  · rw [grantEngine_keeps (moveAll s) .screens (by decide), moveAll_keeps s .screens (by decide)]
  · rw [grantEngine_keeps (moveAll s) .lines (by decide), moveAll_keeps s .lines (by decide)]

/-- Before the transmitter the link and the Notice Table of an event are those it left. -/
theorem settle_before_transmit (s : State) :
    (refreshAll (grantEngine (moveAll s))).link = s.link ∧
      (refreshAll (grantEngine (moveAll s))).notices = s.notices := by
  constructor
  · rw [refreshAll_link, grantEngine_keeps (moveAll s) .link (by decide),
      moveAll_keeps s .link (by decide)]
  · rw [refreshAll_notices, grantEngine_keeps (moveAll s) .notices (by decide),
      moveAll_keeps s .notices (by decide)]

end Sys2Proof.Machine
end

