-- ==== Sys2Proof/Tests/Slice0.lean ====
section
/-! SUPPORT. Tests of single steps on small states, the smoke test of WellFormed, and for each statement with hypotheses a state and operands that meet them, clause by clause. -/

namespace Sys2Proof.Machine.Tests

-- One proof after the other: proofs checked side by side ask for more threads than the memory limit of check.sh allows.
set_option Elab.async false

/-! ### WellFormed -/

/-- A body of 1025 bytes. -/
def longBody : List Byte := List.replicate 1025 0

theorem test_body_over_1024_is_refused :
    (Instr.setFlags 0 longBody).wellFormed = false ∧
      (Instr.setFlags 0 (longBody.drop 1)).wellFormed = true := by decide +kernel

theorem test_frame_that_is_not_whole_is_refused :
    (Instr.frameReceived []).wellFormed = false ∧
      (Instr.frameReceived [0xC2, 0, 2, 0x11, 0, 0, 0x13]).wellFormed = false ∧
      (Instr.frameReceived [0xC3, 0, 1, 0x11, 0, 0]).wellFormed = false ∧
      (Instr.frameReceived [0xC3, 0, 2, 0x11, 0, 0]).wellFormed = false ∧
      (Instr.frameReceived [0xC3, 0, 2, 0x11, 0, 0, 0x13]).wellFormed = true := by decide

theorem test_gap_bytes_not_begun_are_refused :
    (Instr.gapTimerExpiry []).wellFormed = false ∧
      (Instr.gapTimerExpiry [0x11]).wellFormed = false ∧
      (Instr.gapTimerExpiry [0xC3, 0, 2, 0x11, 0, 0, 0x13]).wellFormed = false ∧
      (Instr.gapTimerExpiry [0xC3, 0, 2, 0x11, 0, 0]).wellFormed = true := by decide

theorem test_assigned_kind_is_not_unassigned :
    (Instr.unassignedKind 0x35 0 []).wellFormed = false ∧
      (Instr.unassignedKind 0x36 0 []).wellFormed = true ∧
      (Instr.unassignedKind 0x36 0 longBody).wellFormed = false := by decide +kernel

theorem test_text_key_needs_a_text_code :
    (Instr.textKey 0 0x7F).wellFormed = false ∧ (Instr.textKey 0 0x1F).wellFormed = false ∧
      (Instr.textKey 0 0x7E).wellFormed = true := by decide

theorem test_legal_length_is_no_length_error :
    (Instr.linkLengthError 4 2).wellFormed = false ∧ (Instr.linkLengthError 0 2).wellFormed = false ∧
      (Instr.linkLengthError 4 3).wellFormed = true := by decide

/-! ### Small states -/

/-- The next state, or the state itself where there is none. -/
def after (i : Instr) (s : State) : State :=
  match exec i s with
  | .next u => u
  | _ => s

/-- The result byte and the data of the reply that the part begins to send when an order comes to a link at rest. -/
def said (i : Instr) (s : State) : List Byte :=
  match (after i s).link.sending with
  | some (true, f) => f.body.drop 1
  | _ => []

/-- An empty story in IDLE. -/
def plainStory : Story :=
  ⟨[0x41], 0, .routine, .idle, 0, false, false, false, [], 0, none, none, none,
    Setting.partDefault, FitRecord.fresh⟩

/-- The reset state with one story. -/
def oneStory (id : Nat) (st : Story) : State :=
  { State.reset with
    stories := [(id, st)]
    baskets := State.reset.baskets.set st.basket { Basket.reset with list := [id] } }

/-- The reset state with story 1 holding a text in block 0. -/
def withText (text : List Byte) (st : Story) : State :=
  { oneStory 1 { st with chain := [0] } with memory := [(0, ⟨text, false⟩)] }

/-- A terminal attached, with key 0. -/
def attach (t : Fin 32) (s : State) : State :=
  { s with lines := s.lines.set t { Line.reset with attached := true } }

/-- An order is taken in hand where the link is as after reset. -/
theorem takes_of_link (f : Frame) (s : State) (h : s.link = State.reset.link) : Takes f s := by
  unfold Takes; rw [h]; exact ⟨rfl, by decide, .inl rfl⟩

theorem reset_takes (f : Frame) : Takes f State.reset := takes_of_link f _ rfl

/-- What hypotheses on an order ask first: its body is long enough and the order is taken in hand. -/
def Comes (kind : Byte) (need : Nat) (body : List Byte) (s : State) : Prop :=
  need ≤ body.length ∧ Takes ⟨kind, 7, body⟩ s

theorem comes (kind : Byte) (need : Nat) (body : List Byte) (s : State) (h : need ≤ body.length)
    (hl : s.link = State.reset.link) : Comes kind need body s := ⟨h, takes_of_link _ _ hl⟩

/-! ### Witnesses: the step and the link -/

/-- A frame without a body, kind 11h and tag 07h. -/
def smallFrame : Frame := ⟨0x11, 7, []⟩

theorem test_a_frame_and_its_bytes :
    smallFrame.bytes = [0xC3, 0, 2, 0x11, 7, 0, 0x1A] ∧
      (after (.frameReceived smallFrame.bytes) State.reset).link.inbound = [smallFrame] ∧
      (after (.frameReceived [0xC3, 0, 2, 0x11, 7, 0, 0x1B]) State.reset).notices.link =
        ⟨false, false, true, false⟩ := by decide +kernel

theorem witness_IdleStep :
    State.reset.pending = [] ∧ internal State.reset = none ∧
      internal (after (.frameReceived smallFrame.bytes) State.reset) =
        some (.readClock 7 []) ∧
      (after (.frameReceived smallFrame.bytes) State.reset).link.inbound = smallFrame :: [] ∧
      (after (.frameReceived smallFrame.bytes) State.reset).link.held = none ∧
      (after (.frameReceived smallFrame.bytes) State.reset).link.replies.length < 8 := by
  decide +kernel

/-- The reset state with nothing sent yet and two sources pending, before and after the last source sent. -/
def twoSources (last : Nat) : State :=
  { State.reset with
    notices := (State.reset.notices.setPending 1 true).setPending 47 true
    link := { State.reset.link with lastSource := last } }

theorem witness_Transmitter :
    (twoSources 47).link.sending = none ∧ (twoSources 47).link.replies = [] ∧
      (twoSources 47).link.hostLost = false ∧ (twoSources 47).link.held = none ∧
      (twoSources 47).link.inbound = [] ∧ (twoSources 47).notices.pending[(0 : Fin 48)] = true ∧
      (∀ j : Fin 48, (twoSources 47).notices.pending[j] = true →
        (0 + 47 - 47) % 48 ≤ (j.val + 47 - 47) % 48) ∧
      (∀ j : Fin 48, (twoSources 0).notices.pending[j] = true →
        (1 + 47 - 0) % 48 ≤ (j.val + 47 - 0) % 48) ∧
      (∀ j : Fin 48, (twoSources 46).notices.pending[j] = true →
        (47 + 47 - 46) % 48 ≤ (j.val + 47 - 46) % 48) ∧
      (transmit (twoSources 46)).link.lastSource = 47 ∧
      (transmit (twoSources 0)).link.lastSource = 1 ∧
      (∀ i : Fin 48, (State.reset.notices.taken 0).pending[i] = false) := by decide +kernel

theorem witness_Transmitter_busy :
    (transmit State.reset).link.sending.isSome = true ∧
      ({ State.reset.link with replies := [smallFrame] } : Link).sending = none ∧
      ({ State.reset.link with hostLost := true } : Link).replies = [] ∧
      ({ State.reset.link with held := some (.warm, 7) } : Link).held.isSome = true := by
  decide +kernel

theorem witness_FrameBytes :
    smallFrame.body.length ≤ 1024 ∧ (⟨0, 0, longBody.drop 1⟩ : Frame).body.length ≤ 1024 ∧
      State.reset.link.receiver = .hunt ∧
      [0, 0x1B] ≠ e16 (checkSum (smallFrame.bytes.drop 1).dropLast.dropLast) := by decide +kernel

theorem witness_LinkEvents :
    frameLength 0 1 < 2 ∧ 1026 < frameLength 4 3 ∧ frameBegun [0xC3] = true ∧
      (after (.linkLengthError 4 3) State.reset).notices.link = ⟨true, false, false, false⟩ ∧
      (after (.gapTimerExpiry [0xC3]) State.reset).notices.link = ⟨false, true, false, false⟩ ∧
      (after (.gapTimerExpiry [0xC3]) State.reset).now = 50 := by decide +kernel

/-- The reset state with the watch enabled: period 1 second, started at 0. -/
def watched : State :=
  { State.reset with link := { State.reset.link with watch := some 1, watchFrom := some 0 } }

/-- Eight replies wait; the inbound queue holds these frames. -/
def fullReplies (q : List Frame) : State :=
  { State.reset with
    link := { State.reset.link with replies := List.replicate 8 smallFrame, inbound := q } }

theorem witness_LnkCts :
    smallFrame.body.length ≤ 1024 ∧ (fullReplies (List.replicate 7 smallFrame)).link.receiver = .hunt ∧
      (fullReplies (List.replicate 7 smallFrame)).link.cts = true ∧
      (fullReplies (List.replicate 8 smallFrame)).link.cts = false ∧
      (fullReplies (List.replicate 8 smallFrame)).link.inbound.length ≤ 8 ∧
      (after (.frameReceived smallFrame.bytes)
        (fullReplies (List.replicate 7 smallFrame))).link.cts = false := by decide +kernel

theorem witness_HostLost_and_EndOfFrame :
    watched.link.watch = some 1 ∧ watched.link.watchFrom = some 0 ∧ watched.link.hostLost = false ∧
      (after .hostLost watched).link.hostLost = true ∧ (after .hostLost watched).now = 1000 ∧
      (transmit State.reset).link.sending = some (false, noticeFrame State.reset 0) ∧
      (after .transmitFrameEnd (transmit State.reset)).link.sending = none := by decide +kernel

theorem witness_MalformedOrders :
    (0#8).toNat = 0 ∧ 0x35 < (0x36#8).toNat ∧ Takes ⟨0x36, 7, []⟩ State.reset ∧
      orderFrame (.createStory 7 []) = some ⟨0x01, 7, []⟩ ∧ kindAssigned 0x01 = true ∧
      [0, 0, 0, 0].length < fixedLength 0x01 ∧ orderFrame (.restart 7 []) = some ⟨0x35, 7, []⟩ ∧
      ([] : List Byte).length < fixedLength 0x35 ∧ Takes ⟨0x35, 7, []⟩ State.reset :=
  ⟨by decide, by decide, reset_takes _, by decide, by decide, by decide, by decide, by decide,
    reset_takes _⟩

theorem witness_OrdersWait :
    orderFrame (.readClock 7 []) = some smallFrame ∧ 8 ≤ (fullReplies []).link.replies.length ∧
      (fullReplies [smallFrame]).link.inbound.head? = some smallFrame ∧
      (fullReplies []).link.inbound.head? ≠ some smallFrame ∧
      8 ≤ (fullReplies (List.replicate 8 ⟨0x10, 7, []⟩)).link.inbound.length ∧
      (fullReplies (List.replicate 8 ⟨0x10, 7, []⟩)).link.inbound.head? ≠ some smallFrame ∧
      ({ State.reset.link with held := some (.cold, 1) } : Link).held.isSome = true := by
  decide +kernel

theorem witness_RestartIsHeld :
    Comes 0x35 1 [2] State.reset ∧ Comes 0x35 1 [1] State.reset ∧ 2 ≤ u8 [2] 0 ∧ u8 [1] 0 = 1 ∧
      u8 [0] 0 = 0 ∧ said (.restart 7 [2]) State.reset = [8] ∧
      (after (.restart 7 [1]) State.reset).link.held = some (.warm, 7) :=
  ⟨comes _ _ _ _ (by decide) rfl, comes _ _ _ _ (by decide) rfl, by decide +kernel⟩

/-- A RESTART that is held with nothing more to send, over a story in FILING. -/
def heldRestart (c : StartCause) : State :=
  { oneStory 1 { plainStory with holding := .filing 0 } with
    link := { State.reset.link with held := some (c, 7) } }

theorem witness_Restarts :
    (heldRestart .cold).link.held = some (.cold, 7) ∧
      (heldRestart .warm).link.held = some (.warm, 7) ∧
      (heldRestart .warm).link.replies = [] ∧ (heldRestart .warm).link.sending = none ∧
      storyOf (heldRestart .warm) 1 = some { plainStory with holding := .filing 0 } ∧
      storyOf (after .restartMade (heldRestart .warm)) 1 = some { plainStory with cut := true } ∧
      (after .restartMade (heldRestart .cold)).stories = [] := by decide +kernel

/-- A WARM restart is held while terminal 31 rotates and channel 3 has two jobs and three results. -/
def heldWork : State :=
  let jobs := [⟨1, 0, []⟩, ⟨2, 0, []⟩]
  let done := List.replicate 3 ⟨9, 0, .done, 0, 0, .notApplicable⟩
  { heldRestart .warm with
    screens := State.reset.screens.set 31
      { Screen.reset with mode := .rotating ⟨[0, 63], 5, false, 2, 0⟩ }
    channels := State.reset.channels.set 3
      { Channel.reset with jobs := jobs, finished := done, threshold := 64 }
    now := 900 }

theorem witness_WarmKeepsModes :
    heldWork.link.held = some (.warm, 7) ∧ heldWork.link.replies = [] ∧
      heldWork.link.sending = none ∧ heldWork.screens[(0 : Fin 32)].mode = .normal ∧
      heldWork.screens[(31 : Fin 32)].mode = .rotating ⟨[0, 63], 5, false, 2, 0⟩ ∧
      heldWork.channels[(0 : Fin 4)].jobs = [] ∧
      heldWork.channels[(3 : Fin 4)].jobs = ⟨1, 0, []⟩ :: [⟨2, 0, []⟩] ∧
      (after .restartMade heldWork).screens[31].mode = .rotating ⟨[0, 63], 5, false, 2, 900⟩ ∧
      (after .restartMade heldWork).channels[3].finished =
        [⟨9, 0, .done, 0, 0, .notApplicable⟩, ⟨9, 0, .done, 0, 0, .notApplicable⟩,
          ⟨1, 0, .cancelled, 0, 0, .notSent⟩, ⟨2, 0, .cancelled, 0, 0, .notApplicable⟩] := by
  decide +kernel

/-- Channel 3 sends the first byte of its FIFO when a RESTART, held with nothing more to send, is made. -/
def heldSending (c : StartCause) : State :=
  { heldRestart c with
    channels := State.reset.channels.set 3
      { Channel.reset with
        fifo := [⟨0x41, false, .plain, 0⟩], sending := .busy ⟨0x41, false, .plain, 0⟩ true } }

/-- R151: the byte is finished, and with READY low nothing follows it. -/
theorem witness_RestartsFinishTheByte :
    (heldSending .cold).channels[(3 : Fin 4)].sending = .busy ⟨0x41, false, .plain, 0⟩ true ∧
      (heldSending .cold).channels[(0 : Fin 4)].sending = .rest ∧
      (after .restartMade (heldSending .cold)).channels[3].sending =
        .busy ⟨0x41, false, .plain, 0⟩ false ∧
      (after .restartMade (heldSending .cold)).channels[3].fifo = [] ∧
      (after .restartMade (heldSending .warm)).channels[3].sending =
        .busy ⟨0x41, false, .plain, 0⟩ false ∧
      (after .powerOn (heldSending .warm)).channels[3].sending =
        .busy ⟨0x41, false, .plain, 0⟩ false ∧
      (after (.typesetterByteSent 3) (after .restartMade (heldSending .cold))).channels[3].sending =
        .rest := by decide +kernel

theorem witness_LinkWatch :
    Comes 0x33 1 [61] State.reset ∧ Comes 0x33 1 [1] watched ∧ State.reset.link.watch = none ∧
      watched.link.watch = some 1 ∧ said (.setLinkWatch 7 [61]) State.reset = [1, 60] ∧
      said (.setLinkWatch 7 [0]) State.reset = [1, 1] ∧
      said (.setLinkWatch 7 [5]) watched = [3, 1] :=
  ⟨comes _ _ _ _ (by decide) rfl, ⟨by decide, rfl, by decide, .inl rfl⟩, by decide +kernel⟩

/-! ### Witnesses: stories (spec/01) -/

/-- A block of n characters. -/
def blockOf (n : Nat) : Block := ⟨List.replicate n 0x41, false⟩

theorem witness_InsertionsAndDeletions :
    Memory.wf [(0, blockOf 240)] ∧ (∀ e ∈ [((0 : Nat), blockOf 240)], e.1 < 8192) ∧
      ChainSound [(0, blockOf 240)] [0] ∧ 240 ≤ chainLength [(0, blockOf 240)] [0] ∧
      ChainSound [(0, blockOf 1)] [0] ∧ Memory.wf [(0, blockOf 1)] ∧
      0 < chainLength [(0, blockOf 1)] [0] ∧
      insertChar [(0, blockOf 240)] [0] 240 0x42 =
        .made [(0, ⟨(blockOf 120).chars, true⟩), (1, ⟨(blockOf 120).chars ++ [0x42], true⟩)] [0, 1] ∧
      deleteChar [(0, blockOf 1)] [0] 0 = ([], [], true) := by
  unfold ChainSound; decide +kernel

theorem witness_Insertion_refused :
    ChainSound [] [] ∧ (∀ m : Memory, atCap m [] 0 = decide (256 ≤ 0)) ∧
      insertChar ((List.range 8192).map fun b => (b, blockOf 240)) [] 0 0x42 = .poolEmpty ∧
      Memory.freeCount ((List.range 8192).map fun b => (b, blockOf 240)) = 0 := by
  refine ⟨?_, fun m => ?_, ?_, ?_⟩
  · unfold ChainSound; decide
  · rfl
  · decide +kernel
  · decide +kernel

/-- A chain of 256 blocks, the first of them full. -/
def longChain : Memory := (0, blockOf 240) :: (List.range 255).map fun b => (b + 1, blockOf 1)

theorem witness_ChangesFlagTheirBlocks :
    Memory.wf [(0, blockOf 240)] ∧ ChainSound [(0, blockOf 240)] [0] ∧
      insertChar [(0, blockOf 240)] [0] 240 0x42 =
        .made [(0, ⟨(blockOf 120).chars, true⟩), (1, ⟨(blockOf 120).chars ++ [0x42], true⟩)] [0, 1] ∧
      deleteChar [(0, blockOf 240)] [0] 0 = ([(0, ⟨(blockOf 239).chars, true⟩)], [0], false) := by
  unfold ChainSound; decide +kernel

/-- The four ways of an insertion: into an empty chain, into a block with room, and into either half of a full block with block 0 free below it. -/
theorem witness_InsertionsTakeTheNamedBlock :
    (Memory.wf [(1, blockOf 240), (2, blockOf 1)] ∧
      (∀ e ∈ [((1 : Nat), blockOf 240), (2, blockOf 1)], e.1 < 8192) ∧
      ChainSound [(1, blockOf 240), (2, blockOf 1)] [1, 2]) ∧
      insertChar [] [] 0 0x42 = .made [(0, ⟨[0x42], true⟩)] [0] ∧
      chainLength [(1, blockOf 240), (2, blockOf 1)] [1] + 1 = 241 ∧
      fill [(1, blockOf 240), (2, blockOf 1)] 2 = 1 ∧
      insertChar [(1, blockOf 240), (2, blockOf 1)] [1, 2] 241 0x42 =
        .made [(1, blockOf 240), (2, ⟨[0x41, 0x42], true⟩)] [1, 2] ∧
      insertChar [(1, blockOf 240), (2, blockOf 1)] [1, 2] 120 0x42 =
        .made [(0, ⟨(blockOf 120).chars, true⟩), (1, ⟨(blockOf 120).chars ++ [0x42], true⟩),
          (2, blockOf 1)] [1, 0, 2] ∧
      insertChar [(1, blockOf 240), (2, blockOf 1)] [1, 2] 121 0x42 =
        .made [(0, ⟨0x41 :: 0x42 :: (blockOf 119).chars, true⟩), (1, ⟨(blockOf 120).chars, true⟩),
          (2, blockOf 1)] [1, 0, 2] := by
  unfold ChainSound; decide +kernel

/-- R22, log entry 19: a chain of 256 blocks that also meets an empty pool answers the cap. -/
theorem test_cap_before_empty_pool :
    insertChar (longChain ++ (List.range 7936).map fun b => (b + 256, blockOf 1)) (List.range 256) 0
        0x42 = .atCap ∧
      Memory.freeCount (longChain ++ (List.range 7936).map fun b => (b + 256, blockOf 1)) = 0 := by
  decide +kernel

theorem witness_CreateStory :
    Comes 0x01 5 [63, 2, 15, 1, 0] State.reset ∧ Comes 0x01 5 [63, 2, 15, 1, 1, 0x41] State.reset ∧
      textAt [63, 2, 15, 1, 0] 5 0 = some [] ∧ textAt [63, 2, 15, 1, 1, 0x41] 5 1 = some [0x41] ∧
      64 ≤ u8 [64, 0, 0, 0, 1, 0x41] 0 ∧ 3 ≤ u8 [0, 3, 0, 0, 1, 0x41] 1 ∧
      16 ≤ u8 [0, 0, 16, 0, 1, 0x41] 2 ∧ u8 [63, 2, 15, 1, 1, 0x41] 1 = Priority.routine.code ∧
      freeStory? State.reset = some 1 ∧
      freeStory? { State.reset with stories := (List.range 1024).map fun i => (i + 1, plainStory) } =
        none ∧
      said (.createStory 7 [63, 2, 15, 1, 1, 0x41]) State.reset = [0, 0, 1, 0, 0] ∧
      said (.createStory 7 [63, 2, 15, 1, 0]) State.reset = [9] ∧
      said (.createStory 7 [63, 3, 15, 1, 1, 0x41]) State.reset = [8] :=
  ⟨comes _ _ _ _ (by decide) rfl, comes _ _ _ _ (by decide) rfl, by decide +kernel⟩

theorem witness_FreshIdentifier :
    Tab.wf (oneStory 1 plainStory).stories ∧ freeStory? (oneStory 1 plainStory) = some 2 ∧
      freeStory? (oneStory 2 plainStory) = some 1 := by decide +kernel

theorem witness_SetFlags :
    Comes 0x03 4 [4, 0, 1, 0] State.reset ∧ Comes 0x03 4 [4, 0, 1, 0] (oneStory 1024 plainStory) ∧
      u16 [0, 0, 1, 0] 0 = 0 ∧ 1024 < u16 [4, 1, 1, 0] 0 ∧ u16 [4, 0, 1, 0] 0 = 1024 ∧
      storyOf State.reset 1024 = none ∧ storyOf (oneStory 1024 plainStory) 1024 = some plainStory ∧
      said (.setFlags 7 [0, 0, 1, 0]) State.reset = [8] ∧
      said (.setFlags 7 [4, 0, 1, 0]) State.reset = [5] ∧
      said (.setFlags 7 [4, 0, 1, 0]) (oneStory 1024 plainStory) = [0, 0, 0] ∧
      (after (.setFlags 7 [4, 0, 1, 0]) (oneStory 1024 plainStory)).stories =
        [(1024, { plainStory with garbled := true })] :=
  ⟨comes _ _ _ _ (by decide) rfl, comes _ _ _ _ (by decide) rfl, by decide +kernel⟩

/-- WRITE TEXT to story 1 at offset 0: a presence byte and version, a delete count, and a text. -/
def writeBody (seen version off del n : Byte) (text : List Byte) : List Byte :=
  [0, 1, seen, 0, version, 0, off, 0, del, 0, n] ++ text

theorem witness_WriteText :
    Comes 0x04 11 (writeBody 0 0 0 0 1 [0x41]) (oneStory 1 plainStory) ∧
      textAt (writeBody 0 0 0 0 1 [0x41]) 11 1 = some [0x41] ∧
      storyOf (oneStory 1 plainStory) 1 = some plainStory ∧
      (1000 < u16 [0, 1, 0, 0, 0, 0, 0, 0, 0, 3, 0xE9] 9 ∧
        textAt ([0, 1, 0, 0, 0, 0, 0, 0, 0, 3, 0xE9] ++ List.replicate 1001 0x41) 11 1001 =
          some (List.replicate 1001 0x41)) ∧
      versionStale (optVersion (writeBody 1 1 0 0 0 []) 2) plainStory = true ∧
      versionStale (optVersion (writeBody 1 0 0 0 0 []) 2) plainStory = false ∧
      said (.writeText 7 (writeBody 1 1 0 0 0 [])) (oneStory 1 plainStory) = [4, 0, 0, 0, 0] ∧
      said (.writeText 7 (writeBody 1 0 0 0 1 [0x41]))
        (oneStory 1 { plainStory with holding := .filing 0 }) = [3] ∧
      said (.writeText 7 (writeBody 1 0 9 0 2 [0x41, 0x0D])) (oneStory 1 plainStory) =
        [1, 0, 0, 0, 2, 0, 1] ∧
      said (.writeText 7 (writeBody 0 0 0 0 0 [])) (oneStory 1 plainStory) = [0, 0, 0, 0, 0, 0, 0] :=
  ⟨comes _ _ _ _ (by decide) rfl, by decide +kernel⟩

/-- Every block but block 0 is in use elsewhere. -/
def lastBlock : State :=
  { withText [0x41] plainStory with memory := (List.range 8192).map fun b => (b, ⟨[0x41], false⟩) }

theorem witness_WriteText_room :
    noRoom (withText [0x41] plainStory) { plainStory with chain := [0] } 1 1000 = false ∧
      noRoom lastBlock { plainStory with chain := [0] } 0 1000 = true := by decide +kernel

theorem witness_WriteText_replaces :
    StoreSound (withText [0x41, 0x42] plainStory) ∧
      storyOf (withText [0x41, 0x42] plainStory) 1 = some { plainStory with chain := [0] } ∧
      lengthOf (withText [0x41, 0x42] plainStory) { plainStory with chain := [0] } = 2 ∧
      noRoom (withText [0x41, 0x42] plainStory) { plainStory with chain := [0] } 1 1 = false ∧
      textOf (writeText 1 1 1 [0x43] (withText [0x41, 0x42] plainStory))
        { plainStory with chain := [0] } = [0x41, 0x43] ∧
      Memory.freeCount (withText [0x41, 0x42] plainStory).memory = 8191 ∧
      (∀ other : Nat, other ≠ 1 → storyOf (withText [0x41, 0x42] plainStory) other = none) := by
  refine ⟨⟨by decide, by decide, by decide, by decide, ?_, ?_⟩, by decide +kernel, by decide +kernel,
    by decide +kernel, by decide +kernel, by decide +kernel, fun o h => ?_⟩
  · intro b
    have h1 : chainBlocks (withText [0x41, 0x42] plainStory) = [0] := rfl
    have h2 : (withText [0x41, 0x42] plainStory).memory.map (·.1) = [0] := rfl
    rw [h1, h2]
  · intro e he
    have : e = (1, { plainStory with chain := [0] }) := by simpa [withText, oneStory] using he
    subst this; unfold ChainSound; decide
  · simp [storyOf, withText, oneStory, Tab.get?, Ne.symm h]

theorem witness_SpikeStory :
    Comes 0x06 5 [0, 1, 1, 0, 0] (withText [0x41] plainStory) ∧
      Comes 0x06 5 [4, 0, 0, 0, 0] (oneStory 1024 plainStory) ∧
      storyOf (withText [0x41] plainStory) 1 = some { plainStory with chain := [0] } ∧
      versionStale (optVersion [0, 1, 1, 0, 1] 2) plainStory = true ∧
      versionStale (optVersion [0, 1, 1, 0, 0] 2) plainStory = false ∧
      MemoryForm (withText [0x41] plainStory) ∧
      said (.spikeStory 7 [0, 1, 1, 0, 1]) (withText [0x41] plainStory) = [4, 0, 0] ∧
      said (.spikeStory 7 [0, 1, 0, 0, 0]) (oneStory 1 { plainStory with holding := .filing 3 }) =
        [3] ∧
      said (.spikeStory 7 [0, 1, 1, 0, 0]) (withText [0x41] plainStory) = [0, 0, 1] ∧
      (after (.spikeStory 7 [0, 1, 1, 0, 0]) (withText [0x41] plainStory)).memory = [] ∧
      (after (.spikeStory 7 [0, 1, 1, 0, 0]) (withText [0x41] plainStory)).stories = [] :=
  ⟨comes _ _ _ _ (by decide) rfl, comes _ _ _ _ (by decide) rfl, by unfold MemoryForm; decide +kernel⟩

/-- Pressure RAISED, the reserve at this count. -/
def pressed (reserve : Nat) (s : State) : State := { s with pressure := true, reserve := reserve }

/-- R8: a rise to above the reserve raises POOL with RECOVERED; a rise to the reserve does not. -/
theorem witness_SpikeStory_recovers :
    Memory.freeCount (after (.spikeStory 7 [0, 1, 0, 0, 0])
        (pressed 8191 (withText [0x41] plainStory))).memory = 8192 ∧
      (after (.spikeStory 7 [0, 1, 0, 0, 0]) (pressed 8191 (withText [0x41] plainStory))).notices.pool =
        ⟨8192, 8191, some .recovered⟩ ∧
      (after (.spikeStory 7 [0, 1, 0, 0, 0]) (pressed 8191 (withText [0x41] plainStory))).pressure =
        false ∧
      (after (.spikeStory 7 [0, 1, 0, 0, 0]) (pressed 8192 (withText [0x41] plainStory))).pressure =
        true ∧
      (after (.spikeStory 7 [0, 1, 0, 0, 0]) (pressed 8191 (oneStory 1 plainStory))).pressure = true := by
  decide +kernel

/-- Story 1 at a terminal: its reference pane shows it. -/
def refOpen (t : Fin 32) (s : State) : State :=
  { s with panes := s.panes.set t ⟨none, some ⟨1, 0⟩⟩ }

theorem test_spike_clears_reference_panes :
    refShows (refOpen 31 (withText [0x41] plainStory)) 31 1 = true ∧
      refShows (refOpen 31 (withText [0x41] plainStory)) 0 1 = false ∧
      (after (.spikeStory 7 [0, 1, 0, 0, 0]) (refOpen 31 (withText [0x41] plainStory))).panes[31] =
        ⟨none, none⟩ := by decide +kernel

/-- Story 1 with one flagged block. -/
def flagged (h : Holding) : State :=
  { withText [0x41] { plainStory with holding := h } with memory := [(0, ⟨[0x41], true⟩)] }

theorem witness_ClearMarks :
    Comes 0x07 5 [0, 1, 0, 0, 0] (flagged .idle) ∧
      storyOf (flagged .idle) 1 = some { plainStory with chain := [0] } ∧
      MemoryForm (flagged .idle) ∧ (∀ c, Holding.idle ≠ .setting c) ∧
      versionStale (optVersion [0, 1, 1, 0, 1] 2) plainStory = true ∧
      said (.clearMarks 7 [0, 1, 1, 0, 1]) (flagged .idle) = [4, 0, 0] ∧
      said (.clearMarks 7 [0, 1, 0, 0, 0]) (flagged (.setting 3)) = [3] ∧
      said (.clearMarks 7 [0, 1, 0, 0, 0]) (flagged (.editing 31)) = [0, 0, 0, 0, 1] ∧
      (after (.clearMarks 7 [0, 1, 0, 0, 0]) (flagged .idle)).memory = [(0, ⟨[0x41], false⟩)] :=
  ⟨comes _ _ _ _ (by decide) rfl, by unfold MemoryForm; decide +kernel⟩

theorem witness_Reads :
    Comes 0x02 2 [0, 1] State.reset ∧ Comes 0x05 6 [0, 1, 0, 0, 0, 1] State.reset ∧
      Comes 0x09 1 [15] State.reset ∧ Comes 0x0B 4 [63, 0, 0, 0] State.reset ∧
      Comes 0x11 0 [] State.reset ∧ Comes 0x17 1 [31] State.reset ∧ Comes 0x1F 1 [31] State.reset ∧
      Comes 0x23 1 [7] State.reset ∧ Comes 0x26 0 [] State.reset ∧ Comes 0x2D 1 [3] State.reset ∧
      Comes 0x2F 1 [3] State.reset ∧ Comes 0x31 0 [] State.reset ∧ Comes 0x34 0 [] State.reset := by
  refine ⟨?_, ?_, ?_, ?_, ?_, ?_, ?_, ?_, ?_, ?_, ?_, ?_, ?_⟩ <;>
    exact comes _ _ _ _ (by decide) rfl

theorem witness_ReadText :
    Comes 0x05 6 [0, 1, 0, 1, 0xFF, 0] (withText [0x41, 0x42] plainStory) ∧
      storyOf (withText [0x41, 0x42] plainStory) 1 = some { plainStory with chain := [0] } ∧
      min (u16 [0, 1, 0, 9, 0, 1] 2) 2 = 2 ∧ min (u16 [0, 1, 0, 1, 0xFF, 0] 4) 1000 = 1000 ∧
      said (.readText 7 [0, 1, 0, 1, 0xFF, 0]) (withText [0x41, 0x42] plainStory) =
        [1, 0, 1, 0, 2, 0, 0, 0, 1, 0x42] ∧
      said (.readText 7 [0, 1, 0, 0, 0, 1]) (withText [0x41, 0x42] plainStory) =
        [0, 0, 0, 0, 2, 0, 0, 0, 1, 0x41] ∧
      said (.readStory 7 [4, 1]) State.reset = [8] ∧ said (.readStory 7 [4, 0]) State.reset = [5] ∧
      (said (.readStory 7 [0, 1]) (withText [0x41] plainStory)).length = 1 + 68 :=
  ⟨comes _ _ _ _ (by decide) rfl, by decide +kernel⟩

/-! ### Witnesses: desks, baskets, messages (spec/02) -/

/-- R33, Table 2-2: the key-5 terminal, and the key-0 story that only key-0 terminals see. -/
theorem test_table_2_2 :
    (viewCheck 5 { plainStory with key := 0 } = true ∧
      changeCheck 5 { plainStory with key := 0 } = true) ∧
      (viewCheck 5 { plainStory with key := 0, embargo := true } = false ∧
        changeCheck 5 { plainStory with key := 0, embargo := true } = true) ∧
      (viewCheck 5 { plainStory with key := 5, embargo := true } = true ∧
        changeCheck 5 { plainStory with key := 5, embargo := true } = true) ∧
      (viewCheck 5 { plainStory with key := 7 } = true ∧
        changeCheck 5 { plainStory with key := 7 } = false) ∧
      (viewCheck 5 { plainStory with key := 7, embargo := true } = false ∧
        viewCheck 0 { plainStory with key := 7, embargo := true } = true) := by decide

/-- Story 1 in the edit pane of a terminal, the cursor at an offset. -/
def editing (t : Fin 32) (cursor : Nat) (focus : Focus) (text : List Byte) : State :=
  let s := attach t (withText text { plainStory with holding := .editing t })
  { s with panes := s.panes.set t ⟨some ⟨1, 0, cursor, .insert, focus, false⟩, none⟩ }

/-- Story 1 as terminal 31 edits it. -/
def editedStory : Story := { plainStory with chain := [0], holding := .editing 31 }

/-- The same with the desk's right to view basket 0. -/
def mayView (s : State) : State :=
  { s with desks := s.desks.set 0 ⟨[], Vector.replicate 64 ⟨true, true, true⟩⟩ }

theorem witness_PaneRecheck :
    sessionFails (editing 31 0 .edit [0x41]) 31 none = true ∧
      refFails (attach 0 (refOpen 0 (withText [0x41] plainStory))) 0 (some 1) = true ∧
      sessionFails (mayView (editing 31 0 .edit [0x41])) 31 none = false ∧
      refFails (mayView (editing 31 0 .edit [0x41])) 31 none = false ∧
      (recheck none 31 (editing 31 0 .edit [0x41])).panes[31] = ⟨none, none⟩ ∧
      (31 : Fin 32) ≠ 0 := by decide +kernel

/-- SET DESK without a name and with every right. -/
def deskBody (d : Byte) : List Byte := [d, 0] ++ List.replicate 64 7

theorem witness_SetDesk :
    Comes 0x08 2 [16, 0] State.reset ∧ Comes 0x08 2 (deskBody 15) State.reset ∧
      16 ≤ u8 [16, 0] 0 ∧ (u8 [15, 0] 0 < 16 ∧ [15, 0].length < 2 + u8 [15, 0] 1 + 64) ∧
      2 + u8 (deskBody 15) 1 + 64 ≤ (deskBody 15).length ∧ u8 (deskBody 15) 0 = 15 ∧
      said (.setDesk 7 [16, 0]) State.reset = [8] ∧ said (.setDesk 7 [15, 0]) State.reset = [9] ∧
      said (.setDesk 7 (deskBody 15)) State.reset = [0, 0, 0, 0, 0] ∧
      (after (.setDesk 7 (deskBody 15)) State.reset).desks[15].row[63] = ⟨true, true, true⟩ :=
  ⟨comes _ _ _ _ (by decide) rfl, comes _ _ _ _ (by decide) rfl, by decide +kernel⟩

/-- Terminal 31 at desk 0: its session is on a story of basket 0 and its reference pane shows one of basket 63. -/
def twoPanes : State :=
  let s := editing 31 0 .edit [0x41]
  { s with
    stories := s.stories ++ [(2, { plainStory with basket := 63 })]
    panes := s.panes.set 31 ⟨some ⟨1, 0, 0, .insert, .reference, false⟩, some ⟨2, 0⟩⟩ }

/-- Desk 0 gets the rights of one basket only. -/
def oneRight (b : Fin 64) (s : State) : State :=
  { s with desks := s.desks.set 0 ⟨[], (Vector.replicate 64 ⟨false, false, false⟩).set b ⟨true, true, true⟩⟩ }

theorem witness_PaneRecheck_mixed :
    (sessionFails (oneRight 63 twoPanes) 31 none = true ∧
        refFails (oneRight 63 twoPanes) 31 none = false) ∧
      (refFails (oneRight 0 twoPanes) 31 none = true ∧
        sessionFails (oneRight 0 twoPanes) 31 none = false) ∧
      (recheck none 31 (oneRight 63 twoPanes)).panes[31] = ⟨none, some ⟨2, 0⟩⟩ ∧
      (recheck none 31 (oneRight 0 twoPanes)).panes[31] =
        ⟨some ⟨1, 0, 0, .insert, .edit, false⟩, none⟩ := by decide +kernel

/-- SET DESK of desk 0 with the rights of one basket only. -/
def oneRightBody (b : Nat) : List Byte := [0, 0] ++ (List.replicate 64 0).set b 7

theorem witness_SetDesk_recheck :
    Comes 0x08 2 (oneRightBody 63) twoPanes ∧
      (twoPanes.lines[(31 : Fin 32)].attached = true ∧ twoPanes.lines[(31 : Fin 32)].desk = 0) ∧
      ¬ twoPanes.lines[(0 : Fin 32)].attached = true ∧
      said (.setDesk 7 (oneRightBody 63)) twoPanes = [0, 0, 1, 0, 0] ∧
      said (.setDesk 7 (oneRightBody 0)) twoPanes = [0, 0, 0, 0, 1] ∧
      said (.setDesk 7 (deskBody 0)) twoPanes = [0, 0, 0, 0, 0] ∧
      (after (.setDesk 7 (deskBody 0)) twoPanes).panes[31] = twoPanes.panes[31] ∧
      (after (.setDesk 7 (oneRightBody 0)) twoPanes).notices.terminal[31].windowClosed = true ∧
      (after (.setDesk 7 (oneRightBody 63)) twoPanes).panes[31] = ⟨none, some ⟨2, 0⟩⟩ :=
  ⟨comes _ _ _ _ (by decide) rfl, by decide +kernel⟩

/-- SET BASKET without a default setting and without a name. -/
def basketBody (b e p face : Byte) : List Byte := [b, e, p, face] ++ List.replicate 11 0

theorem witness_SetBasket :
    Comes 0x0A 15 (basketBody 63 4 0 0) State.reset ∧ Comes 0x0A 15 (basketBody 63 4 1 7) State.reset ∧
      textAt (basketBody 63 4 0 0) 15 0 = some [] ∧ u8 (basketBody 63 4 0 0) 14 = 0 ∧
      64 ≤ u8 (basketBody 64 4 0 0) 0 ∧ 5 ≤ u8 (basketBody 63 5 0 0) 1 ∧
      (u8 (basketBody 63 4 1 8) 2 ≠ 0 ∧ 8 ≤ u8 (basketBody 63 4 1 8) 3) ∧
      settingAt (basketBody 63 4 1 7) 3 = some ⟨7, 0, 0, 0, 0, 0⟩ ∧
      said (.setBasket 7 (basketBody 63 5 0 0)) State.reset = [8] ∧
      said (.setBasket 7 (basketBody 63 4 0 0)) State.reset = [0] ∧
      (after (.setBasket 7 (basketBody 63 4 1 7)) State.reset).baskets[63].default =
        some ⟨7, 10, 18, 10, 0, 0⟩ :=
  ⟨comes _ _ _ _ (by decide) rfl, comes _ _ _ _ (by decide) rfl, by decide +kernel⟩

/-- MOVE STORY of story 1 to a basket, with an acting terminal, an expected basket and the release flag. -/
def moveBody (target acting basket release : Byte) : List Byte :=
  [0, 1, target, acting, basket, 0, 0, 0, release]

theorem witness_MoveStory :
    Comes 0x0C 9 (moveBody 63 0xFF 0xFF 0) (oneStory 1 plainStory) ∧
      Comes 0x0C 9 (moveBody 63 31 0xFF 1) (editing 31 0 .edit [0x41]) ∧
      expectedBasketBad (moveBody 63 0xFF 0xFF 0) = false ∧
      expectedBasketBad (moveBody 63 31 63 1) = false ∧
      (u8 (moveBody 63 32 0xFF 0) 3 ≠ 0xFF ∧ 32 ≤ u8 (moveBody 63 32 0xFF 0) 3) ∧
      (oneStory 1 plainStory).lines[(31 : Fin 32)].attached = false ∧
      (editing 31 0 .edit [0x41]).lines[(31 : Fin 32)].attached = true ∧
      moveStale (moveBody 63 0xFF 1 0) plainStory = true ∧
      moveStale (moveBody 63 0xFF 0 0) plainStory = false ∧
      mayMove (editing 31 0 .edit [0x41]) (some 31) plainStory 63 = false ∧
      mayMove (mayView (editing 31 0 .edit [0x41])) (some 31) plainStory 63 = true ∧
      mayMove (oneStory 1 plainStory) none plainStory 63 = true ∧
      (∀ t : Fin 32, (oneStory 1 plainStory).panes[t].session = none) ∧
      said (.moveStory 7 (moveBody 63 32 0xFF 0)) (oneStory 1 plainStory) = [8] ∧
      said (.moveStory 7 (moveBody 63 31 0xFF 0)) (oneStory 1 plainStory) = [5] ∧
      said (.moveStory 7 (moveBody 63 0xFF 1 0)) (oneStory 1 plainStory) = [4, 0, 0, 0] ∧
      said (.moveStory 7 (moveBody 63 31 0xFF 0)) (editing 31 0 .edit [0x41]) = [7] ∧
      said (.moveStory 7 (moveBody 63 0xFF 0xFF 0)) (oneStory 1 { plainStory with holding := .filing 3 }) =
        [3, 1, 0x53] ∧
      said (.moveStory 7 (moveBody 63 31 0xFF 0)) (mayView (editing 31 0 .edit [0x41])) =
        [3, 2, 0x3F] ∧
      said (.moveStory 7 (moveBody 63 0xFF 0xFF 0)) (oneStory 1 plainStory) =
        [0, 63, 0, 0, 0, 0, 0xFF, 0xFF, 0xFF] :=
  ⟨comes _ _ _ _ (by decide) rfl, comes _ _ _ _ (by decide) rfl, by decide +kernel⟩

theorem witness_MoveStory_identities :
    u16 [0, 0, 63, 0xFF, 0xFF, 0, 0, 0, 0] 0 = 0 ∧ 1024 < u16 [4, 1, 63, 0xFF, 0xFF, 0, 0, 0, 0] 0 ∧
      64 ≤ u8 (moveBody 64 0xFF 0xFF 0) 2 ∧
      (u8 (moveBody 63 0xFF 64 0) 4 ≠ 0xFF ∧ 64 ≤ u8 (moveBody 63 0xFF 64 0) 4) ∧
      (u8 (moveBody 63 0xFF 63 0) 2 < 64 ∧ u8 (moveBody 63 0xFF 63 0) 4 < 64) ∧
      storyOf State.reset 1 = none ∧
      said (.moveStory 7 [4, 1, 63, 0xFF, 0xFF, 0, 0, 0, 0]) State.reset = [8] ∧
      said (.moveStory 7 (moveBody 64 0xFF 0xFF 0)) State.reset = [8] ∧
      said (.moveStory 7 (moveBody 63 0xFF 64 0)) State.reset = [8] ∧
      said (.moveStory 7 (moveBody 63 32 63 0)) State.reset = [5] := by decide +kernel

theorem test_move_with_release :
    said (.moveStory 7 (moveBody 63 31 0xFF 1)) (mayView (editing 31 0 .edit [0x41])) =
      [0, 63, 0, 0, 0, 0, 0xFF, 0xFF, 0xFF, 1] ∧
    (after (.moveStory 7 (moveBody 63 31 0xFF 1)) (mayView (editing 31 0 .edit [0x41]))).panes[31] =
      ⟨none, none⟩ := by decide +kernel

/-- The same session with a change made in it, the face of its story loaded. -/
def changedSession : State :=
  let s := mayView (editing 31 0 .edit [0x41])
  { s with
    panes := s.panes.set 31 ⟨some ⟨1, 0, 0, .insert, .edit, true⟩, none⟩
    faces := s.faces.set 0 ⟨true, Vector.replicate 95 10, 5, 20, 1⟩ }

theorem witness_MoveStoryCloses :
    Comes 0x0C 9 (moveBody 63 31 0xFF 1) changedSession ∧ u8 (moveBody 63 31 0xFF 1) 8 ≠ 0 ∧
      storyOf changedSession 1 = some { plainStory with chain := [0], holding := .editing 31 } ∧
      changedSession.panes[(31 : Fin 32)].session = some ⟨1, 0, 0, .insert, .edit, true⟩ ∧
      (mayView (editing 31 0 .edit [0x41])).panes[(31 : Fin 32)].session =
        some ⟨1, 0, 0, .insert, .edit, false⟩ ∧
      (∀ x : Fin 32, x ≠ 31 → changedSession.panes[x].session = none) ∧
      (∀ x : Fin 32, changedSession.panes[x].ref = none) ∧
      mayMove changedSession (some 31) plainStory 63 = true ∧
      mayMove changedSession (some 31) plainStory 0 = true ∧
      inFitQueue changedSession 1 = false ∧ changedSession.fit.list.length < 8 ∧
      changedSession.faces[plainStory.setting.face].loaded = true ∧
      (after (.moveStory 7 (moveBody 63 31 0xFF 1)) changedSession).fit.list = [⟨1, 0⟩] ∧
      (after (.moveStory 7 (moveBody 0 31 0xFF 1)) changedSession).baskets[0].list = [1] :=
  ⟨comes _ _ _ _ (by decide) rfl, by decide +kernel⟩

/-- The session with a change in it fails the re-check under the rights of basket 63, and its story is offered. -/
theorem witness_PaneRecheck_modified :
    sessionFails (oneRight 63 changedSession) 31 none = true ∧
      storyOf changedSession 1 = some editedStory ∧
      (recheck none 31 (oneRight 63 changedSession)).fit.list = [⟨1, 0⟩] ∧
      (storyOf (recheck none 31 (oneRight 63 changedSession)) 1).map (fun st => (st.holding, st.fit.status)) =
        some (.idle, .pending) := by decide +kernel

/-- Desk 0 may take stories from and to both baskets but view basket 0 alone; terminals 30 and 29, of which 30 is attached, show story 1 in their reference panes. -/
def movingPanes (s : State) : State :=
  { s with
    lines := s.lines.set 30 { Line.reset with attached := true }
    panes := (s.panes.set 30 ⟨none, some ⟨1, 0⟩⟩).set 29 ⟨none, some ⟨1, 0⟩⟩ }

/-- R37, R35: the reference pane of an attached terminal that may not view the target basket is cleared, the detached one's stands; back in a basket it may view, it stands. -/
theorem witness_MoveStory_recheck :
    let idle := oneRight 0 (movingPanes (withText [0x41] plainStory))
    let held := oneRight 0 (movingPanes changedSession)
    (∀ t : Fin 32, idle.panes[t].session = none) ∧ idle.lines[(29 : Fin 32)].attached = false ∧
      (after (.moveStory 7 (moveBody 63 0xFF 0xFF 0)) idle).panes[30] = ⟨none, none⟩ ∧
      (after (.moveStory 7 (moveBody 63 0xFF 0xFF 0)) idle).notices.terminal[30].windowClosed = true ∧
      (after (.moveStory 7 (moveBody 63 0xFF 0xFF 0)) idle).panes[29] = ⟨none, some ⟨1, 0⟩⟩ ∧
      (after (.moveStory 7 (moveBody 0 0xFF 0xFF 0)) idle).panes[30] = ⟨none, some ⟨1, 0⟩⟩ ∧
      mayMove held (some 31) plainStory 0 = true ∧
      (after (.moveStory 7 (moveBody 0 31 0xFF 1)) held).panes[30] = ⟨none, some ⟨1, 0⟩⟩ ∧
      (after (.moveStory 7 (moveBody 0 31 0xFF 1)) held).panes[31] = ⟨none, none⟩ := by
  decide +kernel

theorem witness_SetStoryKey :
    Comes 0x0D 7 [0, 1, 15, 1, 1, 0, 0] (oneStory 1 plainStory) ∧
      storyOf (oneStory 1 plainStory) 1 = some plainStory ∧ 16 ≤ u8 [0, 1, 16, 0, 0, 0, 0] 2 ∧
      (u8 [0, 1, 15, 0, 1, 16, 0] 4 ≠ 0 ∧ 16 ≤ u8 [0, 1, 15, 0, 1, 16, 0] 5) ∧
      said (.setStoryKey 7 [0, 1, 16, 0, 0, 0, 0]) (oneStory 1 plainStory) = [8, 0, 0] ∧
      said (.setStoryKey 7 [0, 1, 15, 1, 1, 0, 1]) (oneStory 1 plainStory) = [4, 0, 0] ∧
      said (.setStoryKey 7 [0, 1, 15, 1, 1, 0, 0]) (oneStory 1 plainStory) = [0, 0, 0] ∧
      said (.setStoryKey 7 [0, 0, 15, 1, 0, 0, 0]) (oneStory 1 plainStory) = [8] ∧
      said (.setStoryKey 7 [0, 2, 15, 1, 0, 0, 0]) (oneStory 1 plainStory) = [5] ∧
      storyOf (oneStory 1 plainStory) 2 = none ∧
      said (.setStoryKey 7 [0, 2, 16, 1, 0, 0, 0]) (oneStory 1 plainStory) = [8] ∧
      (after (.setStoryKey 7 [0, 1, 15, 1, 1, 0, 0]) (oneStory 1 plainStory)).stories =
        [(1, { plainStory with key := 15, embargo := true })] :=
  ⟨comes _ _ _ _ (by decide) rfl, by decide +kernel⟩

/-- Terminals 31 and 30, which may see every basket, show story 1, terminal 31 in its edit pane with key 3 and terminal 30 in its reference pane with key 0. -/
def keyedPanes : State :=
  let s := mayView (refOpen 30 (attach 30 (editing 31 0 .edit [0x41])))
  { s with lines := s.lines.set 31 { Line.reset with attached := true, key := 3 } }

/-- R40: the new key 15 shuts out the session with key 3; the reference pane of a terminal with key 0 stays. -/
theorem witness_SetStoryKey_recheck :
    Comes 0x0D 7 [0, 1, 15, 1, 0, 0, 0] keyedPanes ∧
      keyedPanes.lines[(31 : Fin 32)].attached = true ∧
      keyedPanes.lines[(29 : Fin 32)].attached = false ∧
      sessionFails (setStory 1 { editedStory with key := 15, embargo := true } keyedPanes) 31 (some 1) =
        true ∧
      sessionFails (setStory 1 { editedStory with key := 3, embargo := true } keyedPanes) 31 (some 1) =
        false ∧
      (after (.setStoryKey 7 [0, 1, 15, 1, 0, 0, 0]) keyedPanes).panes[31].session = none ∧
      (after (.setStoryKey 7 [0, 1, 15, 1, 0, 0, 0]) keyedPanes).notices.terminal[31].windowClosed =
        true ∧
      (after (.setStoryKey 7 [0, 1, 15, 1, 0, 0, 0]) keyedPanes).panes[30] = keyedPanes.panes[30] ∧
      (after (.setStoryKey 7 [0, 1, 3, 1, 0, 0, 0]) keyedPanes).panes[31] = keyedPanes.panes[31] ∧
      (storyOf (after (.setStoryKey 7 [0, 1, 15, 1, 0, 0, 0]) keyedPanes) 1).map (·.holding) =
        some .idle :=
  ⟨comes _ _ _ _ (by decide) rfl, by decide +kernel⟩

/-- A full message slot. -/
def slotFull (t : Fin 32) (s : State) : State := { s with slots := s.slots.set t (some ⟨[0x41], 0⟩) }

theorem witness_SendMessage :
    Comes 0x0E 4 [0, 31, 15, 1, 0x41] (attach 31 State.reset) ∧
      textAt [0, 31, 15, 1, 0x41] 4 1 = some [0x41] ∧ textAt [0, 31, 15, 0] 4 0 = some [] ∧
      16 ≤ u8 [0, 31, 16, 1, 0x41] 2 ∧ (u8 [0, 32, 0, 1, 0x41] 0 = 0 ∧ 32 ≤ u8 [0, 32, 0, 1, 0x41] 1) ∧
      (u8 [1, 16, 0, 1, 0x41] 0 = 1 ∧ 16 ≤ u8 [1, 16, 0, 1, 0x41] 1) ∧ 2 ≤ u8 [2, 0, 0, 1, 0x41] 0 ∧
      State.reset.lines[(31 : Fin 32)].attached = false ∧
      (slotFull 31 (attach 31 State.reset)).slots[(31 : Fin 32)].isSome = true ∧
      (attach 31 State.reset).slots[(31 : Fin 32)] = none ∧
      said (.sendMessage 7 [0, 31, 15, 0]) (attach 31 State.reset) = [9] ∧
      said (.sendMessage 7 [2, 0, 0, 1, 0x41]) (attach 31 State.reset) = [8] ∧
      said (.sendMessage 7 [0, 31, 15, 1, 0x41]) State.reset = [5] ∧
      said (.sendMessage 7 [0, 31, 15, 1, 0x41]) (slotFull 31 (attach 31 State.reset)) = [6] ∧
      said (.sendMessage 7 [0, 31, 15, 1, 0x41]) (attach 31 State.reset) = [0] ∧
      said (.sendMessage 7 [1, 0, 15, 1, 0x41]) (slotFull 31 (attach 0 (attach 31 State.reset))) =
        [0, 0, 1, 0, 1] :=
  ⟨comes _ _ _ _ (by decide) rfl, by decide +kernel⟩

/-! ### Witnesses: clock and editions (spec/03) -/

/-- The reset state with the clock set and the first and last editions in a state. -/
def clocked (st : ClockState) (v : Nat) (e : EditionState) (time : Nat) : State :=
  { State.reset with
    clock := ⟨st, v, 0⟩
    editions := (State.reset.editions.set 0 ⟨time, e⟩).set 3 ⟨time, e⟩ }

theorem witness_Passages :
    ((clocked .running 5 .armed 5).clock.state ≠ .unset ∧
      (clocked .running 5 .armed 5).editions[(3 : Fin 4)].state = .armed ∧
      (clocked .running 5 .armed 5).editions[(3 : Fin 4)].time ≤
        (clocked .running 5 .armed 5).clock.value) ∧
      (after .clockTick (clocked .running 86399 .armed 86400)).clock = ⟨.running, 0, 1000⟩ ∧
      (after .clockTick (clocked .running 4 .armed 5)).editions[(0 : Fin 4)] = ⟨5, .passed⟩ ∧
      after .clockTick (clocked .stopped 4 .armed 5) = settle (clocked .stopped 4 .armed 5) ∧
      Comes 0x0F 4 [0, 0, 5, 1] (clocked .unset 0 .armed 5) ∧ 86399 < u24 [1, 0x51, 0x80, 0] 0 ∧
      u24 [1, 0x51, 0x7F, 0] 0 ≤ 86399 ∧ said (.setClock 7 [1, 0x51, 0x80, 0]) State.reset = [8] ∧
      said (.setClock 7 [0, 0, 5, 1]) (clocked .unset 0 .armed 5) =
        [0, 0, 0, 0, 0, 1, 0, 0, 5, 1, 4] := by
  refine ⟨by decide +kernel, by decide +kernel, by decide +kernel, by decide +kernel,
    comes _ _ _ _ (by decide) rfl, by decide +kernel⟩

theorem witness_StartClock :
    Takes ⟨0x10, 7, []⟩ (clocked .stopped 5 .unarmed 0) ∧ Takes ⟨0x11, 7, []⟩ State.reset ∧
      State.reset.clock.state = .unset ∧ (clocked .stopped 5 .unarmed 0).clock.state = .stopped ∧
      (clocked .running 5 .unarmed 0).clock.state = .running ∧
      said (.startClock 7 []) State.reset = [2, 0, 0, 0, 0] ∧
      said (.startClock 7 []) (clocked .stopped 5 .unarmed 0) = [0, 2, 0, 0, 5] ∧
      said (.startClock 7 []) (clocked .running 5 .unarmed 0) = [0, 2, 0, 0, 5] ∧
      said (.readClock 7 []) State.reset = List.replicate 21 0 :=
  ⟨takes_of_link _ _ rfl, takes_of_link _ _ rfl, by decide +kernel⟩

theorem witness_SetDeadline :
    Comes 0x12 4 [4, 0, 0, 5] (clocked .running 5 .passed 1) ∧ u8 [0, 0, 0, 5] 0 = 0 ∧
      4 < u8 [5, 0, 0, 5] 0 ∧ 86399 < u24 [4, 1, 0x51, 0x80] 1 ∧ u24 [4, 1, 0x51, 0x7F] 1 ≤ 86399 ∧
      u8 [4, 0, 0, 5] 0 = (3 : Fin 4).val + 1 ∧
      (clocked .running 5 .passed 1).editions[(3 : Fin 4)].state = .passed ∧
      (clocked .unset 0 .unarmed 1).editions[(3 : Fin 4)].state ≠ .passed ∧
      (clocked .running 4 .armed 1).clock.value < u24 [4, 0, 0, 5] 1 ∧
      u24 [4, 0, 0, 5] 1 ≤ (clocked .running 5 .armed 9).clock.value ∧
      said (.setDeadline 7 [5, 0, 0, 5]) State.reset = [8] ∧
      said (.setDeadline 7 [4, 0, 0, 5]) (clocked .running 4 .passed 1) = [0, 0, 0, 5, 2] ∧
      said (.setDeadline 7 [4, 0, 0, 5]) (clocked .running 4 .unarmed 1) = [0, 0, 0, 5, 1] ∧
      said (.setDeadline 7 [4, 0, 0, 5]) (clocked .stopped 5 .armed 9) = [0, 0, 0, 5, 2] :=
  ⟨comes _ _ _ _ (by decide) rfl, by decide +kernel⟩

theorem witness_Rearm_and_ClearDeadline :
    Comes 0x13 1 [4] (clocked .running 5 .passed 5) ∧ Comes 0x14 1 [4] (clocked .running 5 .passed 5) ∧
      u8 [0] 0 = 0 ∧ 4 < u8 [5] 0 ∧
      ((clocked .running 5 .passed 5).editions[(3 : Fin 4)].state = .passed ∧
        (clocked .running 5 .passed 5).editions[(3 : Fin 4)].time ≤
          (clocked .running 5 .passed 5).clock.value) ∧
      (clocked .running 4 .passed 5).clock.value <
        (clocked .running 4 .passed 5).editions[(3 : Fin 4)].time ∧
      said (.rearm 7 [5]) State.reset = [8] ∧ said (.rearm 7 [4]) State.reset = [2, 0, 0, 0, 0] ∧
      said (.rearm 7 [4]) (clocked .running 4 .armed 5) = [0, 0, 0, 5, 1] ∧
      said (.rearm 7 [4]) (clocked .running 5 .passed 5) = [0, 0, 0, 5, 2] ∧
      said (.rearm 7 [4]) (clocked .running 4 .passed 5) = [0, 0, 0, 5, 1] ∧
      said (.clearDeadline 7 [4]) (clocked .running 5 .passed 5) = [0, 0, 0, 5, 0] ∧
      (basketBody 0 4 0 0).length = 15 ∧
      { State.reset.baskets[plainStory.basket] with edition := 4 }.edition.val = (3 : Fin 4).val + 1 :=
  ⟨comes _ _ _ _ (by decide) rfl, comes _ _ _ _ (by decide) rfl, by decide +kernel⟩

/-! ### Witnesses: terminal lines and keys (spec/04) -/

/-- ASSIGN TERMINAL: desk, key and layout, 9600 bit/s, 8 data bits, no parity, 1 stop bit. -/
def assignBody (t desk key layout stops : Byte) : List Byte :=
  [t, desk, key, layout, 0x25, 0x80, 8, 0, stops]

theorem witness_AssignTerminal :
    Comes 0x15 9 (assignBody 31 15 15 1 1) State.reset ∧
      Comes 0x15 9 (assignBody 31 15 15 1 1) (attach 31 State.reset) ∧
      32 ≤ u8 (assignBody 32 0 0 0 1) 0 ∧ 16 ≤ u8 (assignBody 0 16 0 0 1) 1 ∧
      16 ≤ u8 (assignBody 0 0 16 0 1) 2 ∧ 2 ≤ u8 (assignBody 0 0 0 2 1) 3 ∧
      (assignmentOf (assignBody 31 15 15 1 1)).isSome = true ∧
      State.reset.lines[(31 : Fin 32)].attached = false ∧
      (attach 31 State.reset).lines[(31 : Fin 32)].attached = true ∧
      (attach 31 State.reset).lines[(31 : Fin 32)].layout ≠ .split ∧
      (attach 31 State.reset).lines[(31 : Fin 32)].format ≠ ⟨9600, 8, .none, 2⟩ ∧
      said (.assignTerminal 7 (assignBody 31 15 15 2 1)) State.reset = [8] ∧
      said (.assignTerminal 7 (assignBody 31 15 15 1 3)) State.reset = [1] ∧
      said (.assignTerminal 7 (assignBody 31 15 15 1 1)) State.reset = [0] :=
  ⟨comes _ _ _ _ (by decide) rfl, comes _ _ _ _ (by decide) rfl, by decide +kernel⟩

/-- Terminal 0 watches terminal 31. -/
def watching : State :=
  let s := attach 0 (attach 31 State.reset)
  { s with screens := s.screens.set 0 { Screen.reset with mode := .watching 31 } }

/-- Terminal 31 as ASSIGN TERMINAL of its default format leaves it, a character waiting in its receive FIFO and one being sent, with a session it may see. -/
def assigned : State :=
  let s := mayView (editing 31 0 .edit [0x41])
  { s with
    lines := s.lines.set 31
      { Line.reset with
        attached := true, format := ⟨9600, 8, .none, 1⟩, trigger := 2, rx := [0x41], tx := [0x42]
        pfx := true, sending := .busy (sendFrame ⟨9600, 8, .none, 1⟩ 0x42) true } }

/-- ASSIGN TERMINAL of terminal 31 with 9600 bit/s, 8 data bits, no parity, and a key trigger. -/
def reassignBody (desk key layout stops trigger : Byte) : List Byte :=
  assignBody 31 desk key layout stops ++ [trigger]

theorem witness_Reassignment :
    Comes 0x15 9 (reassignBody 0 0 0 2 2) assigned ∧
      (assignmentOf (reassignBody 0 0 0 2 2)).isSome = true ∧
      assigned.lines[(31 : Fin 32)].attached = true ∧
      (after (.assignTerminal 7 (reassignBody 0 0 0 2 2)) assigned).lines[31].rx = [] ∧
      (after (.assignTerminal 7 (reassignBody 0 0 0 2 2)) assigned).lines[31].pfx = false ∧
      said (.assignTerminal 7 (reassignBody 0 0 0 2 2)) assigned = [0, 0, 0, 0, 0, 1] ∧
      (after (.assignTerminal 7 (reassignBody 0 0 0 1 1)) assigned).lines[31].batch = [0x41] ∧
      (after (.assignTerminal 7 (reassignBody 0 0 0 1 1)) assigned).lines[31].pfx = true ∧
      said (.assignTerminal 7 (reassignBody 0 0 0 1 1)) assigned = [0, 0, 0, 0, 0, 0] ∧
      (after (.assignTerminal 7 (reassignBody 0 0 0 1 6)) assigned).lines[31].rx = [0x41] ∧
      said (.assignTerminal 7 (reassignBody 0 0 1 1 2)) assigned = [0, 0, 1, 0, 0, 0] ∧
      (after (.assignTerminal 7 (reassignBody 0 0 1 1 2)) assigned).notices.terminal[31].windowClosed =
        false ∧
      said (.assignTerminal 7 (reassignBody 15 0 0 1 2)) assigned = [0, 0, 1, 0, 0, 0] ∧
      (after (.assignTerminal 7 (reassignBody 15 0 0 1 2)) assigned).notices.terminal[31].windowClosed =
        true ∧
      said (.assignTerminal 7 (reassignBody 0 0 0 1 2)) assigned = [0, 0, 0, 0, 0, 0] ∧
      (after (.assignTerminal 7 (reassignBody 0 0 0 1 2)) assigned).panes[31] = assigned.panes[31] ∧
      said (.assignTerminal 7 (reassignBody 0 0 0 1 3)) assigned = [1, 0, 0, 0, 0, 0] :=
  ⟨comes _ _ _ _ (by decide) rfl, by decide +kernel⟩

theorem witness_Reassignment_of_a_watcher :
    isWatching watching 0 = true ∧ watching.lines[(0 : Fin 32)].key ≠ 5 ∧
      isWatching watching 31 = false ∧
      (after (.assignTerminal 7 (assignBody 0 0 5 0 1)) watching).screens[0].mode = .normal ∧
      (after (.assignTerminal 7 (assignBody 0 5 0 0 1)) watching).screens[0].mode = .watching 31 := by
  decide +kernel

theorem witness_DetachTerminal :
    Comes 0x16 1 [31] State.reset ∧ Comes 0x16 1 [31] watching ∧ 32 ≤ u8 [32] 0 ∧
      State.reset.lines[(31 : Fin 32)].attached = false ∧
      watching.lines[(31 : Fin 32)].attached = true ∧ watches watching 0 31 = true ∧
      watches watching 1 31 = false ∧ said (.detachTerminal 7 [32]) State.reset = [8] ∧
      said (.detachTerminal 7 [31]) State.reset = [5] ∧
      said (.detachTerminal 7 [31]) watching = [0] ∧
      (after (.detachTerminal 7 [31]) watching).screens[0].mode = .normal ∧
      (after (.detachTerminal 7 [31]) watching).lines[31].attached = false :=
  ⟨comes _ _ _ _ (by decide) rfl, comes _ _ _ _ (by decide) rfl, by decide +kernel⟩

/-- R117, R134: a modified session that ends with its terminal's mode, layout or line offers its story. -/
theorem witness_SessionsEndWithAnOffer :
    storyOf changedSession 1 = some editedStory ∧
      (after (.detachTerminal 7 [31]) changedSession).fit.list = [⟨1, 0⟩] ∧
      (after (.setRotation 7 [31, 0, 5, 0, 1, 0]) changedSession).fit.list = [⟨1, 0⟩] ∧
      (after (.assignTerminal 7 (assignBody 31 0 0 1 1)) changedSession).fit.list = [⟨1, 0⟩] ∧
      (after (.assignTerminal 7 (assignBody 31 15 0 0 1)) changedSession).fit.list = [⟨1, 0⟩] ∧
      (after (.detachTerminal 7 [31]) (mayView (editing 31 0 .edit [0x41]))).fit.list = [] := by
  decide +kernel

/-- A key report. -/
def report : KeyReport := ⟨31, 15, 0, 0, none⟩

/-- Key reports wait, and KEYS is pending. -/
def keyed (n : Nat) : State :=
  { State.reset with
    keys := List.replicate n report, notices := State.reset.notices.setPending srcKeys true }

theorem witness_TakeKeys :
    Comes 0x18 2 [1, 0] (keyed 2) ∧ Comes 0x18 2 [17, 1] (keyed 2) ∧
      max 1 (min 16 (u8 [0, 0] 0)) = 1 ∧ max 1 (min 16 (u8 [17, 1] 0)) = 16 ∧ u8 [1, 0] 1 = 0 ∧
      u8 [17, 1] 1 ≠ 0 ∧
      said (.takeKeys 7 [1, 0]) (keyed 2) = [0, 0, 1, 0, 2, 31, 15, 0, 0, 0, 0, 0xFF, 0xFF, 0xFF] ∧
      said (.takeKeys 7 [1, 1]) (keyed 2) = [0, 0, 1, 0, 1, 31, 15, 0, 0, 0, 0, 0xFF, 0xFF, 0xFF] ∧
      said (.takeKeys 7 [17, 1]) (keyed 0) = [1, 0, 0, 0, 0] ∧
      (after (.takeKeys 7 [1, 1]) (keyed 1)).notices.pending[47] = false ∧
      (after (.takeKeys 7 [1, 1]) (keyed 2)).notices.pending[47] = true :=
  ⟨comes _ _ _ _ (by decide) rfl, comes _ _ _ _ (by decide) rfl, by decide +kernel⟩

/-- Terminal 31 with characters in its receive FIFO and a key trigger. -/
def received (n trigger : Nat) : State :=
  { State.reset with
    lines := State.reset.lines.set 31
      { Line.reset with attached := true, rx := List.replicate n 0x41, trigger := trigger } }

theorem witness_TerminalReception :
    (received 15 12).lines[(31 : Fin 32)].rx.length < 16 ∧
      16 ≤ (received 16 12).lines[(31 : Fin 32)].rx.length ∧
      parityRight LineFormat.reset ⟨0x41, false, true⟩ = true ∧
      parityRight ⟨9600, 7, .even, 1⟩ ⟨0x41, true, true⟩ = false ∧
      (after (.terminalCharacterReceived 31 ⟨0x42, false, true⟩) (received 1 2)).lines[31].batch =
        [0x41, 0x42] ∧
      (after (.terminalCharacterReceived 31 ⟨0x42, false, true⟩) (received 1 6)).lines[31].rx =
        [0x41, 0x42] ∧
      (after (.terminalCharacterReceived 31 ⟨0x42, false, false⟩) (received 1 6)).notices.terminal[31] =
        ⟨false, true, false, false, false⟩ ∧
      (after (.terminalIdleExpiry 31) (received 1 6)).lines[31].batch = [0x41] ∧
      (after (.terminalBreak 31) (received 1 6)).notices.terminal[31] =
        ⟨true, false, false, false, false⟩ ∧
      (received 1 6).lines[(31 : Fin 32)].batch = [] ∧
      (received 1 6).lines[(0 : Fin 32)].attached = false := by decide +kernel

/-- Terminal 31 attached and in ROTATING over basket 0. -/
def rotating (position : Nat) : State :=
  let s := attach 31 State.reset
  { s with
    screens := s.screens.set 31
      { Screen.reset with mode := .rotating ⟨[0, 63], 5, false, position, 0⟩ } }

theorem decoderFree_attach (t : Fin 32) (s : State) : DecoderFree (attach t s) t := by
  simp [DecoderFree, attach, Line.reset]

theorem witness_FunctionKeys :
    DecoderFree (attach 31 (keyed 63)) 31 ∧ DecoderFree (attach 31 (keyed 64)) 31 ∧
      DecoderFree (rotating 1) 31 ∧ (rotating 1).screens[(31 : Fin 32)].mode ≠ .normal ∧
      64 ≤ (attach 31 (keyed 64)).keys.length ∧ (attach 31 (keyed 63)).keys.length < 64 ∧
      (attach 31 State.reset).screens[(31 : Fin 32)].mode = .normal ∧
      (attach 31 State.reset).panes[(31 : Fin 32)].session = none ∧
      (after (.functionKey 31 15) (attach 31 (keyed 0))).keys = [report] ∧
      (after (.functionKey 31 15) (attach 31 (keyed 64))).keys.length = 64 ∧
      plainKey 0x80 = none ∧ (0x80#8) ≠ 0x1A#8 ∧ functionOf 0x20 = none :=
  ⟨decoderFree_attach _ _, decoderFree_attach _ _,
    ⟨by decide +kernel, by decide +kernel, by decide +kernel, by decide +kernel⟩, by decide +kernel⟩

/-- Terminal 31 after the function key prefix. -/
def prefixed : State :=
  { State.reset with
    lines := State.reset.lines.set 31 { Line.reset with attached := true, pfx := true } }

theorem witness_IgnoredCodes :
    prefixed.lines[(31 : Fin 32)].attached = true ∧ prefixed.lines[(31 : Fin 32)].pfx = true ∧
      prefixed.lines[(31 : Fin 32)].batch = [] ∧ prefixed.lines[(31 : Fin 32)].rx = [] ∧
      functionOf 0x20 = none ∧
      (after (.ignoredCode 31 0x20) prefixed).lines[31].pfx = false := by decide +kernel

/-- The prefixed terminal with a screen mode and n key reports waiting. -/
def prefixedIn (mode : Mode) (n : Nat) : State :=
  { prefixed with
    screens := State.reset.screens.set 31 { Screen.reset with mode := mode }
    keys := List.replicate n report }

theorem witness_FunctionKeyFollowsItsPrefix :
    (prefixed.lines[(31 : Fin 32)].attached = true ∧ prefixed.lines[(31 : Fin 32)].pfx = true ∧
      prefixed.lines[(31 : Fin 32)].batch = [] ∧ prefixed.lines[(31 : Fin 32)].rx = []) ∧
      (prefixedIn (.rotating ⟨[0], 5, false, 1, 0⟩) 0).screens[(31 : Fin 32)].mode =
        .rotating ⟨[0], 5, false, 1, 0⟩ ∧
      (prefixedIn .normal 64).screens[(31 : Fin 32)].mode = .normal ∧
      64 ≤ (prefixedIn .normal 64).keys.length ∧ (prefixedIn .normal 63).keys.length < 64 ∧
      (prefixedIn .normal 63).link.hostLost = false ∧
      (prefixedIn .normal 63).panes[(31 : Fin 32)].session = none ∧
      (after (.functionKey 31 15) (prefixedIn (.rotating ⟨[0], 5, false, 1, 0⟩) 0)).keys = [] ∧
      (after (.functionKey 31 15)
        (prefixedIn (.rotating ⟨[0], 5, false, 1, 0⟩) 0)).lines[31].tx.head? = some 0x07 ∧
      (after (.functionKey 31 15) (prefixedIn .normal 64)).notices.terminal[31].keysRefused = true ∧
      (after (.functionKey 31 15) (prefixedIn .normal 63)).keys.length = 64 ∧
      (after (.functionKey 31 15) (prefixedIn .normal 0)).keys = [report] ∧
      (after (.functionKey 31 15) (prefixedIn .normal 0)).lines[31].pfx = false := by decide +kernel

/-- Terminal 31, rotating, with a batch handed up and characters waiting behind it. -/
def batched (batch rx : List Byte) : State :=
  { rotating 1 with
    lines := State.reset.lines.set 31
      { Line.reset with attached := true, batch := batch, rx := rx, idle := true } }

theorem witness_FunctionKeyKeepsItsTwoCodes :
    (batched [0x1A, functionCode 15, 0x41] []).lines[(31 : Fin 32)].batch =
        0x1A#8 :: functionCode 15 :: [0x41] ∧
      (batched [0x41] [0x42]).lines[(31 : Fin 32)].pfx = false ∧
      (batched [0x41] [0x42]).lines[(31 : Fin 32)].batch.take 2 ≠ [0x1A#8, functionCode 15] ∧
      (batched [functionCode 15] (List.replicate 14 0x42)).lines[(31 : Fin 32)].rx.length + 2 ≤ 16 ∧
      (after (.functionKey 31 15) (batched [0x1A, functionCode 15, 0x41] [])).lines[31].batch = [0x41] ∧
      (after (.functionKey 31 15) (batched [functionCode 15] [0x42])).lines[31].batch =
        [functionCode 15] ∧
      (after (.functionKey 31 15) (batched [functionCode 15] [0x42])).lines[31].rx =
        [0x42, 0x1A, functionCode 15] := by decide +kernel

/-- R65: a key command's character after an idle hand-up waits for the trigger or a new idle time. -/
theorem test_character_after_idle_waits :
    (after (.textKey 31 0x43)
      { batched [0x41] [] with
        lines := State.reset.lines.set 31
          { Line.reset with attached := true, batch := [0x41], idle := true, trigger := 6 } }).lines[31].rx =
      [0x43] := by decide +kernel

theorem witness_KeysWithoutASession :
    DecoderFree (attach 31 (slotFull 31 State.reset)) 31 ∧ isText 0x7E = true ∧
      (attach 31 (slotFull 31 State.reset)).slots[(31 : Fin 32)] = some ⟨[0x41], 0⟩ ∧
      (attach 31 State.reset).slots[(31 : Fin 32)] = none ∧
      (after (.clearMessage 31) (attach 31 (slotFull 31 State.reset))).notices.terminal[31] =
        ⟨false, false, true, false, false⟩ ∧
      (after (.textKey 31 0x41) (attach 31 State.reset)).lines[31].tx.head? = some 0x07 ∧
      (after (.deleteBack 31) (rotating 1)).lines[31].tx.head? = some 0x07 ∧
      (after (.repaintKey 31) (attach 31 State.reset)).lines[31].tx.head? = some 0x13 :=
  ⟨decoderFree_attach _ _, by decide +kernel⟩

/-- Terminal 31 sends a byte; its transmit FIFO holds n bytes. -/
def sendingByte (n : Nat) (inFifo : Bool) : State :=
  { State.reset with
    lines := State.reset.lines.set 31
      { Line.reset with
        tx := List.replicate n 0x41, sending := .busy (sendFrame LineFormat.reset 0x41) inFifo } }

theorem witness_TerminalByteSent :
    (sendingByte 9 true).lines[(31 : Fin 32)].sending = .busy ⟨0x41, 8, none, 1⟩ true ∧
      (sendingByte 9 true).lines[(31 : Fin 32)].tx.tail.length ≤ 8 ∧
      ¬ (sendingByte 10 true).lines[(31 : Fin 32)].tx.tail.length ≤ 8 ∧
      (after (.terminalByteSent 31) (sendingByte 9 true)).lines[31].tx.length = 8 ∧
      (after (.terminalByteSent 31) (sendingByte 9 false)).lines[31].tx.length = 9 := by decide +kernel

theorem witness_SentFrames :
    (attach 31 State.reset).lines[(31 : Fin 32)].sending = .rest ∧
      sendFrame ⟨9600, 7, .even, 1⟩ 0x43 = ⟨0x43, 7, some true, 1⟩ ∧
      sendFrame ⟨9600, 7, .odd, 2⟩ 0x43 = ⟨0x43, 7, some false, 2⟩ ∧
      sendFrame ⟨9600, 8, .even, 1⟩ 0xC3 = ⟨0xC3, 8, some false, 1⟩ ∧
      sendFrame ⟨9600, 7, .none, 1⟩ 0xC3 = ⟨0x43, 7, none, 1⟩ ∧
      (settle (attach 31 State.reset)).lines[31].sending = .busy ⟨0x13, 8, none, 1⟩ true := by
  decide +kernel

/-! ### Witnesses: screens (spec/05) -/

theorem witness_PutScreenText :
    Comes 0x19 5 [31, 23, 80, 3, 1, 0x41] State.reset ∧
      textAt [31, 23, 80, 3, 1, 0x41] 5 1 = some [0x41] ∧ u8 [31, 0, 1, 0, 0] 1 = 0 ∧
      23 < u8 [31, 24, 1, 0, 0] 1 ∧ u8 [31, 1, 0, 0, 0] 2 = 0 ∧ 80 < u8 [31, 1, 81, 0, 0] 2 ∧
      4 ≤ u8 [31, 1, 1, 4, 0] 3 ∧ Attr.ofCode 3 = some .underline ∧
      said (.putScreenText 7 [31, 24, 1, 0, 0]) State.reset = [8] ∧
      said (.putScreenText 7 [31, 23, 80, 3, 1, 0x41]) State.reset = [0] ∧
      said (.putScreenText 7 [31, 23, 80, 3, 2, 0x41, 0x42]) State.reset = [1] ∧
      said (.putScreenText 7 ([31, 23, 1, 3, 81] ++ List.replicate 81 0x41)) State.reset = [1] ∧
      (after (.putScreenText 7 [31, 23, 80, 3, 2, 0x41, 0x42]) State.reset).screens[31].base.getLast? =
        some (List.replicate 79 Cell.blank ++ [⟨0x41, .underline⟩]) :=
  ⟨comes _ _ _ _ (by decide) rfl, by decide +kernel⟩

theorem witness_FillBase_and_SetStatus :
    Comes 0x1A 5 [31, 1, 23, 0x41, 3] State.reset ∧ Comes 0x1B 2 [31, 1, 0x41] State.reset ∧
      u8 [31, 0, 1, 0x41, 0] 1 = 0 ∧ 23 < u8 [31, 1, 24, 0x41, 0] 2 ∧
      u8 [31, 2, 1, 0x41, 0] 2 < u8 [31, 2, 1, 0x41, 0] 1 ∧ 4 ≤ u8 [31, 1, 1, 0x41, 4] 4 ∧
      textAt [31, 1, 0x41] 2 1 = some [0x41] ∧ said (.fillBase 7 [31, 2, 1, 0x41, 0]) State.reset = [8] ∧
      said (.fillBase 7 [31, 1, 23, 0x1F, 3]) State.reset = [1] ∧
      said (.setStatus 7 [31, 1, 0x41]) State.reset = [0] ∧
      (after (.fillBase 7 [31, 23, 23, 0x41, 3]) State.reset).screens[31].base =
        List.replicate 22 blankRow ++ [List.replicate 80 ⟨0x41, .underline⟩] ∧
      (after (.setStatus 7 [31, 1, 0x41]) State.reset).screens[31].status = [0x41] :=
  ⟨comes _ _ _ _ (by decide) rfl, comes _ _ _ _ (by decide) rfl, by decide +kernel⟩

theorem witness_Repaint :
    Comes 0x1C 1 [31] (attach 31 State.reset) ∧ 32 ≤ u8 [32] 0 ∧
      said (.repaint 7 [32]) State.reset = [8] ∧ said (.repaint 7 [31]) State.reset = [5] ∧
      said (.repaint 7 [31]) (attach 31 State.reset) = [0] :=
  ⟨comes _ _ _ _ (by decide) rfl, by decide +kernel⟩

theorem witness_SetWatch :
    Comes 0x1D 2 [0, 31] watching ∧ Comes 0x1D 2 [0, 0xFF] watching ∧ 32 ≤ u8 [32, 0] 0 ∧
      (u8 [0, 32] 1 ≠ 0xFF ∧ 32 ≤ u8 [0, 32] 1) ∧ u8 [0, 0xFF] 1 = 0xFF ∧
      (∃ y, watching.screens[(0 : Fin 32)].mode = .watching y) ∧
      (∃ y : Fin 32, watching.screens[y].mode = .watching 31) ∧
      (attach 0 (attach 31 State.reset)).lines[(0 : Fin 32)].key = 0 ∧
      (∀ y : Fin 32, (attach 0 (attach 31 State.reset)).screens[y].mode = .normal) ∧
      said (.setWatch 7 [0, 32]) watching = [8] ∧ said (.setWatch 7 [1, 0]) watching = [5] ∧
      said (.setWatch 7 [31, 31]) watching = [8] ∧ said (.setWatch 7 [31, 1]) watching = [5] ∧
      said (.setWatch 7 [31, 0]) watching = [8] ∧ said (.setWatch 7 [0, 0xFF]) watching = [0] ∧
      said (.setWatch 7 [0, 31]) (attach 0 (attach 31 State.reset)) = [0] :=
  ⟨comes _ _ _ _ (by decide) rfl, comes _ _ _ _ (by decide) rfl, by decide, by decide, by decide,
    ⟨31, by decide +kernel⟩, ⟨0, by decide +kernel⟩, by decide +kernel⟩

theorem test_watch_needs_key_0 :
    said (.setWatch 7 [31, 0])
      { attach 0 State.reset with
        lines := (attach 0 State.reset).lines.set 31 { Line.reset with attached := true, key := 1 } } =
      [7] := by decide +kernel

theorem witness_SetRotation :
    Comes 0x1E 5 [31, 0, 5, 0, 2, 0, 63] (attach 31 State.reset) ∧ 4 < u8 [31, 0, 5, 0, 5] 4 ∧
      [31, 0, 5, 0, 2, 0].length < 5 + u8 [31, 0, 5, 0, 2, 0] 4 ∧ u8 [31, 0, 5, 0, 0] 4 = 0 ∧
      basketsOf [0, 63] = some [0, 63] ∧
      said (.setRotation 7 [31, 0, 5, 0, 1, 0]) State.reset = [5] ∧
      said (.setRotation 7 [31, 0, 5, 0, 5, 0, 1, 2, 3, 4]) (attach 31 State.reset) = [9] ∧
      (said (.setRotation 7 [31, 0, 4, 0, 2, 0, 63]) (attach 31 State.reset)).head? = some 1 ∧
      (after (.setRotation 7 [31, 0, 5, 0, 2, 0, 63]) (attach 31 State.reset)).screens[31].mode =
        .rotating ⟨[0, 63], 5, false, 1, 0⟩ ∧
      (after (.setRotation 7 [31, 0, 5, 0, 0]) (rotating 1)).screens[31].mode = .normal ∧
      (after (.rotationDwellExpiry 31) (rotating 1)).screens[31].mode =
        .rotating ⟨[0, 63], 5, false, 2, 5000⟩ ∧
      (after (.rotationDwellExpiry 31) (rotating 2)).screens[31].mode =
        .rotating ⟨[0, 63], 5, false, 1, 5000⟩ :=
  ⟨comes _ _ _ _ (by decide) rfl, by decide +kernel⟩

/-- Terminal 31 in ROTATING at a position with skip-empty, one story in basket 63 or none anywhere. -/
def skipping (position : Nat) (stories : List Nat) : State :=
  let s := rotating 1
  { s with
    screens := s.screens.set 31
      { Screen.reset with mode := .rotating ⟨[0, 63, 1], 5, true, position, 0⟩ }
    baskets := s.baskets.set 63 { Basket.reset with list := stories }
    stories := stories.map fun id => (id, { plainStory with basket := 63 }) }

theorem witness_SkipEmpty :
    Comes 0x1E 5 [31, 0, 5, 1, 2, 0, 63] (skipping 1 [1]) ∧
      Comes 0x1E 5 [31, 0, 5, 0, 2, 0, 64] (attach 31 State.reset) ∧ 32 ≤ u8 [32, 0, 5, 0, 0] 0 ∧
      (∃ x ∈ ([31, 0, 5, 0, 2, 0, 64] : List Byte).drop 5 |>.take 2, 64 ≤ x.toNat) ∧
      (∀ b ∈ ([0, 63, 1] : List (Fin 64)), (skipping 1 []).baskets[b].list = []) ∧
      (∃ b ∈ ([0, 63, 1] : List (Fin 64)), (skipping 1 [1]).baskets[b].list ≠ []) ∧
      said (.setRotation 7 [32, 0, 5, 0, 0]) State.reset = [8] ∧
      said (.setRotation 7 [31, 0, 5, 0, 2, 0, 64]) (attach 31 State.reset) = [8] ∧
      (after (.setRotation 7 [31, 0, 5, 1, 2, 0, 63]) (skipping 1 [1])).screens[31].mode =
        .rotating ⟨[0, 63], 5, true, 2, 0⟩ ∧
      (after (.setRotation 7 [31, 0, 5, 1, 2, 0, 63]) (skipping 1 [])).screens[31].mode =
        .rotating ⟨[0, 63], 5, true, 1, 0⟩ ∧
      (after (.rotationDwellExpiry 31) (skipping 3 [1])).screens[31].mode =
        .rotating ⟨[0, 63, 1], 5, true, 2, 5000⟩ ∧
      (after (.rotationDwellExpiry 31) (skipping 2 [1])).screens[31].mode =
        .rotating ⟨[0, 63, 1], 5, true, 2, 5000⟩ ∧
      (after (.rotationDwellExpiry 31) (skipping 3 [])).screens[31].mode =
        .rotating ⟨[0, 63, 1], 5, true, 1, 5000⟩ :=
  ⟨comes _ _ _ _ (by decide) rfl, comes _ _ _ _ (by decide) rfl, by decide,
    ⟨64, by decide, by decide⟩, by decide +kernel, ⟨63, by decide +kernel, by decide +kernel⟩,
    by decide +kernel⟩

/-- A flash alert shows at terminal 31. -/
def flashing : State :=
  { State.reset with
    screens := State.reset.screens.set 31 { Screen.reset with flash := some ⟨[0x41], 0⟩ } }

theorem witness_ScreenTimers :
    flashing.screens[(31 : Fin 32)].flash = some ⟨[0x41], 0⟩ ∧
      State.reset.screens[(31 : Fin 32)].flash = none ∧
      (after (.flashAlertExpiry 31) flashing).screens[31].flash = none ∧
      (after (.flashAlertExpiry 31) flashing).now = 60000 ∧
      (rotating 2).screens[(31 : Fin 32)].mode = .rotating ⟨[0, 63], 5, false, 2, 0⟩ ∧
      State.reset.screens[(31 : Fin 32)].mode = .normal := by decide +kernel

theorem witness_Emitter :
    (emit 1 { Screen.reset with bell := true } []).2.head? = some 0x07 ∧
      (emit 1 Screen.reset []).2.head? = some 0x13 ∧
      emit 5 { Screen.reset with sent := some ⟨Image.blank.rows, (24, 80), .normal⟩ }
        (List.replicate 32 0x41) =
        ({ Screen.reset with sent := some ⟨Image.blank.rows, (24, 80), .normal⟩ },
          List.replicate 32 0x41) := by decide +kernel

/-- A screen whose sent image is blank with the cursor at rest, with these rows marked. -/
def marked (rows : List Nat) (last : Option Nat) : Screen :=
  { Screen.reset with sent := some ⟨Image.blank.rows, (24, 80), .normal⟩, marks := rows, last := last }

/-- R89 to R91: the row above the last taken, and with none the lowest; the bell before a row and after the row in hand; a code that does not fit; the position code to the rest position. -/
theorem witness_EmitterOrder :
    (3 ∈ [2, 3, 9] ∧ (marked [2, 3, 9] (some 2)).last.getD 0 < 3 ∧
        ∀ x ∈ [2, 3, 9], (marked [2, 3, 9] (some 2)).last.getD 0 < x → 3 ≤ x) ∧
      (∀ x ∈ [2, 3, 9], x ≤ (marked [2, 3, 9] (some 9)).last.getD 0 ∧ 2 ≤ x) ∧
      (emit 1 (marked [2, 3, 9] (some 2)) []).1.last = some 3 ∧
      (emit 1 (marked [2, 3, 9] (some 9)) []).1.last = some 2 ∧
      emit 1 { marked [2] none with bell := true } [] = (marked [2] none, [0x07]) ∧
      emit 1 { marked [2] none with bell := true, hand := some (5, [[0x41], [0x42]]) } [] =
        ({ marked [2] none with bell := true, hand := some (5, [[0x42]]) }, [0x41]) ∧
      (emit 1 { marked [] none with hand := some (5, [[0x10, 0x20, 0x20]]) }
        (List.replicate 30 0)).1.waiting = true ∧
      emit 2 { marked [] none with composed := ⟨Image.blank.rows, (2, 1)⟩ } (List.replicate 29 0) =
        ({ marked [] none with
            composed := ⟨Image.blank.rows, (2, 1)⟩
            sent := some ⟨Image.blank.rows, (2, 1), .normal⟩ },
          List.replicate 29 0 ++ [0x10, 0x21, 0x20]) ∧
      (emit 1 { marked [] none with composed := ⟨Image.blank.rows, (2, 1)⟩ }
        (List.replicate 30 0)).1.waiting = true := by decide +kernel

/-! ### Witnesses: edit sessions (spec/06) -/

/-- The edit session of terminal 31 in OVERTYPE. -/
def overtyping : State :=
  let s := editing 31 0 .edit [0x41]
  { s with panes := s.panes.set 31 ⟨some ⟨1, 0, 0, .overtype, .edit, false⟩, none⟩ }

theorem edits_editing (c : Nat) (text : List Byte) :
    DecoderFree (editing 31 c .edit text) 31 ∧
      Edits (editing 31 c .edit text) 31 ⟨1, 0, c, .insert, .edit, false⟩ editedStory := by
  refine ⟨⟨rfl, rfl, rfl, rfl⟩, rfl, rfl, rfl, rfl⟩

/-- Terminal 31, SPLIT, with a reference pane on story 1 and, where focus is given, a session too. -/
def reading (focus : Option Focus) (top : Nat) (text : List Byte) : State :=
  let s := attach 31 (withText text { plainStory with holding := .editing 31 })
  { s with
    lines := s.lines.set 31 { Line.reset with attached := true, layout := .split }
    panes := s.panes.set 31 ⟨focus.map fun f => ⟨1, 0, 0, .insert, f, false⟩, some ⟨1, top⟩⟩ }

theorem witness_TextKeys :
    (DecoderFree (editing 31 1 .edit [0x41]) 31 ∧
      Edits (editing 31 1 .edit [0x41]) 31 ⟨1, 0, 1, .insert, .edit, false⟩ editedStory) ∧
      replaces (editing 31 1 .edit [0x41]) ⟨1, 0, 1, .insert, .edit, false⟩ editedStory = false ∧
      insertChar (editing 31 1 .edit [0x41]).memory [0] 1 0x42 = .made [(0, ⟨[0x41, 0x42], true⟩)] [0] ∧
      (storyOf (after (.textKey 31 0x42) (editing 31 1 .edit [0x41])) 1).map (·.version) = some 1 ∧
      (after (.newParagraph 31) (editing 31 1 .edit [0x41])).memory = [(0, ⟨[0x41, 0x0D], true⟩)] ∧
      replaces overtyping ⟨1, 0, 0, .overtype, .edit, false⟩ editedStory = true ∧
      (after (.textKey 31 0x42) overtyping).memory = [(0, ⟨[0x42], true⟩)] :=
  ⟨edits_editing 1 [0x41], by decide +kernel⟩

/-- R104: with the cursor above the rows shown, more than 21 rows below the top, and between. -/
theorem witness_TopOffsets :
    displayRows 80 (List.replicate 30 0x0D) = (List.range 31).map (fun k => ⟨k, if k < 30 then 1 else 0⟩) ∧
      topForCursor (displayRows 80 (List.replicate 30 0x0D)) 5 2 = 2 ∧
      topForCursor (displayRows 80 (List.replicate 30 0x0D)) 5 26 = 5 ∧
      topForCursor (displayRows 80 (List.replicate 30 0x0D)) 5 27 = 6 ∧
      (topAfterInsert 5 4 1 = 6 ∧ topAfterInsert 5 5 1 = 5) ∧
      (topAfterDelete 5 4 1 = 4 ∧ topAfterDelete 5 5 1 = 5) := by decide +kernel

/-- R104, R114: a paragraph inserted at the cursor, row 3, moves the reference pane that begins below it. -/
theorem witness_TopOffsets_of_the_panes :
    let s := reading (some .edit) 4 (List.replicate 30 0x0D)
    let t := { s with panes := s.panes.set 31 ⟨some ⟨1, 0, 22, .insert, .edit, false⟩, some ⟨1, 24⟩⟩ }
    (after (.newParagraph 31) t).panes[31] =
        ⟨some ⟨1, 2, 23, .insert, .edit, true⟩, some ⟨1, 25⟩⟩ ∧
      (after (.deleteBack 31) t).panes[31] = ⟨some ⟨1, 0, 21, .insert, .edit, true⟩, some ⟨1, 23⟩⟩ ∧
      (after (.cursorDown 31) t).panes[31] =
        ⟨some ⟨1, 2, 23, .insert, .edit, false⟩, some ⟨1, 24⟩⟩ := by decide +kernel

theorem witness_TextKeys_refused :
    insertChar longChain (List.range 256) 0 0x42 = .atCap := by decide +kernel

theorem witness_DeleteKeys :
    (DecoderFree (editing 31 0 .edit [0x41]) 31 ∧
      Edits (editing 31 0 .edit [0x41]) 31 ⟨1, 0, 0, .insert, .edit, false⟩ editedStory) ∧
      lengthOf (editing 31 1 .edit [0x41]) editedStory ≤ 1 ∧
      0 < lengthOf (editing 31 0 .edit [0x41]) editedStory ∧
      (after (.deleteBack 31) (editing 31 0 .edit [0x41])).memory = [(0, ⟨[0x41], false⟩)] ∧
      (after (.deleteBack 31) (editing 31 1 .edit [0x41])).memory = [] ∧
      (after (.deleteForward 31) (editing 31 0 .edit [0x41, 0x42])).memory =
        [(0, ⟨[0x42], true⟩)] ∧
      (deleteChar (editing 31 0 .edit [0x41, 0x42]).memory [0] 0).2.2 = false :=
  ⟨edits_editing 0 [0x41], by decide +kernel⟩

/-- R8: delete back takes the last character of block 0 with pressure RAISED. -/
theorem witness_DeleteKeys_recover :
    (deleteChar (editing 31 1 .edit [0x41]).memory [0] 0).2.2 = true ∧
      (after (.deleteBack 31) (pressed 256 (editing 31 1 .edit [0x41]))).notices.pool =
        ⟨8192, 256, some .recovered⟩ ∧
      (after (.deleteBack 31) (pressed 8192 (editing 31 1 .edit [0x41]))).pressure = true ∧
      (after (.deleteForward 31) (pressed 256 (editing 31 0 .edit [0x41, 0x42]))).pressure = true := by
  decide +kernel

theorem test_cursor_keys :
    (after (.insertOvertypeToggle 31) (editing 31 0 .edit [0x41])).panes[31].session =
        some ⟨1, 0, 0, .overtype, .edit, false⟩ ∧
      (after (.cursorRight 31) (editing 31 0 .edit [0x41])).panes[31].session =
        some ⟨1, 0, 1, .insert, .edit, false⟩ ∧
      (after (.cursorLeft 31) (editing 31 1 .edit [0x41])).panes[31].session =
        some ⟨1, 0, 0, .insert, .edit, false⟩ := by decide +kernel

theorem witness_UpAndDownKeys :
    rowIndex (displayRows 80 [0x41, 0x0D, 0x42]) 0 = 0 ∧
      rowIndex (displayRows 80 [0x41, 0x0D, 0x42]) 2 = 0 + 1 ∧
      rowIndex (displayRows 80 [0x41, 0x0D, 0x42]) 2 + 1 =
        (displayRows 80 [0x41, 0x0D, 0x42]).length ∧
      (after (.cursorUp 31) (editing 31 2 .edit [0x41, 0x0D, 0x42])).panes[31].session =
        some ⟨1, 0, 0, .insert, .edit, false⟩ ∧
      (after (.cursorDown 31) (editing 31 0 .edit [0x41, 0x0D, 0x42])).panes[31].session =
        some ⟨1, 0, 2, .insert, .edit, false⟩ ∧
      (reading none 0 [0x41]).panes[(31 : Fin 32)].session = none ∧
      (reading (some .reference) 0 [0x41]).panes[(31 : Fin 32)].session =
        some ⟨1, 0, 0, .insert, .reference, false⟩ ∧
      (reading none 2 (List.replicate 24 0x0D)).panes[(31 : Fin 32)].ref = some ⟨1, 2⟩ ∧
      (displayRows 39 (List.replicate 24 0x0D)).length = 25 ∧
      (after (.cursorUp 31) (reading none 2 (List.replicate 24 0x0D))).panes[31].ref =
        some ⟨1, 1⟩ ∧
      (after (.cursorDown 31) (reading none 2 (List.replicate 24 0x0D))).panes[31].ref =
        some ⟨1, 3⟩ ∧
      (after (.cursorDown 31) (reading (some .reference) 3 (List.replicate 24 0x0D))).panes[31].ref =
        some ⟨1, 3⟩ := by decide +kernel

theorem witness_KeysOutsideTheFocus :
    DecoderFree (reading (some .reference) 0 [0x41]) 31 ∧ DecoderFree (attach 31 State.reset) 31 ∧
      (reading (some .reference) 0 [0x41]).screens[(31 : Fin 32)].mode = .normal ∧
      (attach 31 State.reset).panes[(31 : Fin 32)].ref = none ∧
      (after (.textKey 31 0x42) (reading (some .reference) 0 [0x41])).lines[31].tx.head? =
        some 0x07 ∧
      (after (.cursorLeft 31) (reading (some .reference) 0 [0x41])).panes[31] =
        (reading (some .reference) 0 [0x41]).panes[31] ∧
      (after (.cursorUp 31) (attach 31 State.reset)).lines[31].tx.head? = some 0x07 :=
  ⟨⟨rfl, rfl, rfl, rfl⟩, decoderFree_attach _ _, by decide +kernel⟩

theorem witness_PaneSwitch :
    DecoderFree (reading (some .edit) 0 [0x41]) 31 ∧
      (reading (some .edit) 0 [0x41]).screens[(31 : Fin 32)].mode = .normal ∧
      (reading (some .edit) 0 [0x41]).panes[(31 : Fin 32)].ref.isSome = true ∧
      (editing 31 0 .edit [0x41]).panes[(31 : Fin 32)].ref = none ∧
      (after (.paneSwitch 31) (reading (some .edit) 0 [0x41])).panes[31].session =
        some ⟨1, 0, 0, .insert, .reference, false⟩ ∧
      (after (.paneSwitch 31) (reading (some .reference) 0 [0x41])).panes[31].session =
        some ⟨1, 0, 0, .insert, .edit, false⟩ :=
  ⟨⟨rfl, rfl, rfl, rfl⟩, by decide +kernel⟩

theorem witness_OpenWindow :
    Comes 0x20 6 [31, 0, 0, 1, 0, 9] (mayView (attach 31 (withText [0x41] plainStory))) ∧
      storyOf (mayView (attach 31 (withText [0x41] plainStory))) 1 =
        some { plainStory with chain := [0] } ∧
      2 ≤ u8 [31, 2, 0, 1, 0, 9] 1 ∧ (rotating 1).screens[(31 : Fin 32)].mode ≠ .normal ∧
      maySee (attach 31 (withText [0x41] plainStory)) 31 plainStory = false ∧
      maySee (mayView (attach 31 (withText [0x41] plainStory))) 31 plainStory = true ∧
      changeCheck 5 { plainStory with key := 7 } = false ∧
      changeCheck (attach 31 State.reset).lines[(31 : Fin 32)].key plainStory = true ∧
      maySee (mayView (reading none 0 [0x41])) 31 plainStory = true ∧
      said (.openWindow 7 [31, 2, 0, 1, 0, 9]) (withText [0x41] plainStory) = [8] ∧
      said (.openWindow 7 [31, 1, 0, 1, 0, 9]) (withText [0x41] plainStory) = [5] ∧
      said (.openWindow 7 [31, 0, 0, 1, 0, 9]) (attach 31 (withText [0x41] plainStory)) = [7] ∧
      said (.openWindow 7 [31, 1, 0, 1, 0, 0]) (mayView (attach 31 (withText [0x41] plainStory))) = [8] ∧
      said (.openWindow 7 [31, 0, 0, 1, 0, 9]) (mayView (attach 31 (withText [0x41] plainStory))) =
        [1, 0, 0, 0, 1, 0, 1] ∧
      said (.openWindow 7 [31, 0, 0, 1, 0, 1]) (mayView (editing 31 0 .edit [0x41])) =
        [0, 0, 0, 0, 1, 0, 1] ∧
      said (.openWindow 7 [30, 0, 0, 1, 0, 1]) (mayView (attach 30 (editing 31 0 .edit [0x41]))) =
        [3, 2, 0x3F] ∧
      (after (.openWindow 7 [31, 1, 0, 1, 0, 2])
        (mayView (reading none 0 [0x41, 0x0D, 0x42]))).panes[31].ref = some ⟨1, 2⟩ :=
  ⟨comes _ _ _ _ (by decide) rfl, by decide +kernel⟩

theorem test_open_window_in_rotating_is_busy :
    said (.openWindow 7 [31, 0, 0, 1, 0, 0])
      { rotating 1 with stories := [(1, plainStory)] } = [2] := by decide +kernel

theorem witness_CloseWindow :
    Comes 0x21 2 [31, 0] (editing 31 0 .edit [0x41]) ∧ Comes 0x21 2 [31, 1] (reading none 0 [0x41]) ∧
      32 ≤ u8 [32, 0] 0 ∧ 2 ≤ u8 [31, 2] 1 ∧
      (editing 31 0 .edit [0x41]).panes[(31 : Fin 32)].session =
        some ⟨1, 0, 0, .insert, .edit, false⟩ ∧
      storyOf (editing 31 0 .edit [0x41]) 1 = some editedStory ∧
      said (.closeWindow 7 [31, 2]) State.reset = [8] ∧ said (.closeWindow 7 [31, 0]) State.reset = [5] ∧
      said (.closeWindow 7 [31, 1]) (attach 31 State.reset) = [5] ∧
      said (.closeWindow 7 [31, 0]) (editing 31 0 .edit [0x41]) = [0, 0, 1, 0, 0, 0] ∧
      said (.closeWindow 7 [31, 1]) (reading (some .reference) 0 [0x41]) = [0, 0, 1] ∧
      (after (.closeWindow 7 [31, 1]) (reading (some .reference) 0 [0x41])).panes[31] =
        ⟨some ⟨1, 0, 0, .insert, .edit, false⟩, none⟩ ∧
      (after (.closeWindow 7 [31, 0]) (editing 31 0 .edit [0x41])).stories =
        [(1, { plainStory with chain := [0] })] :=
  ⟨comes _ _ _ _ (by decide) rfl, comes _ _ _ _ (by decide) rfl, by decide +kernel⟩

theorem witness_OpenWindow_identities :
    32 ≤ u8 [32, 0, 0, 1, 0, 0] 0 ∧ 2 ≤ u8 [31, 2, 0, 1, 0, 0] 1 ∧ u16 [31, 0, 0, 0, 0, 0] 2 = 0 ∧
      1024 < u16 [31, 0, 4, 1, 0, 0] 2 ∧ u16 [31, 0, 4, 0, 0, 0] 2 ≤ 1024 ∧
      storyOf State.reset 1024 = none ∧
      said (.openWindow 7 [32, 0, 0, 1, 0, 0]) State.reset = [8] ∧
      said (.openWindow 7 [31, 0, 4, 1, 0, 0]) State.reset = [8] ∧
      said (.openWindow 7 [31, 0, 4, 0, 0, 0]) State.reset = [5] := by decide +kernel

/-- R101, R116: the reference pane's reply, a reference pane open before, and a session open before on the same story and on another. -/
theorem witness_OpenWindow_over_open_panes :
    let other := { changedSession with stories := changedSession.stories ++ [(2, plainStory)] }
    said (.openWindow 7 [31, 1, 0, 1, 0, 9]) (mayView (reading none 0 [0x41, 0x0D, 0x42])) =
        [1, 0, 0, 0, 3, 0, 2] ∧
      (after (.openWindow 7 [31, 1, 0, 1, 0, 2])
        (mayView (reading (some .reference) 0 [0x41, 0x0D, 0x42]))).panes[31] =
        ⟨some ⟨1, 0, 0, .insert, .edit, false⟩, some ⟨1, 2⟩⟩ ∧
      (after (.openWindow 7 [31, 0, 0, 1, 0, 1]) changedSession).fit.list = [⟨1, 0⟩] ∧
      (after (.openWindow 7 [31, 0, 0, 1, 0, 1]) changedSession).panes[31].session =
        some ⟨1, 0, 1, .insert, .edit, false⟩ ∧
      (after (.openWindow 7 [31, 0, 0, 2, 0, 0]) other).fit.list = [⟨1, 0⟩] ∧
      ((storyOf (after (.openWindow 7 [31, 0, 0, 2, 0, 0]) other) 1).map (·.holding),
        (storyOf (after (.openWindow 7 [31, 0, 0, 2, 0, 0]) other) 2).map (·.holding)) =
        (some .idle, some (.editing 31)) := by decide +kernel

/-- R134: the four outcomes of an offer, made by CLOSE WINDOW of a modified session: no face, already queued, room, and a full queue. -/
theorem witness_OffersAreTaken :
    let status := fun s => (storyOf (after (.closeWindow 7 [31, 0]) s) 1).map (·.fit.status)
    let full := { changedSession with fit := ⟨(List.range 8).map fun i => ⟨i + 2, 0⟩, none⟩ }
    let waiting := { changedSession with fit := ⟨[⟨2, 0⟩, ⟨1, 3⟩], none⟩ }
    let unloaded := { changedSession with faces := State.reset.faces }
    unloaded.faces[editedStory.setting.face].loaded = false ∧ inFitQueue waiting 1 = true ∧
      inFitQueue full 1 = false ∧ 8 ≤ full.fit.list.length ∧
      (after (.closeWindow 7 [31, 0]) unloaded).fit.list = [] ∧
      (after (.closeWindow 7 [31, 0]) waiting).fit.list = waiting.fit.list ∧
      (after (.closeWindow 7 [31, 0]) changedSession).fit.list = [⟨1, 0⟩] ∧
      status changedSession = some .pending ∧
      (after (.closeWindow 7 [31, 0]) full).fit.list = full.fit.list ∧
      status full = some .unknown := by decide +kernel

/-! ### Witnesses: faces, settings, fits (spec/07) -/

/-- SET WIDTHS with one width for every character and for the space. -/
def widthsBody (f minSpace maxSpace w : Byte) : List Byte :=
  [f, minSpace, maxSpace] ++ List.replicate 95 w

/-- Face 0 loaded: every width 10 units, spaces 5 to 20. -/
def loadedFace : Face := ⟨true, Vector.replicate 95 10, 5, 20, 1⟩

/-- Face 0 loaded in a state. -/
def withFace (s : State) : State := { s with faces := s.faces.set 0 loadedFace }

/-- A job with one whole entry of story 1. -/
def job (n : Nat) : Job := ⟨n, 0, [⟨1, .whole, none, none, none, none, none, false, false⟩]⟩

/-- Channel 3 in a state with jobs. -/
def channelWith (st : ChannelState) (jobs : List Job) (s : State) : State :=
  { s with channels := s.channels.set 3 { Channel.reset with state := st, jobs := jobs } }

theorem witness_SetWidths :
    Comes 0x22 98 (widthsBody 7 1 36 36) State.reset ∧ 8 ≤ u8 (widthsBody 8 1 36 36) 0 ∧
      36 < u8 (widthsBody 7 1 36 37) (3 + 94) ∧ u8 (widthsBody 7 1 36 0) 3 = 0 ∧
      u8 (widthsBody 7 0 36 9) 1 = 0 ∧ u8 (widthsBody 7 9 36 8) 3 < u8 (widthsBody 7 9 36 8) 1 ∧
      u8 (widthsBody 7 1 8 9) 2 < u8 (widthsBody 7 1 8 9) 3 ∧ 36 < u8 (widthsBody 7 1 37 36) 2 ∧
      (∀ i : Fin 95, u8 (widthsBody 7 36 36 36) (3 + i) ≤ 36) ∧ faceBusy State.reset 7 = none ∧
      faceBusy (withFace (channelWith .running [job 1] (oneStory 1 plainStory))) 0 = some 3 ∧
      said (.setWidths 7 (widthsBody 8 1 36 36)) State.reset = [8] ∧
      said (.setWidths 7 (widthsBody 7 1 37 36)) State.reset = [8] ∧
      said (.setWidths 7 (widthsBody 0 1 36 36))
        (withFace (channelWith .running [job 1] (oneStory 1 plainStory))) = [2, 3] ∧
      said (.setWidths 7 (widthsBody 7 36 36 36)) State.reset = [0, 0, 1, 0, 0, 0, 0] ∧
      Tab.wf (oneStory 1 plainStory).stories :=
  ⟨comes _ _ _ _ (by decide) rfl, by decide +kernel⟩

/-- SET SETTING of story 1 to zeros in a face. -/
def settingBody (face : Byte) : List Byte := [0, 1, face] ++ List.replicate 10 0

theorem witness_SetSetting :
    Comes 0x24 13 (settingBody 7) (oneStory 1 plainStory) ∧ 8 ≤ u8 (settingBody 8) 2 ∧
      settingAt (settingBody 7) 2 = some ⟨7, 0, 0, 0, 0, 0⟩ ∧
      clampSetting ⟨7, 0, 0, 0, 0, 0⟩ ≠ plainStory.setting ∧
      clampSetting Setting.partDefault = Setting.partDefault ∧
      clampSetting ⟨7, 999, 1439, 999, 999, 20001⟩ = ⟨7, 144, 1439, 288, 719, 20000⟩ ∧
      said (.setSetting 7 (settingBody 8)) (oneStory 1 plainStory) = [8] ∧
      said (.setSetting 7 (settingBody 7)) State.reset = [5] ∧
      said (.setSetting 7 (settingBody 7)) (oneStory 1 { plainStory with holding := .setting 3 }) =
        [3, 3] ∧
      said (.setSetting 7 (settingBody 7)) (oneStory 1 plainStory) =
        1 :: eSetting Setting.partDefault ∧
      said (.setSetting 7 ([0, 1] ++ eSetting Setting.partDefault)) (oneStory 1 plainStory) =
        0 :: eSetting Setting.partDefault :=
  ⟨comes _ _ _ _ (by decide) rfl, by decide +kernel⟩

/-- Stories wait in the Fit Queue. -/
def queued (l : List Nat) (s : State) : State :=
  { s with fit := ⟨l.map fun id => ⟨id, 0⟩, none⟩ }

/-- R120: three stories name face 0, one of them queued, with six others queued before: one joins, one is left UNKNOWN. -/
theorem witness_SetWidths_offers :
    let s := queued [3, 4, 5, 6, 7, 8, 9]
      { State.reset with stories := [(1, plainStory), (2, plainStory), (3, plainStory)] }
    Tab.wf s.stories ∧ faceBusy s 0 = none ∧
      said (.setWidths 7 (widthsBody 0 1 36 36)) s = [0, 0, 1, 0, 3, 0, 2] ∧
      (after (.setWidths 7 (widthsBody 0 1 36 36)) s).fit.list.map (·.story) =
        [3, 4, 5, 6, 7, 8, 9, 1] ∧
      (storyOf (after (.setWidths 7 (widthsBody 0 1 36 36)) s) 1).map (·.fit.status) = some .pending ∧
      (storyOf (after (.setWidths 7 (widthsBody 0 1 36 36)) s) 2).map (·.fit.status) =
        some .unknown := by decide +kernel

theorem witness_FitStory :
    Comes 0x25 2 [0, 1] (oneStory 1 plainStory) ∧
      (withFace State.reset).faces[plainStory.setting.face].loaded = true ∧
      State.reset.faces[plainStory.setting.face].loaded = false ∧
      inFitQueue (queued [2, 1] State.reset) 1 = true ∧
      inFitQueue (queued [2, 3, 4, 5, 6, 7, 8, 9] State.reset) 1 = false ∧
      8 ≤ (queued [2, 3, 4, 5, 6, 7, 8, 9] State.reset).fit.list.length ∧
      said (.fitStory 7 [0, 1]) (oneStory 1 plainStory) = [5] ∧
      said (.fitStory 7 [0, 1]) (withFace (queued [2, 1] (oneStory 1 plainStory))) = [0, 0, 2] ∧
      said (.fitStory 7 [0, 1])
        (withFace (queued [2, 3, 4, 5, 6, 7, 8, 9] (oneStory 1 plainStory))) = [6] ∧
      said (.fitStory 7 [0, 1]) (withFace (oneStory 1 plainStory)) = [0, 0, 1] ∧
      (after (.fitStory 7 [0, 1]) (withFace (oneStory 1 plainStory))).engine.owner = some .fit :=
  ⟨comes _ _ _ _ (by decide) rfl, by decide +kernel⟩

/-- A fit of story 1 in flight, noted at a version. -/
def fitting (version : Word16) (text : List Byte) : State :=
  { withFace (queued [1] (withText text plainStory)) with
    engine := { Engine.reset with owner := some .fit }
    fit := ⟨[⟨1, 255⟩], some ⟨1, version, Setting.partDefault, 1, Resume.start, 0, 0, 0, true, false⟩⟩ }

theorem witness_FitGrantEnd :
    (fitting 0 [0x41]).engine.owner = some .fit ∧
      storyOf (fitting 0 [0x41]) 1 = some { plainStory with chain := [0] } ∧
      fitStands (fitting 0 [0x41]) ⟨1, 0, Setting.partDefault, 1, Resume.start, 0, 0, 0, true, false⟩
        plainStory = true ∧
      fitStands (fitting 1 [0x41]) ⟨1, 1, Setting.partDefault, 1, Resume.start, 0, 0, 0, true, false⟩
        plainStory = false ∧
      (grantWork (setWith (fitting 0 [0x41]) Setting.partDefault) [0x41] Resume.start).2 = none ∧
      (grantWork (setWith (fitting 0 [0x41]) Setting.partDefault) [0x41, 0x0D, 0x42] Resume.start).2 =
        some ⟨2, 2, true⟩ ∧
      (fitting 1 [0x41]).fit.list.filter (fun i => i.story = 1) = [⟨1, 255⟩] ∧
      (after .fitGrantEnd (fitting 0 [0x41])).fit = ⟨[], none⟩ ∧
      (storyOf (after .fitGrantEnd (fitting 0 [0x41])) 1).map (·.fit) =
        some ⟨.none, 20, 1, 0, 0, 0⟩ ∧
      (after .fitGrantEnd (fitting 1 [0x41])).fit.list = [⟨1, 255⟩] := by decide +kernel

/-- R123: a loaded face offers; an unloaded one takes the story out of the Fit Queue, but not while a grant of its fit is in flight. -/
theorem witness_SetSetting_fit :
    let between := { fitting 0 [0x41] with
      engine := Engine.reset
      fit := ⟨[⟨2, 0⟩, ⟨1, 255⟩],
        some ⟨1, 0, Setting.partDefault, 1, Resume.start, 0, 0, 0, false, false⟩⟩ }
    (storyOf (after (.setSetting 7 (settingBody 0)) (withFace (oneStory 1 plainStory))) 1).map
        (·.fit.status) = some .pending ∧
      (after (.setSetting 7 (settingBody 7)) between).fit = ⟨[⟨2, 0⟩], none⟩ ∧
      (storyOf (after (.setSetting 7 (settingBody 7)) between) 1).map (·.fit.status) =
        some .unknown ∧
      (after (.setSetting 7 (settingBody 7)) (fitting 0 [0x41])).fit = (fitting 0 [0x41]).fit ∧
      (after (.setSetting 7 (settingBody 7)) (oneStory 1 plainStory)).fit = ⟨[], none⟩ := by
  decide +kernel

theorem witness_FitStatus :
    fitStatusOf ⟨0, 18, 60, 20, 0, 30⟩ 3 = .on ∧ fitStatusOf ⟨0, 18, 60, 20, 0, 30⟩ 4 = .over ∧
      fitStatusOf ⟨0, 18, 60, 20, 0, 30⟩ 1 = .short ∧ fitStatusOf ⟨0, 18, 60, 20, 0, 30⟩ 2 = .on ∧
      fitStatusOf ⟨0, 18, 60, 20, 0, 0⟩ 3 = .none := by decide

theorem witness_Lines :
    ([0x41, 0x42, 0x43] : List Byte) ≠ [] ∧ ([0x41, 0x42, 0x43] : List Byte).head? ≠ some 0x20#8 ∧
      (setLine ⟨Vector.replicate 95 10, 5, 20, ⟨0, 18, 18, 20, 0, 0⟩⟩ 1 true
        [0x41, 0x20, 0x42, 0x20, 0x43]).1.cls = .justified ∧
      (setLine ⟨Vector.replicate 95 10, 5, 20, ⟨0, 18, 18, 20, 0, 0⟩⟩ 1 true
        [0x41, 0x42, 0x43, 0x44]).1.forced = true := by decide +kernel

/-- Widths of 10 units, the space's among them, a minimum space of 5 and a maximum of 12, at size 18. -/
def tools (measure : Nat) : SetWith := ⟨Vector.replicate 95 10, 5, 12, ⟨0, 18, measure, 20, 0, 0⟩⟩

/-- R126 to R130: a line of two words that leaves a third and is loose, one quad left at the normal space and one below it, a loose line of one word, a forced line with a remainder, and one that takes the last word whole. -/
theorem witness_LinesAreGreedy :
    wordsOf [0x41, 0x42, 0x20, 0x20, 0x43] = [[0x41, 0x42], [0x43]] ∧
      (tools 18).width [0x41, 0x42] = 360 ∧ (tools 18).available true = 648 ∧
      setLine (tools 18) 1 true [0x41, 0x20, 0x20, 0x42, 0x20, 0x43, 0x20, 0x44] =
        (⟨1, true, [0x41, 0x20, 0x42], 1, .justified, none, true, false⟩, [0x43, 0x20, 0x44]) ∧
      setLine (tools 18) 1 true [0x41, 0x42, 0x43] =
        (⟨1, true, [0x41, 0x42, 0x43], 0, .quadLeft, none, false, false⟩, []) ∧
      setLine (tools 18) 1 true [0x41, 0x20, 0x42] =
        (⟨1, true, [0x41, 0x20, 0x42], 1, .quadLeft, some 10, false, false⟩, []) ∧
      setLine (tools 20) 1 true [0x41, 0x20, 0x42, 0x20, 0x43] =
        (⟨1, true, [0x41, 0x20, 0x42, 0x20, 0x43], 2, .quadLeft, some 5, false, false⟩, []) ∧
      setLine (tools 18) 1 false [0x41, 0x42, 0x43, 0x20, 0x44] =
        (⟨1, false, [0x41, 0x42, 0x43], 0, .quadLeft, none, true, false⟩, [0x44]) ∧
      setLine (tools 18) 1 true [0x41, 0x42, 0x43, 0x44, 0x20, 0x45] =
        (⟨1, true, [0x41, 0x42, 0x43], 0, .quadLeft, none, false, true⟩, [0x44, 0x20, 0x45]) ∧
      setLine (tools 4) 1 true [0x41, 0x20, 0x45] =
        (⟨1, true, [0x41], 0, .quadLeft, none, false, true⟩, [0x45]) := by decide +kernel

/-- R132: 65 lines of one character in a narrow measure; the grant stops after 64 of them, and the next sets the last; an empty paragraph; the text's end. -/
theorem witness_GrantWork :
    let text := (List.replicate 65 [0x41, 0x20]).flatten ++ [0x0D, 0x0D, 0x42]
    (grantWork (tools 4) text Resume.start).1.length = 64 ∧
      (grantWork (tools 4) text Resume.start).2 = some ⟨1, 128, false⟩ ∧
      (grantWork (tools 4) text ⟨1, 128, false⟩).2 = some ⟨2, 131, true⟩ ∧
      (grantWork (tools 4) text ⟨1, 128, false⟩).1.map (·.first) = [false] ∧
      wordsOf [] = [] ∧
      grantWork (tools 4) text ⟨2, 131, true⟩ =
        ([⟨2, true, [], 0, .quadLeft, none, false, false⟩], some ⟨3, 132, true⟩) ∧
      (grantWork (tools 4) text ⟨3, 132, true⟩).2 = none ∧
      grantWork (tools 4) text ⟨4, 133, true⟩ = ([], none) := by decide +kernel

/-! ### Witnesses: typesetter channels and the Setting Engine (spec/08) -/

/-- QUEUE JOB: channel, edition, and one whole entry of story 1 without overrides. -/
def jobBody (c ed n : Byte) : List Byte := [c, ed, n] ++ ([0, 1] ++ List.replicate 11 0)

theorem witness_QueueJob :
    Comes 0x27 3 (jobBody 3 4 1) (withFace (oneStory 1 plainStory)) ∧ u8 (jobBody 3 4 0) 2 = 0 ∧
      16 < u8 (jobBody 3 4 17) 2 ∧ (jobBody 3 4 2).length < 3 + 13 * u8 (jobBody 3 4 2) 2 ∧
      ¬ (rawStories (rawEntries ((jobBody 3 4 1).drop 3 ++ (jobBody 3 4 1).drop 3) 2)).Nodup ∧
      (rawStories (rawEntries ((jobBody 3 4 1).drop 3) 1)).Nodup ∧
      (4 ≤ u8 (jobBody 4 4 1) 0 ∧ 5 ≤ u8 (jobBody 3 5 1) 1) ∧
      entriesOf (rawEntries ((jobBody 3 4 1).drop 3) 1) = some (job 1).entries ∧
      entriesOf (rawEntries (List.replicate 13 0) 1) = none ∧
      (job 1).entries.findIdx? (entryMissing (oneStory 1 plainStory)) = some 0 ∧
      (∀ e ∈ (job 1).entries, entryMissing (withFace (oneStory 1 plainStory)) e = false) ∧
      (∀ e ∈ (job 1).entries, entryHeld (withFace (oneStory 1 plainStory)) e = false) ∧
      (∀ e ∈ (job 1).entries, e.mode = .whole) ∧
      said (.queueJob 7 (jobBody 3 4 2)) State.reset = [9] ∧
      said (.queueJob 7 (jobBody 4 4 1)) State.reset = [8] ∧
      said (.queueJob 7 (jobBody 3 4 1)) (oneStory 1 plainStory) = [5, 1] ∧
      said (.queueJob 7 (jobBody 3 4 1))
        (channelWith .running [job 1, job 2, job 3, job 4] (withFace (oneStory 1 plainStory))) = [6] ∧
      said (.queueJob 7 (jobBody 3 4 1))
        (withFace (oneStory 1 { plainStory with holding := .filing 3 })) = [3, 0, 1, 1, 0x53] ∧
      said (.queueJob 7 (jobBody 3 4 1)) (withFace (oneStory 1 plainStory)) = [0, 1, 0, 1] ∧
      (after (.queueJob 7 (jobBody 3 4 1)) (withFace (oneStory 1 plainStory))).engine.owner =
        some (.channel 3) :=
  ⟨comes _ _ _ _ (by decide) rfl, by decide +kernel⟩

/-- QUEUE JOB for channel 3 and edition 4 with a CHANGED entry of each story named. -/
def changedBody (ids : List Byte) : List Byte :=
  [3, 4, BitVec.ofNat 8 ids.length] ++ ids.flatMap fun i => [0, i, 1] ++ List.replicate 10 0

/-- Stories 1 and 2, each of one block, that of story 2 flagged. -/
def markedSecond : State :=
  let s := withFace (withText [0x41] plainStory)
  { s with
    stories := s.stories ++ [(2, { plainStory with chain := [1] })]
    memory := s.memory ++ [(1, ⟨[0x42], true⟩)] }

/-- R147: with k = 1 of two entries, with k = 0, and with every entry released. -/
theorem witness_UnchangedEntriesOfANewJob :
    Comes 0x27 3 (changedBody [1, 2]) markedSecond ∧
      (rawStories (rawEntries ((changedBody [1, 2]).drop 3) 2)).Nodup ∧
      entriesOf (rawEntries ((changedBody [1, 2]).drop 3) 2) =
        some [⟨1, .changed, none, none, none, none, none, false, false⟩,
          ⟨2, .changed, none, none, none, none, none, false, false⟩] ∧
      (∀ id ∈ [1, 2], entryMissing markedSecond
          ⟨id, .changed, none, none, none, none, none, false, false⟩ = false ∧
        entryHeld markedSecond ⟨id, .changed, none, none, none, none, none, false, false⟩ = false) ∧
      markedSecond.channels[(3 : Fin 4)].state = .idle ∧ markedSecond.channels[(3 : Fin 4)].jobs = [] ∧
      (Memory.read markedSecond.memory 0).changed = false ∧
      ((Memory.read markedSecond.memory 1).changed = true ∧ fill markedSecond.memory 1 = 1) ∧
      said (.queueJob 7 (changedBody [1, 2])) markedSecond = [0, 1, 0, 1] ∧
      (after (.queueJob 7 (changedBody [1, 2])) markedSecond).channels[3].pos =
        .at 1 ⟨1, 0, true⟩ false ∧
      (storyOf (after (.queueJob 7 (changedBody [1, 2])) markedSecond) 1).map (·.holding) =
        some .idle ∧
      (storyOf (after (.queueJob 7 (changedBody [1, 2])) markedSecond) 2).map (·.holding) =
        some (.setting 3) ∧
      (after (.queueJob 7 (changedBody [2, 1])) markedSecond).channels[3].pos =
        .at 0 ⟨1, 0, true⟩ false ∧
      said (.queueJob 7 (changedBody [1])) markedSecond = [0, 1, 0, 1] ∧
      (after (.queueJob 7 (changedBody [1])) markedSecond).channels[3].finished =
        [⟨1, 4, .done, 1, 0, .notApplicable⟩] ∧
      (after (.queueJob 7 (changedBody [1])) markedSecond).channels[3].state = .idle :=
  ⟨comes _ _ _ _ (by decide) rfl, by decide +kernel⟩

theorem witness_JobNumbers :
    ChannelsFit State.reset ∧ nextNumber { State.reset with lastJob := 255 } = 1 ∧
      nextNumber (channelWith .running [job 1] State.reset) = 2 := by
  refine ⟨?_, by decide +kernel⟩
  unfold ChannelsFit Channel.Fits; decide +kernel

theorem witness_SetArbitration :
    Comes 0x28 6 [1, 3, 3, 3, 3, 4] State.reset ∧ [1, 0, 0, 0, 0].length < 6 ∧
      2 ≤ u8 [2, 0, 0, 0, 0, 0] 0 ∧ u8 [1, 3, 3, 3, 3, 4] 0 = ArbMode.rank.code ∧
      said (.setArbitration 7 [1, 0, 0, 0, 0]) State.reset = [9] ∧
      said (.setArbitration 7 [2, 0, 0, 0, 0, 0]) State.reset = [8] ∧
      said (.setArbitration 7 [1, 3, 3, 3, 3, 4]) State.reset = [1, 0, 0, 0, 0, 0, 0] ∧
      (after (.setArbitration 7 [1, 0, 1, 2, 3, 4]) State.reset).engine.levels.toList =
        [0, 1, 2, 3, 3] :=
  ⟨comes _ _ _ _ (by decide) rfl, by decide +kernel⟩

/-- Channel 3 requests the engine, and so does the Fit Queue. -/
def twoClients (mode : ArbMode) (fitLevel : Nat) (last : Client) : State :=
  let s := queued [1] (withFace (oneStory 1 { plainStory with holding := .setting 3 }))
  { s with
    channels := s.channels.set 3
      { Channel.reset with state := .running, jobs := [job 1], pos := .at 0 ⟨1, 0, true⟩ false }
    engine := ⟨mode, (Vector.replicate 5 0).set 4 fitLevel, last, none⟩ }

theorem witness_Arbiter :
    requesting (twoClients .rotate 0 .fit) (.channel 3) = true ∧
      requesting (twoClients .rotate 0 .fit) .fit = true ∧
      chooseClient (twoClients .rotate 3 .fit) = some (.channel 3) ∧
      chooseClient (twoClients .rotate 3 (.channel 3)) = some .fit ∧
      chooseClient (twoClients .rank 3 .fit) = some .fit ∧ chooseClient State.reset = none ∧
      (twoClients .rotate 0 .fit).engine.owner = none ∧ (fitting 0 []).engine.owner = some .fit := by
  decide +kernel

/-- R136: a fit begins where the Fit Queue is granted, on the story at its head. -/
theorem witness_FitBegins :
    (queued [1] (withFace (oneStory 1 plainStory))).fit.progress = none ∧
      (queued [1] (withFace (oneStory 1 plainStory))).fit.list = ⟨1, 0⟩ :: [] ∧
      (grantEngine (queued [1] (withFace (oneStory 1 plainStory)))).fit.progress =
        some ⟨1, 0, Setting.partDefault, 1, ⟨1, 0, true⟩, 0, 0, 0, true, false⟩ := by decide +kernel

theorem test_passed_edition_promotes :
    chooseClient
      { twoClients .rank 3 .fit with
        editions := State.reset.editions.set 0 ⟨0, .passed⟩
        channels := (twoClients .rank 3 .fit).channels.set 3
          { (twoClients .rank 3 .fit).channels[3] with jobs := [{ job 1 with edition := 1 }] } } =
      some (.channel 3) := by decide +kernel

theorem witness_Clients :
    requesting (fitting 0 []) .fit = false ∧ requesting State.reset (.channel 3) = false ∧
      effectiveLevel (twoClients .rank 3 .fit) .fit = 3 ∧
      (twoClients .rank 3 .fit).channels[(3 : Fin 4)].jobs = job 1 :: [] ∧
      (job 1).edition.val = 0 ∧ ({ job 1 with edition := 4 } : Job).edition.val = (3 : Fin 4).val + 1 ∧
      effectiveLevel (twoClients .rank 3 .fit) (.channel 3) = 0 ∧
      (twoClients .rank 3 .fit).channels[(2 : Fin 4)].jobs = [] := by decide +kernel

/-- Channel 3 with a byte in its FIFO and a stall timer that started at 0; the reading is t. -/
def stalling (st : ChannelState) (t : Nat) : State :=
  { State.reset with
    channels := State.reset.channels.set 3
      { Channel.reset with
        state := st, jobs := [job 1], fifo := [⟨0x41, false, .plain, 0⟩], batchOpen := false
        waitChoice := 3, stallChoice := 3, stallFrom := some 0, pos := .at 0 ⟨1, 0, true⟩ true }
    now := t }

theorem witness_SetChannel :
    Comes 0x29 6 [3, 0x96, 0, 64, 3, 3] (stalling .running 1000) ∧ 4 ≤ u8 [4, 0, 0, 0, 0, 0] 0 ∧
      clampRate (u16 [3, 0x96, 0, 64, 3, 3] 1) = 38400 ∧ clampRate 299 = 300 ∧
      (stalling .running 1000).channels[(3 : Fin 4)].stallFrom = some 0 ∧
      stallLimit 1 = some 1000 ∧ stallLimit 3 = some 100000 ∧
      said (.setChannel 7 [4, 0, 0, 0, 0, 0]) State.reset = [8] ∧
      said (.setChannel 7 [3, 0x96, 0, 64, 3, 3]) State.reset = [0, 0x25, 0x80, 64, 0, 0] ∧
      said (.setChannel 7 [3, 0x96, 1, 65, 4, 4]) State.reset = [1, 0x25, 0x80, 64, 0, 0] ∧
      (after (.setChannel 7 [3, 0x96, 0, 64, 3, 1]) (stalling .running 1000)).channels[3].state =
        .halted ∧
      (after (.setChannel 7 [3, 0x96, 0, 64, 3, 1]) (stalling .running 999)).channels[3].state =
        .running :=
  ⟨comes _ _ _ _ (by decide) rfl, by decide +kernel⟩

theorem witness_SetChannel_tests :
    (stalling .cancelling 1000).channels[(3 : Fin 4)].jobs = [job 1] ∧
      batchTest 1000 { (stalling .running 1000).channels[(3 : Fin 4)] with
        threshold := 1, waitChoice := 3 } = true ∧
      batchTest 999 { (stalling .running 999).channels[(3 : Fin 4)] with
        threshold := 64, waitChoice := 3 } = false ∧
      (after (.setChannel 7 [3, 0x96, 0, 1, 3, 0]) (stalling .running 1000)).channels[3].batchOpen =
        true ∧
      (after (.setChannel 7 [3, 0x96, 0, 64, 3, 0]) (stalling .running 999)).channels[3].batchOpen =
        false ∧
      (after (.setChannel 7 [3, 0x96, 0, 64, 3, 1]) (stalling .cancelling 1000)).channels[3].finished =
        [⟨1, 0, .cancelled, 1, 0, .notSent⟩] ∧
      (after (.setChannel 7 [3, 0x96, 0, 64, 3, 1]) (stalling .cancelling 1000)).channels[3].state =
        .idle := by decide +kernel

theorem witness_Resume_and_Flush :
    Comes 0x2A 1 [3] (stalling .halted 0) ∧ Comes 0x2B 1 [3] (stalling .halted 0) ∧ 4 ≤ u8 [4] 0 ∧
      said (.resume 7 [4]) State.reset = [8] ∧ said (.resume 7 [3]) State.reset = [2, 0] ∧
      said (.resume 7 [3]) (stalling .running 0) = [0, 1] ∧
      said (.resume 7 [3]) (stalling .cancelling 0) = [2, 3] ∧
      said (.resume 7 [3]) (stalling .halted 0) = [0, 1] ∧
      said (.flushChannel 7 [4]) State.reset = [8] ∧ said (.flushChannel 7 [3]) State.reset = [0] ∧
      said (.flushChannel 7 [3]) (stalling .running 0) = [2] ∧
      said (.flushChannel 7 [3]) (stalling .cancelling 0) = [2] ∧
      said (.flushChannel 7 [3]) (stalling .halted 0) = [0, 0, 1] ∧
      (after (.flushChannel 7 [3]) (stalling .halted 0)).channels[3].fifo = [] ∧
      (stalling .halted 0).channels[(3 : Fin 4)].entries[0]? =
        some ⟨1, .whole, none, none, none, none, none, false, false⟩ :=
  ⟨comes _ _ _ _ (by decide) rfl, comes _ _ _ _ (by decide) rfl, by decide +kernel⟩

theorem witness_CancelJob :
    Comes 0x2C 2 [3, 1] (channelWith .running [job 1, job 255] (oneStory 1 plainStory)) ∧
      4 ≤ u8 [4, 1] 0 ∧ u8 [3, 0] 1 = 0 ∧ u8 [3, 255] 1 = 255 ∧ (job 1).unreleased = (job 1).entries ∧
      (channelWith .running [job 1, job 255] State.reset).channels[(3 : Fin 4)].jobs =
        job 1 :: [job 255] ∧
      said (.cancelJob 7 [3, 0]) State.reset = [8] ∧ said (.cancelJob 7 [3, 1]) State.reset = [5] ∧
      said (.cancelJob 7 [3, 1]) (channelWith .cancelling [job 1] State.reset) = [2] ∧
      said (.cancelJob 7 [3, 1]) (channelWith .running [job 1] State.reset) = [0, 0, 1, 0, 0] ∧
      said (.cancelJob 7 [3, 255]) (channelWith .running [job 1, job 255] State.reset) = [0, 0, 1] ∧
      (after (.cancelJob 7 [3, 1]) (channelWith .running [job 1] State.reset)).channels[3].fifo.map
        (·.byte) = [0x8F, 1] ∧
      (after (.cancelJob 7 [3, 255]) (channelWith .running [job 1, job 255] State.reset)).channels[3].finished =
        [⟨255, 0, .cancelled, 1, 0, .notApplicable⟩] :=
  ⟨comes _ _ _ _ (by decide) rfl, by decide +kernel⟩

/-- A grant of channel 3 ends over story 1 with this text. -/
def granted (text : List Byte) (grant : Grant) (jobs : List Job) : State :=
  let s := withFace (withText text { plainStory with holding := .setting 3 })
  { s with
    channels := s.channels.set 3
      { Channel.reset with
        state := .running, jobs := jobs, pos := .at 0 ⟨1, 0, true⟩ false, grant := grant }
    engine := { Engine.reset with owner := some (.channel 3), last := .channel 3 } }

/-- A job of stories 1 and 2. -/
def pairJob : Job :=
  { job 1 with entries := (job 1).entries ++ [⟨2, .whole, none, none, none, none, none, false, false⟩] }

theorem witness_ChannelGrantEnd :
    (granted [0x41] .discard [job 1]).engine.owner = some (.channel 3) ∧
      (granted [0x41] .discard [job 1]).channels[(3 : Fin 4)].grant ≠ .keep ∧
      (granted [0x41] .keep [job 1]).channels[(3 : Fin 4)].grant = .keep ∧
      (granted [0x41] .keep [job 1]).channels[(3 : Fin 4)].entries.length = 0 + 1 ∧
      (granted [0x41] .keep [pairJob]).channels[(3 : Fin 4)].entries[1]?.map (·.mode) = some .whole ∧
      (after (.channelGrantEnd 3) (granted [0x41] .discard [job 1])).channels[3].fifo = [] ∧
      (after (.channelGrantEnd 3) (granted [0x41] .keep [job 1])).channels[3].pos = .complete ∧
      (after (.channelGrantEnd 3) (granted [0x41] .keep [pairJob])).channels[3].pos =
        .at 1 ⟨1, 0, true⟩ false ∧
      (after (.channelGrantEnd 3) (granted [0x41, 0x0D, 0x42] .keep [job 1])).engine.owner =
        some (.channel 3) := by decide +kernel

/-- Story 1 in two paragraphs of a block each, the second flagged, and entries over it. -/
def twoParagraphs : State :=
  let s := withFace (oneStory 1 { plainStory with chain := [0, 1], holding := .setting 3 })
  { s with memory := [(0, ⟨[0x41, 0x0D], false⟩), (1, ⟨[0x42, 0x20, 0x43], true⟩)] }

/-- An entry of story 1 in this mode, at size 12 and indent 31, more than half the measure. -/
def overriding (mode : EntryMode) : Entry := ⟨1, mode, none, some 12, none, none, some 31, false, false⟩

/-- R141, R145, R147: a CHANGED grant begins at the second paragraph, a WHOLE one at the first; a paragraph already begun goes on; nothing is left behind the text; the codes of the lines and of the bare entry. -/
theorem witness_GrantCodes :
    let st := { plainStory with chain := [0, 1], holding := .setting 3 }
    textOf twoParagraphs st = [0x41, 0x0D, 0x42, 0x20, 0x43] ∧
      charFlags twoParagraphs.memory [0, 1] = [false, false, true, true, true] ∧
      grantStart twoParagraphs (overriding .changed) st Resume.start = some ⟨2, 2, true⟩ ∧
      grantStart twoParagraphs (overriding .whole) st Resume.start = some Resume.start ∧
      grantStart twoParagraphs (overriding .changed) st ⟨1, 1, false⟩ = some ⟨1, 1, false⟩ ∧
      grantStart twoParagraphs (overriding .changed) st ⟨3, 5, true⟩ = none ∧
      channelGrant twoParagraphs (overriding .changed) st Resume.start false =
        ([[.storyStart 1, .face 0, .size 12, .leading 20, .measure 60, .paragraph 2, .indent 30,
          .wordSpace 10, .char 0x42, .char 0x20, .char 0x43, .leftEnd, .storyEnd 1]], none) ∧
      (channelGrant twoParagraphs (overriding .whole) st Resume.start false).2 = some ⟨2, 2, true⟩ ∧
      channelGrant twoParagraphs (overriding .whole) { st with chain := [] } Resume.start false =
        ([[.storyStart 1, .face 0, .size 12, .leading 20, .measure 60, .storyEnd 1]], none) := by
  decide +kernel

/-- R151: the second code does not fit in a FIFO with one byte left; the first has moved. -/
theorem witness_CodesMove :
    let s := { State.reset with
      channels := State.reset.channels.set 3
        { Channel.reset with
          state := .halted, lines := [[.char 0x41, .wordSpace 10], [.leftEnd]]
          fifo := List.replicate 63 ⟨0x42, false, .plain, 0⟩ } }
    ChannelsFit s ∧
      (settle s).channels[3].lines = [[.wordSpace 10], [.leftEnd]] ∧
      (settle s).channels[3].fifo =
        List.replicate 63 ⟨0x42, false, .plain, 0⟩ ++ [⟨0x41, false, .plain, 0⟩] := by
  unfold ChannelsFit Channel.Fits; decide +kernel

/-- Channel 3 sends a byte that stands at the head of its FIFO. -/
def sendingOut (st : ChannelState) (b : OutByte) (j : Job) : State :=
  let s := withText [0x41] { plainStory with holding := .setting 3 }
  { s with
    channels := s.channels.set 3
      { Channel.reset with
        state := st, jobs := [j], fifo := [b], sending := .busy b true, batchOpen := true }
    memory := [(0, ⟨[0x41], true⟩)] }

theorem witness_TypesetterByte :
    (sendingOut .running ⟨0x41, false, .plain, 0⟩ (job 1)).channels[(3 : Fin 4)].sending =
        .busy ⟨0x41, false, .plain, 0⟩ true ∧
      MemoryForm (sendingOut .running ⟨0x41, false, .storyEnd 1, 0⟩ pairJob) ∧
      (∃ e ∈ pairJob.entries, e.story ≠ 1 ∧ e.released = false) ∧
      (after (.typesetterByteSent 3)
        (sendingOut .running ⟨0x41, false, .plain, 0⟩ (job 1))).channels[3].fifo = [] ∧
      (after (.typesetterByteSent 3)
        (sendingOut .running ⟨0x41, false, .storyEnd 1, 0⟩ pairJob)).memory = [(0, ⟨[0x41], false⟩)] ∧
      (storyOf (after (.typesetterByteSent 3)
        (sendingOut .running ⟨0x41, false, .storyEnd 1, 0⟩ pairJob)) 1).map (·.holding) = some .idle ∧
      (after (.typesetterByteSent 3)
        (sendingOut .cancelling ⟨1, false, .abandon, 0⟩ (job 1))).channels[3].finished =
        [⟨1, 0, .cancelled, 1, 0, .sent⟩] := by
  unfold MemoryForm; decide +kernel

/-- The last story of a job sends its last byte; these jobs wait behind it. -/
def lastByte (waiting : List Job) : State :=
  let s := sendingOut .running ⟨0x41, false, .storyEnd 1, 0⟩ (job 1)
  { s with channels := s.channels.set 3 { s.channels[3] with jobs := job 1 :: waiting } }

theorem witness_LastStory :
    (lastByte []).channels[(3 : Fin 4)].sending = .busy ⟨0x41, false, .storyEnd 1, 0⟩ true ∧
      (storyOf (lastByte []) 1).isSome = true ∧
      (∀ e ∈ (job 1).entries, e.story = 1 ∨ e.released = true) ∧
      (lastByte [job 2]).channels[(3 : Fin 4)].jobs = job 1 :: [job 2] ∧
      (job 2).entries =
        ⟨1, .whole, none, none, none, none, none, false, false⟩ :: [] ∧
      (after (.typesetterByteSent 3) (lastByte [])).channels[3].finished =
        [⟨1, 0, .done, 1, 1, .notApplicable⟩] ∧
      (after (.typesetterByteSent 3) (lastByte [])).channels[3].state = .idle ∧
      (after (.typesetterByteSent 3) (lastByte [job 2])).channels[3].jobs = [job 2] ∧
      (after (.typesetterByteSent 3) (lastByte [job 2])).channels[3].state = .running ∧
      (storyOf (after (.typesetterByteSent 3) (lastByte [])) 1).map (·.holding) = some .idle := by
  decide +kernel

/-- A job of story 1 and then the changed blocks of story 2, none of which is flagged. -/
def thenChanged : Job :=
  { job 1 with
    entries := (job 1).entries ++ [⟨2, .changed, none, none, none, none, none, false, false⟩] }

/-- The grant of story 1 ends with that job current. -/
def unchanged : State :=
  let s := granted [0x41] .keep [thenChanged]
  { s with
    stories := s.stories ++ [(2, { plainStory with holding := .setting 3, chain := [1] })]
    memory := s.memory ++ [(1, ⟨[0x42], false⟩)] }

theorem witness_UnchangedEntries :
    unchanged.engine.owner = some (.channel 3) ∧ unchanged.channels[(3 : Fin 4)].grant = .keep ∧
      unchanged.channels[(3 : Fin 4)].pos = .at 0 ⟨1, 0, true⟩ false ∧
      unchanged.channels[(3 : Fin 4)].jobs = thenChanged :: [] ∧
      thenChanged.entries[1]? = some ⟨2, .changed, none, none, none, none, none, false, false⟩ ∧
      thenChanged.entries.length = 0 + 2 ∧
      storyOf unchanged 1 = some { plainStory with holding := .setting 3, chain := [0] } ∧
      (channelGrant unchanged ⟨1, .whole, none, none, none, none, none, false, false⟩
        { plainStory with holding := .setting 3, chain := [0] } ⟨1, 0, true⟩ false).2 = none ∧
      storyOf unchanged 2 = some { plainStory with holding := .setting 3, chain := [1] } ∧
      (∀ b ∈ [1], (Memory.read unchanged.memory b).changed = false) ∧
      (after (.channelGrantEnd 3) unchanged).channels[3].pos = .complete ∧
      (storyOf (after (.channelGrantEnd 3) unchanged) 2).map (·.holding) = some .idle ∧
      (storyOf (after (.channelGrantEnd 3) unchanged) 1).map (·.holding) = some (.setting 3) := by
  decide +kernel

theorem witness_ReadyBatchStall :
    (stalling .running 0).channels[(3 : Fin 4)].fifo = [⟨0x41, false, .plain, 0⟩] ∧
      batchWait (stalling .running 0).channels[(3 : Fin 4)].waitChoice = some 1000 ∧
      (stalling .running 0).channels[(3 : Fin 4)].batchOpen = false ∧
      stallLimit (stalling .running 0).channels[(3 : Fin 4)].stallChoice = some 100000 ∧
      (after (.typReady 3 true) State.reset).channels[3].ready = true ∧
      (after (.batchWaitExpiry 3) (stalling .running 0)).channels[3].batchOpen = true ∧
      (after (.batchWaitExpiry 3) (stalling .running 0)).now = 1000 ∧
      (after (.channelStall 3) (stalling .running 0)).channels[3].state = .halted ∧
      (after (.channelStall 3) (stalling .running 0)).now = 100000 ∧
      (after (.channelStall 3) (stalling .cancelling 0)).channels[3].finished =
        [⟨1, 0, .cancelled, 1, 0, .notSent⟩] := by decide +kernel

/-! ### Witnesses: wire lines (spec/09) -/

/-- Wire line 3 in a state of intake with characters waiting; story 1 is in FILING from it. -/
def wired (intake : Intake) (fifo : List WireChar) : State :=
  let s := withText [0x41] { plainStory with holding := .filing 3 }
  { s with wires := s.wires.set 3 { Wire.reset with intake := intake, fifo := fifo } }

/-- An undamaged character. -/
def good (c : Byte) : WireChar := ⟨c, false, false, false⟩

theorem witness_SetWireLine :
    Comes 0x2E 7 [3, 1, 0x25, 0x80, 8, 0, 1] State.reset ∧ 4 ≤ u8 [4, 0, 0, 0, 0, 0, 0] 0 ∧
      (lineFormatAt [3, 1, 0x25, 0x80, 8, 0, 1] 2).1 = LineFormat.reset ∧
      said (.setWireLine 7 [4, 0, 0, 0, 0, 0, 0]) State.reset = [8] ∧
      said (.setWireLine 7 [3, 0, 0x25, 0x80, 8, 0, 1]) State.reset =
        [0, 0, 0x25, 0x80, 8, 0, 1, 0] ∧
      said (.setWireLine 7 [3, 0, 0x25, 0x80, 8, 0, 1]) (wired (.text 1) []) =
        [0, 1, 0x25, 0x80, 8, 0, 1, 3] ∧
      (storyOf (after (.setWireLine 7 [3, 0, 0x25, 0x80, 8, 0, 1]) (wired (.text 1) [])) 1).map (·.cut) =
        some true ∧
      (after (.setWireLine 7 [3, 1, 0x25, 0x80, 8, 0, 2]) State.reset).wires[3].intake = .hunt :=
  ⟨comes _ _ _ _ (by decide) rfl, by decide +kernel⟩

/-- R175, R178: a FLASH story filed by SET WIRE LINE, with terminal 31 attached at a desk with TAKE on its basket. -/
theorem witness_SetWireLine_files :
    let s := mayView (attach 31 (wired (.text 1) []))
    let u := after (.setWireLine 7 [3, 0, 0x25, 0x80, 8, 0, 1])
      { s with stories := [(1, { plainStory with priority := .flash, holding := .filing 3 })] }
    (s.lines[(31 : Fin 32)].attached = true ∧ s.lines[(0 : Fin 32)].attached = false) ∧
      u.notices.wire[3] = { s.notices.wire[3] with cut := true, filed := 1 } ∧
      u.screens[31].flash = some ⟨[0x41], 0⟩ ∧ u.screens[0].flash = none := by decide +kernel

theorem witness_Selection :
    Comes 0x30 8 [31, 1, 0x2A, 0x30, 0x39, 1, 63, 15] State.reset ∧ Takes ⟨0x31, 7, []⟩ State.reset ∧
      32 ≤ u8 [32, 0, 0, 0, 0, 0, 0, 0] 0 ∧ patternOk 0x2A 0x30 0x39 = true ∧
      patternOk 0x30 0x30 0x30 = false ∧ 2 ≤ u8 [0, 1, 0x2A, 0x2A, 0x2A, 2, 0, 0] 5 ∧
      64 ≤ u8 [0, 1, 0x2A, 0x2A, 0x2A, 0, 64, 0] 6 ∧ 16 ≤ u8 [0, 1, 0x2A, 0x2A, 0x2A, 0, 0, 16] 7 ∧
      said (.setSelection 7 [31, 1, 0x30, 0x30, 0x30, 0, 0, 0]) State.reset = [8] ∧
      said (.setSelection 7 [31, 1, 0x2A, 0x30, 0x39, 1, 63, 15]) State.reset = 0 :: List.replicate 7 0 ∧
      (after (.setSelection 7 [31, 1, 0x2A, 0x30, 0x39, 1, 63, 15]) State.reset).selection[31] =
        some ⟨0x2A, 0x30, 0x39, .reject, 63, 15⟩ ∧
      said (.readSelection 7 []) State.reset = 0 :: List.replicate 224 0 :=
  ⟨comes _ _ _ _ (by decide) rfl, reset_takes _, by decide +kernel⟩

theorem witness_WireReserve :
    Comes 0x32 2 [0x10, 1] State.reset ∧ u16 [0x10, 0] 0 ≤ 4096 ∧ ¬ u16 [0x10, 1] 0 ≤ 4096 ∧
      said (.setWireReserve 7 [0x10, 1]) State.reset = [1, 1, 0, 0x20, 0] ∧
      said (.setWireReserve 7 [0x10, 0]) State.reset = [0, 1, 0, 0x20, 0] :=
  ⟨comes _ _ _ _ (by decide) rfl, by decide +kernel⟩

theorem witness_WireReception :
    (wired .off []).wires[(3 : Fin 4)].intake = .off ∧
      (wired .hunt (List.replicate 15 (good 0))).wires[(3 : Fin 4)].fifo.length < 16 ∧
      (wired .hunt (List.replicate 15 (good 0) ++ [good 1])).wires[(3 : Fin 4)].fifo =
        List.replicate 15 (good 0) ++ [good 1] ∧
      16 ≤ (wired .hunt (List.replicate 15 (good 0) ++ [good 1])).wires[(3 : Fin 4)].fifo.length ∧
      (wired (.header [0x41]) []).wires[(3 : Fin 4)].intake = .header [0x41] ∧
      (after (.wireCharacterReceived 3 ⟨0x41, false, true⟩) (wired .hunt [])).wires[3].fifo =
        [good 0x41] ∧
      (after (.wireCharacterReceived 3 ⟨0x41, false, true⟩)
        (wired .hunt (List.replicate 16 (good 0)))).wires[3].fifo.getLast? =
        some ⟨0, false, true, false⟩ ∧
      (after (.wireBreak 3) (wired .skip [])).wires[3].intake = .hunt ∧
      (after (.wireBreak 3) (wired .hunt [good 0])).wires[3].fifo = [⟨0, false, false, true⟩] := by
  decide +kernel

theorem witness_Intake :
    (wired .skip [good 0x01, good 0x41]).wires[(3 : Fin 4)].fifo = good 0x01 :: [good 0x41] ∧
      (after (.wireIntakeCharacter 3) (wired .skip [good 0x01])).wires[3].intake = .header [] ∧
      (after (.wireIntakeCharacter 3) (wired .hunt [good 0x41])).wires[3].intake = .hunt ∧
      (after (.wireIntakeCharacter 3) (wired (.header []) [⟨0x41, true, false, false⟩])).wires[3].intake =
        .skip ∧
      (after (.wireIntakeCharacter 3) (wired (.header [0x41]) [good 0x01])).wires[3].intake =
        .header [] ∧
      headingFits 0 0x30 = false ∧ headingFits 0 0x5A = true ∧ headingFits 20 0x7E = true ∧
      (after (.wireIntakeCharacter 3) (wired (.header []) [good 0x30])).wires[3].intake = .skip ∧
      (after (.wireIntakeCharacter 3) (wired (.header []) [good 0x5A])).wires[3].intake =
        .header [0x5A] := by decide +kernel

/-- The heading A12, F, E and the slug "A", in hand. -/
def heading : List Byte := [0x41, 0x31, 0x32, 0x46, 0x45, 0x41]

/-- Entry 31 of the Selection Table matches every code. -/
def selecting (a : SelAction) (s : State) : State :=
  { s with selection := s.selection.set 31 (some ⟨0x2A, 0x2A, 0x2A, a, 63, 15⟩) }

theorem witness_CompleteHeading :
    (wired (.header heading) [good 0x0D]).wires[(3 : Fin 4)].fifo =
        ⟨0x0D, false, false, false⟩ :: [] ∧
      (wired (.header heading) [good 0x0D]).wires[(3 : Fin 4)].intake = .header heading ∧
      6 ≤ heading.length ∧ (⟨0x2A, 0x2A, 0x2A, .take, 63, 15⟩ : SelEntry).fits (heading.take 3) = true ∧
      (∀ j : Fin 32, j < 31 → (selecting .take (wired (.header heading) [])).selection[j] = none) ∧
      (∀ j : Fin 32, State.reset.selection[j] = none) ∧
      freeStory? (wired (.header heading) []) = some 2 ∧
      (after (.wireIntakeCharacter 3) (wired (.header heading) [good 0x0D])).wires[3].intake = .skip ∧
      (after (.wireIntakeCharacter 3)
        (selecting .reject (wired (.header heading) [good 0x0D]))).wires[3].intake = .skip ∧
      (after (.wireIntakeCharacter 3)
        (selecting .take (wired (.header heading) [good 0x0D]))).wires[3].intake = .text 2 ∧
      (after (.wireIntakeCharacter 3)
        (selecting .take
          { wired (.header heading) [good 0x0D] with
            stories := (List.range 1024).map fun i => (i + 1, plainStory) })).notices.wire[3].dropped =
        1 := by decide +kernel

theorem witness_IntakeStores :
    storyOf (wired (.text 1) [good 0x42]) 1 =
        some { plainStory with chain := [0], holding := .filing 3 } ∧
      insertChar (wired (.text 1) []).memory [0] 1 0x42 = .made [(0, ⟨[0x41, 0x42], true⟩)] [0] ∧
      needsBlock [] [] 0 = true ∧ Memory.freeCount (wired (.text 1) []).memory = 8191 ∧
      (after (.wireIntakeCharacter 3) (wired (.text 1) [good 0x42])).memory =
        [(0, ⟨[0x41, 0x42], true⟩)] ∧
      (after (.wireIntakeCharacter 3) (wired (.text 1) [good 0x03])).wires[3].intake = .hunt ∧
      (after (.wireIntakeCharacter 3) (wired (.text 1) [good 0x01])).wires[3].intake = .header [] ∧
      (storyOf (after (.wireIntakeCharacter 3) (wired (.text 1) [good 0x01])) 1).map (·.cut) =
        some true ∧
      (after (.wireIntakeCharacter 3) (wired (.text 1) [good 0x00])).wires[3].fifo = [] := by
  decide +kernel

theorem witness_MarksInText :
    storyOf (wired (.text 1) [⟨0x41, true, true, false⟩]) 1 =
        some { plainStory with chain := [0], holding := .filing 3 } ∧
      needsBlock (wired (.text 1) []).memory [0] 1 = false ∧
      insertChar (wired (.text 1) []).memory [0] 1 0x3F = .made [(0, ⟨[0x41, 0x3F], true⟩)] [0] ∧
      isText 0x00 = false ∧
      (after (.wireIntakeCharacter 3) (wired (.text 1) [⟨0x41, true, false, false⟩])).memory =
        [(0, ⟨[0x41, 0x3F], true⟩)] ∧
      (after (.wireIntakeCharacter 3)
        (wired (.text 1) [⟨0x41, true, false, false⟩])).notices.wire[3].character = true ∧
      (storyOf (after (.wireIntakeCharacter 3) (wired (.text 1) [⟨0x42, false, true, false⟩])) 1).map
        (fun st => (st.garbled, st.version)) = some (true, 1) ∧
      (after (.wireIntakeCharacter 3) (wired (.text 1) [⟨0x00, false, false, true⟩])).wires[3].intake =
        .hunt ∧
      (storyOf (after (.wireBreak 3) (wired (.text 1) [])) 1).map (fun st => (st.cut, st.holding)) =
        some (true, .idle) ∧
      (after (.wireBreak 3) (wired (.text 1) [])).notices.wire[3].filed = 1 := by decide +kernel

/-- R176, R168: an SOH in HEADER does not measure the silence anew. -/
def quiet (intake : Intake) (c : WireChar) : State :=
  { wired intake [c] with now := 500 }

theorem witness_MarksOutsideText :
    (quiet (.header [0x41]) (good 0x01)).wires[(3 : Fin 4)].fifo = good 0x01 :: [] ∧
      headingFits [0x5A].length 0x31 = true ∧
      (after (.wireIntakeCharacter 3) (quiet (.header [0x41]) (good 0x01))).wires[3].intake =
        .header [] ∧
      (after (.wireIntakeCharacter 3) (quiet (.header [0x41]) (good 0x01))).wires[3].silenceFrom =
        (quiet (.header [0x41]) (good 0x01)).wires[3].silenceFrom ∧
      (quiet (.header [0x41]) (good 0x01)).wires[(3 : Fin 4)].silenceFrom ≠ 500 ∧
      (after (.wireIntakeCharacter 3)
        (quiet (.header [0x5A]) ⟨0x31, false, true, false⟩)).wires[3].intake = .skip ∧
      (after (.wireIntakeCharacter 3)
        (quiet (.header [0x5A]) ⟨0x31, false, true, true⟩)).wires[3].intake = .hunt ∧
      (after (.wireIntakeCharacter 3) (quiet .skip ⟨0x31, false, false, true⟩)).wires[3].intake =
        .hunt := by decide +kernel

/-- R31, R171: a FLASH story goes before the ROUTINE story of basket 63. -/
theorem witness_TakenStoryJoinsItsClass :
    let s := selecting .take (wired (.header heading) [good 0x0D])
    let u := after (.wireIntakeCharacter 3)
      { s with
        stories := s.stories ++ [(2, { plainStory with basket := 63 })]
        baskets := s.baskets.set 63 { Basket.reset with list := [2] } }
    u.baskets[63].list = [3, 2] ∧ u.baskets[0].list = [1] ∧
      (storyOf u 3).map (fun st => (st.priority, st.basket, st.holding)) =
        some (.flash, 63, .filing 3) := by decide +kernel

/-- R174, R134: a wire story filed with its face loaded is offered. -/
theorem witness_FiledStoryIsOffered :
    (after (.wireIntakeCharacter 3) (withFace (wired (.text 1) [good 0x03]))).fit.list = [⟨1, 0⟩] ∧
      (after (.wireSilenceExpiry 3) (withFace (wired (.text 1) []))).fit.list = [⟨1, 0⟩] ∧
      (after (.wireBreak 3) (withFace (wired (.text 1) []))).fit.list = [⟨1, 0⟩] ∧
      (after (.setWireLine 7 [3, 0, 0x25, 0x80, 8, 0, 1]) (withFace (wired (.text 1) []))).fit.list =
        [⟨1, 0⟩] := by decide +kernel

/-- Story 1 without text in FILING, and the free count at the reserve. -/
def atReserve : State :=
  { wired (.text 1) [good 0x42] with
    stories := [(1, { plainStory with holding := .filing 3 })], memory := [], reserve := 8192 }

theorem witness_IntakeStores_at_reserve :
    needsBlock atReserve.memory [] 0 = true ∧ Memory.freeCount atReserve.memory ≤ atReserve.reserve ∧
      (after (.wireIntakeCharacter 3) atReserve).wires[3].intake = .skip ∧
      (after (.wireIntakeCharacter 3) atReserve).pressure = true := by decide +kernel

theorem witness_Silence :
    (wired (.text 1) []).wires[(3 : Fin 4)].fifo = [] ∧
      (after (.wireSilenceExpiry 3) (wired (.text 1) [])).wires[3].intake = .hunt ∧
      (after (.wireSilenceExpiry 3) (wired (.text 1) [])).now = 90000 ∧
      (after (.wireSilenceExpiry 3) (wired (.header [0x41]) [])).wires[3].intake = .hunt ∧
      (after (.wireSilenceExpiry 3) (wired (.text 1) [good 0x41])).wires[3].intake = .text 1 := by
  decide +kernel

/-! ### Witnesses: the long replies and what the rows show -/

theorem witness_LongReplies :
    Comes 0x0B 4 [63, 0, 0, 1] (skipping 1 [1]) ∧ u8 [63, 0, 0, 1] 0 = (63 : Fin 64).val ∧
      min (u16 [63, 0, 9, 1] 1) [1].length = 1 ∧ max 1 (min 24 (u8 [63, 0, 0, 25] 3)) = 24 ∧
      Comes 0x17 1 [31] State.reset ∧ Takes ⟨0x26, 7, []⟩ (fitting 0 [0x41]) ∧
      Comes 0x2D 1 [3] (granted [0x41] .keep [job 1]) ∧ Comes 0x2F 1 [3] (wired (.text 1) []) ∧
      (wired (.text 1) []).wires[(3 : Fin 4)].intake = .text 1 ∧
      (∀ x, (wired .hunt []).wires[(3 : Fin 4)].intake ≠ .text x) ∧
      said (.readTerminal 7 [31]) State.reset =
        [0, 0, 0, 0, 0, 0x25, 0x80, 8, 0, 1, 1, 0, 0xFF, 0, 0, 0, 0, 0, 0, 0, 0, 0, 0] ∧
      said (.readWireLine 7 [3]) (wired .hunt []) =
        [0, 1, 0x25, 0x80, 8, 0, 1, 1, 0, 0, 0, 0, 0, 0, 0, 0, 0, 0, 0, 1, 0] :=
  ⟨comes _ _ _ _ (by decide) rfl, by decide, by decide, by decide, comes _ _ _ _ (by decide) rfl,
    takes_of_link _ _ rfl, comes _ _ _ _ (by decide) rfl, comes _ _ _ _ (by decide) rfl,
    by decide +kernel, fun x h => (by cases h), by decide +kernel⟩

/-- A rotation shows basket 63, which holds story 1. -/
def shownBasket : State := skipping 2 [1]

theorem witness_Rows :
    (∃ below, (slotFull 31 (reading (some .edit) 0 [0x41])).screens[(31 : Fin 32)].base =
      blankRow :: below) ∧
      (slotFull 31 State.reset).slots[(31 : Fin 32)] = some ⟨[0x41], 0⟩ ∧
      (editing 31 0 .edit [0x41]).lines[(31 : Fin 32)].layout = .full ∧
      (reading (some .edit) 0 [0x41]).lines[(31 : Fin 32)].layout = .split ∧
      (reading (some .edit) 0 [0x41]).panes[(31 : Fin 32)].ref = some ⟨1, 0⟩ ∧
      storyOf (reading (some .edit) 0 [0x41]) 1 = some editedStory ∧
      shownBasket.screens[(31 : Fin 32)].mode = .rotating ⟨[0, 63, 1], 5, true, 2, 0⟩ ∧
      (⟨[0, 63, 1], 5, true, 2, 0⟩ : Rotation).baskets[2 - 1]? = some 63 ∧
      (∀ id ∈ shownBasket.baskets[(63 : Fin 64)].list, (storyOf shownBasket id).isSome = true) ∧
      watching.screens[(0 : Fin 32)].mode = .watching 31 ∧
      (ownRows shownBasket 31)[1]?.map (·.map (·.ch)) =
        some (padTo 80 (asc "A                R IDLE    FIT ?      --:--:--")) ∧
      (ownRows (slotFull 31 State.reset) 31).getLast?.map (·.map (·.ch)) =
        some (asc "--:--:--" ++ List.replicate 69 0x20 ++ asc "MSG") := by
  refine ⟨⟨List.replicate 22 blankRow, by decide +kernel⟩, by decide +kernel⟩

/-- R102: the five ends of a row of 3 cells, and the end row. -/
theorem witness_DisplayRows :
    displayRows 3 [0x41, 0x0D, 0x42] = [⟨0, 2⟩, ⟨2, 1⟩] ∧
      displayRows 3 [0x41, 0x42, 0x43, 0x20, 0x20, 0x0D] = [⟨0, 6⟩, ⟨6, 0⟩] ∧
      displayRows 3 [0x41, 0x42, 0x43, 0x0D, 0x44] = [⟨0, 4⟩, ⟨4, 1⟩] ∧
      displayRows 3 [0x41, 0x20, 0x42, 0x43, 0x44] = [⟨0, 2⟩, ⟨2, 3⟩] ∧
      displayRows 3 [0x41, 0x42, 0x43, 0x44] = [⟨0, 3⟩, ⟨3, 1⟩] ∧ displayRows 3 [] = [⟨0, 0⟩] ∧
      (rowIndex [⟨0, 2⟩, ⟨2, 1⟩] 3 = 1 ∧ rowStart [⟨0, 2⟩, ⟨2, 1⟩] 3 = 2) ∧
      (paneRows 3 [0x41, 0x0D, 0x42] 0).take 3 =
        [cellsOf .normal [0x41, 0x20, 0x20], cellsOf .normal [0x42, 0x20, 0x20],
          cellsOf .normal [0x20, 0x20, 0x20]] ∧
      (columnOf 3 [⟨0, 6⟩, ⟨6, 0⟩] 1 = 2 ∧ columnOf 3 [⟨0, 6⟩, ⟨6, 0⟩] 5 = 3) := by decide +kernel

/-- R90: the rest position without a session, in ROTATING, with each focus, and of a watcher. -/
theorem witness_RestPosition :
    (ownImage (attach 31 State.reset) 31).rest = (24, 80) ∧
      (ownImage shownBasket 31).rest = (24, 80) ∧
      (ownImage (reading (some .reference) 0 [0x41]) 31).rest = (2, 1) ∧
      (ownImage (editing 31 3 .edit [0x41, 0x0D, 0x42]) 31).rest = (3, 2) ∧
      (ownImage (reading (some .edit) 0 [0x41]) 31).rest = (2, 41) ∧
      (shownImage watching 0).rest = (ownImage watching 31).rest := by decide +kernel

/-- A blank sent image, and a screen whose row 24 shows an A in its last column. -/
def oneCell : Screen :=
  { Screen.reset with
    composed := ⟨List.replicate 23 blankRow ++ [List.replicate 79 Cell.blank ++ [⟨0x41, .bright⟩]], (24, 80)⟩
    marks := [24] }

theorem witness_RowCodes :
    oneCell.composed.rows[24 - 1]? = some (List.replicate 79 Cell.blank ++ [⟨0x41, .bright⟩]) ∧
      Sent.cleared.rows[24 - 1]? = some blankRow ∧ blankRow.length = 80 ∧ oneCell.hand = none ∧
      (∀ x ∈ List.replicate 79 Cell.blank ++ [⟨0x41, .bright⟩], isText x.ch = true) ∧
      (takeRow oneCell Sent.cleared 24).marks = [] ∧
      (takeRow oneCell Sent.cleared 23).hand = none ∧
      ((((takeRow oneCell Sent.cleared 24).hand.map (·.2)).getD []).foldl Sent.draw
        Sent.cleared).rows = oneCell.composed.rows := by decide +kernel

/-- The screens that are in order: rows marked, and a row in hand. -/
theorem witness_ScreensInOrder :
    (takeRow oneCell Sent.cleared 24).InOrder ∧ (takeRow oneCell Sent.cleared 24).hand ≠ none ∧
      (marked [2, 3, 9] none).InOrder ∧
      (emit emitFuel (marked [2, 3, 9] none) []).1.marks = [] ∧
      (emit emitFuel { Screen.reset with bell := true } []).2.take 2 = [0x07, 0x13] := by
  refine ⟨⟨by decide +kernel, ?_⟩, by decide +kernel, ⟨by decide, ?_⟩, by decide +kernel,
    by decide +kernel⟩
  · intro r codes h
    have hc : (takeRow oneCell Sent.cleared 24).hand.map (·.2) = some codes := by rw [h]; rfl
    have key : ∀ c ∈ (takeRow oneCell Sent.cleared 24).hand.map (·.2),
        c ≠ [] ∧ ∀ code ∈ c, 1 ≤ code.length ∧ code.length ≤ 3 := by decide +kernel
    exact key codes hc
  · intro r codes h; cases h

/-! ### Witnesses: the invariants -/

theorem stepsFromReset : step State.reset = .next (settle { State.reset with now := 1 }) := by
  have h : internal State.reset = none := by decide +kernel
  show idleStep State.reset = _
  unfold idleStep; rw [h]; rfl

theorem witness_Invariants :
    DeadlinesAhead (clocked .running 4 .armed 5) ∧ WatchLegal watching ∧
      watching.screens[(0 : Fin 32)].mode = .watching 31 ∧
      (clocked .running 4 .armed 5).clock.state ≠ .unset ∧
      FacesLegal (withFace State.reset) ∧ SettingsLegal (oneStory 1 plainStory) ∧
      LinkWatchLegal watched := by
  refine ⟨?_, ?_, by decide +kernel, by decide, ?_, ?_, ?_⟩
  · unfold DeadlinesAhead; decide +kernel
  · unfold WatchLegal
    intro t u h
    have key : ∀ t : Fin 32, watching.screens[t].mode = if t = 0 then .watching 31 else .normal := by
      decide +kernel
    rw [key t] at h
    split at h
    · next ht => subst ht; cases h; decide +kernel
    · cases h
  · unfold FacesLegal; decide +kernel
  · refine ⟨by unfold Setting.Legal; decide +kernel, fun b x h => ?_⟩
    have hb : ∀ b : Fin 64, (oneStory 1 plainStory).baskets[b].default = none := by decide +kernel
    rw [hb b] at h; cases h
  · refine ⟨fun p h => ?_, by decide, by decide⟩
    cases h; decide

theorem witness_Invariants_queues :
    QueuesFit (keyed 64) ∧ QueuesFit (fullReplies (List.replicate 8 smallFrame)) ∧
      LineFifosFit (received 16 12) ∧ ChannelsFit (granted [0x41] .keep [job 1]) := by
  unfold QueuesFit LineFifosFit ChannelsFit Channel.Fits; decide +kernel

end Sys2Proof.Machine.Tests
end

section
/-! SUPPORT. Chains of blocks: what a point of a chain is, what an insertion, a deletion and a replacement do to the blocks and the text of one chain, and what each leaves alone (spec/01, R2 to R9). -/

namespace Sys2Proof.Machine

/-! ### Which blocks a memory uses -/

theorem Tab.get?_eq_some_iff {α : Type} {m : Tab α} (h : Tab.wf m) {n : Nat} {v : α} :
    Tab.get? m n = some v ↔ (n, v) ∈ m := by
  induction m with
  | nil => simp [Tab.get?]
  | cons e m ih =>
    obtain ⟨k, w⟩ := e
    obtain ⟨hlt, hm⟩ := List.pairwise_cons.mp h
    by_cases hk : k = n
    · subst hk
      have hnot : (k, v) ∉ m := fun hv => absurd (hlt _ hv) (Nat.lt_irrefl k)
      simp [Tab.get?, hnot, eq_comm]
    · simp [Tab.get?, hk, ih hm, Ne.symm hk]

theorem Memory.mem_of_read_ne_free {m : Memory} (h : Memory.wf m) {b : Nat}
    (hb : Memory.read m b ≠ Block.free) : (b, Memory.read m b) ∈ m := by
  unfold Memory.read at hb ⊢
  cases hg : Tab.get? m b with
  | none => simp [hg] at hb
  | some x => exact (Tab.get?_eq_some_iff h.1).mp hg

theorem Memory.read_of_mem {m : Memory} (h : Memory.wf m) {e : Nat × Block} (he : e ∈ m) :
    Memory.read m e.1 = e.2 := by
  simp [Memory.read, (Tab.get?_eq_some_iff h.1).mpr he]

theorem Memory.mem_keys_iff {m : Memory} (h : Memory.wf m) (b : Nat) :
    b ∈ m.map (·.1) ↔ Memory.read m b ≠ Block.free := by
  constructor
  · rintro hb
    obtain ⟨e, he, rfl⟩ := List.mem_map.mp hb
    rw [Memory.read_of_mem h he]
    exact h.2 e he
  · exact fun hb => List.mem_map.mpr ⟨_, Memory.mem_of_read_ne_free h hb, rfl⟩

theorem Tab.nodup_keys {α : Type} {m : Tab α} (h : Tab.wf m) : (m.map (·.1)).Nodup :=
  (List.pairwise_map.mpr h).imp fun hlt => Nat.ne_of_lt hlt

/-- The blocks that are not free. -/
def Memory.used (m : Memory) : Finset Nat := (m.map (·.1)).toFinset

theorem Memory.mem_used {m : Memory} (h : Memory.wf m) (b : Nat) :
    b ∈ m.used ↔ Memory.read m b ≠ Block.free := by
  rw [Memory.used, List.mem_toFinset, Memory.mem_keys_iff h]

theorem Memory.card_used {m : Memory} (h : Memory.wf m) : m.used.card = m.length := by
  rw [Memory.used, List.toFinset_card_of_nodup (Tab.nodup_keys h.1), List.length_map]

/-- Every block that is not free is one of the part's 8192. -/
def Memory.Bounded (m : Memory) : Prop := ∀ b, Memory.read m b ≠ Block.free → b < 8192

theorem Memory.bounded_iff {m : Memory} (h : Memory.wf m) :
    m.Bounded ↔ ∀ e ∈ m, e.1 < 8192 := by
  constructor
  · intro hb e he
    exact hb e.1 (by rw [Memory.read_of_mem h he]; exact h.2 e he)
  · exact fun hb b hr => hb _ (Memory.mem_of_read_ne_free h hr)

theorem Memory.length_le {m : Memory} (h : Memory.wf m) (hb : m.Bounded) : m.length ≤ 8192 := by
  rw [← Memory.card_used h, ← Finset.card_range 8192]
  exact Finset.card_le_card fun b hm => Finset.mem_range.mpr (hb b ((Memory.mem_used h b).mp hm))

/-- The block the pool gives, in the words of R2. -/
theorem Memory.lowestFree?_eq_some {m : Memory} {b : Nat} (h : Memory.wf m)
    (hb : Memory.lowestFree? m = some b) : LowestFreeBlock m b := by
  obtain ⟨hlt, hnone, hlow⟩ := Memory.lowestFree?_spec m b h hb
  refine ⟨hlt, by simp [Memory.read, hnone], fun x hx => ?_⟩
  obtain ⟨v, hv⟩ := Option.ne_none_iff_exists'.mp (hlow x hx)
  have hmem := (Tab.get?_eq_some_iff h.1).mp hv
  rw [Memory.read_of_mem h hmem]
  exact h.2 _ hmem

/-- The pool gives no block exactly where the free count is 0. -/
theorem Memory.lowestFree?_eq_none {m : Memory} (h : Memory.wf m) (hb : m.Bounded) :
    Memory.lowestFree? m = none ↔ Memory.freeCount m = 0 := by
  obtain ⟨-, hnone, hlow⟩ := Tab.lowestFree_spec m 0 h.1
  have hlen := Memory.length_le h hb
  have hfree : Memory.read m (Tab.lowestFree m 0) = Block.free := by simp [Memory.read, hnone]
  have hused : Memory.lowestFree? m = none ↔ 8192 ≤ Tab.lowestFree m 0 := by
    unfold Memory.lowestFree? Config.blocks
    split <;> simp <;> omega
  have hcount : Memory.freeCount m = 0 ↔ m.length = 8192 := by
    simp only [Memory.freeCount, Config.blocks]; omega
  rw [hused, hcount, ← Memory.card_used h]
  constructor
  · intro hle
    have hsub : Finset.range 8192 ⊆ m.used := fun x hx => by
      obtain ⟨v, hv⟩ := Option.ne_none_iff_exists'.mp
        (hlow x (Nat.zero_le x) (by have := Finset.mem_range.mp hx; omega))
      have hmem := (Tab.get?_eq_some_iff h.1).mp hv
      exact (Memory.mem_used h x).mpr (by rw [Memory.read_of_mem h hmem]; exact h.2 _ hmem)
    have hcard := Finset.card_le_card hsub
    rw [Finset.card_range, Memory.card_used h] at hcard
    rw [Memory.card_used h]; omega
  · intro hcard
    by_contra hlt
    have hsub : m.used ⊆ (Finset.range 8192).erase (Tab.lowestFree m 0) := fun x hx => by
      have hx' := (Memory.mem_used h x).mp hx
      exact Finset.mem_erase.mpr ⟨fun he => hx' (he ▸ hfree), Finset.mem_range.mpr (hb x hx')⟩
    have hle := Finset.card_le_card hsub
    rw [Finset.card_erase_of_mem (Finset.mem_range.mpr (by omega)), Finset.card_range, hcard] at hle
    omega

/-! ### Texts of chains -/

@[simp] theorem chainText_nil (m : Memory) : chainText m [] = [] := rfl

theorem chainText_cons (m : Memory) (b : Nat) (chain : List Nat) :
    chainText m (b :: chain) = (Memory.read m b).chars ++ chainText m chain := rfl

theorem chainText_append (m : Memory) (l r : List Nat) :
    chainText m (l ++ r) = chainText m l ++ chainText m r := by
  simp [chainText]

theorem length_chainText (m : Memory) (chain : List Nat) :
    (chainText m chain).length = chainLength m chain := by
  rw [chainText, List.length_flatMap]; rfl

@[simp] theorem chainLength_nil (m : Memory) : chainLength m [] = 0 := rfl

theorem chainLength_cons (m : Memory) (b : Nat) (chain : List Nat) :
    chainLength m (b :: chain) = fill m b + chainLength m chain := by
  simp [chainLength]

theorem chainLength_append (m : Memory) (l r : List Nat) :
    chainLength m (l ++ r) = chainLength m l + chainLength m r := by
  simp [chainLength]

theorem chainText_congr {m m' : Memory} {chain : List Nat}
    (h : ∀ b ∈ chain, Memory.read m' b = Memory.read m b) : chainText m' chain = chainText m chain := by
  unfold chainText
  rw [List.flatMap_def, List.flatMap_def, List.map_congr_left fun b hb => by rw [h b hb]]

theorem fill_congr {m m' : Memory} {b : Nat} (h : Memory.read m' b = Memory.read m b) :
    fill m' b = fill m b := by
  rw [fill, fill, h]

theorem read_ne_free_of_fill {m : Memory} {b : Nat} (h : 1 ≤ fill m b) :
    Memory.read m b ≠ Block.free := by
  intro hf
  rw [fill, hf] at h
  exact absurd h (by decide)

theorem ChainSound.length_bound {m : Memory} {chain : List Nat} (h : ChainSound m chain) :
    chainLength m chain ≤ 240 * chain.length := by
  obtain ⟨-, -, hfill⟩ := h
  have hle := List.sum_le_card_nsmul (chain.map (fill m)) 240 (by
    simpa using fun b hb => (hfill b hb).2)
  simpa [chainLength, Nat.mul_comm] using hle

theorem insertIdx_eq_take_cons_drop {α : Type} (l : List α) (p : Nat) (c : α) (h : p ≤ l.length) :
    l.insertIdx p c = l.take p ++ c :: l.drop p := by
  induction p generalizing l with
  | zero => simp
  | succ p ih =>
    cases l with
    | nil => simp at h
    | cons x l => simp [ih l (by simpa using h)]

/-- An insertion into the middle part of a text is one at the matching place of the whole. -/
theorem insertIdx_middle {α : Type} (l mid r : List α) (p : Nat) (c : α) (h : p ≤ mid.length) :
    l ++ (mid.insertIdx p c ++ r) =
      (l ++ (mid ++ r)).take (l.length + p) ++ c :: (l ++ (mid ++ r)).drop (l.length + p) := by
  rw [insertIdx_eq_take_cons_drop mid p c h]
  simp [List.take_append, List.drop_append, Nat.sub_eq_zero_of_le h,
    List.take_of_length_le (Nat.le_add_right l.length p),
    List.drop_of_length_le (Nat.le_add_right l.length p)]

theorem eraseIdx_middle {α : Type} (l mid r : List α) (p : Nat) (h : p < mid.length) :
    l ++ (mid.eraseIdx p ++ r) = (l ++ (mid ++ r)).eraseIdx (l.length + p) := by
  rw [List.eraseIdx_append_of_length_le (Nat.le_add_right _ _), Nat.add_sub_cancel_left,
    List.eraseIdx_append_of_lt_length h]

/-! ### Points of a chain -/

/-- R4: an insertion at point k of a chain goes to block b, between before and after, at position p: b holds the character just before the point, or is the first block for point 0. -/
structure InsertPoint (m : Memory) (chain : List Nat) (k : Nat) (before : List Nat) (b : Nat)
    (after : List Nat) (p : Nat) : Prop where
  parts : chain = before ++ b :: after
  place : chainLength m before + p = k
  inside : p ≤ fill m b
  first : p = 0 → before = []

/-- The character at offset k of a chain stands in block b, between before and after, at position p. -/
structure CharPoint (m : Memory) (chain : List Nat) (k : Nat) (before : List Nat) (b : Nat)
    (after : List Nat) (p : Nat) : Prop where
  parts : chain = before ++ b :: after
  place : chainLength m before + p = k
  inside : p < fill m b

theorem InsertPoint.locate {m : Memory} {chain before after : List Nat} {k b p : Nat}
    (h : InsertPoint m chain k before b after p) : locateInsert m chain k = some (b, p) := by
  obtain ⟨rfl, rfl, hin, hfirst⟩ := h
  induction before with
  | nil =>
    cases after with
    | nil => simp [locateInsert, Nat.min_eq_left hin]
    | cons y ys => simp [locateInsert, hin]
  | cons x xs ih =>
    have hp : p ≠ 0 := fun h0 => List.cons_ne_nil _ _ (hfirst h0)
    have hnext : locateInsert m (x :: (xs ++ b :: after)) (chainLength m (x :: xs) + p) =
        locateInsert m (xs ++ b :: after) (chainLength m xs + p) := by
      have hgt : ¬ chainLength m (x :: xs) + p ≤ fill m x := by rw [chainLength_cons]; omega
      have hsub : chainLength m (x :: xs) + p - fill m x = chainLength m xs + p := by
        rw [chainLength_cons]; omega
      cases hc : xs ++ b :: after with
      | nil => simp at hc
      | cons y ys => rw [locateInsert, if_neg hgt, hsub]
    rw [List.cons_append, hnext]
    exact ih fun h0 => absurd h0 hp

theorem exists_insertPoint {m : Memory} {chain : List Nat} {k : Nat} (hne : chain ≠ [])
    (hk : k ≤ chainLength m chain) : ∃ before b after p, InsertPoint m chain k before b after p := by
  induction chain generalizing k with
  | nil => exact absurd rfl hne
  | cons x xs ih =>
    rw [chainLength_cons] at hk
    by_cases hx : k ≤ fill m x
    · exact ⟨[], x, xs, k, rfl, by simp, hx, fun _ => rfl⟩
    · have hxs : xs ≠ [] := by rintro rfl; simp at hk; omega
      obtain ⟨before, b, after, p, hparts, hplace, hin, hfirst⟩ := ih (k := k - fill m x) hxs (by omega)
      refine ⟨x :: before, b, after, p, by rw [hparts, List.cons_append], ?_, hin, fun h0 => ?_⟩
      · rw [chainLength_cons]; omega
      · rw [hfirst h0] at hplace; simp at hplace; omega

theorem CharPoint.locate {m : Memory} {chain before after : List Nat} {k b p : Nat}
    (h : CharPoint m chain k before b after p) : locateChar m chain k = some (b, p) := by
  obtain ⟨rfl, rfl, hin⟩ := h
  induction before with
  | nil => simp [locateChar, hin]
  | cons x xs ih =>
    have hgt : ¬ chainLength m (x :: xs) + p < fill m x := by rw [chainLength_cons]; omega
    have hsub : chainLength m (x :: xs) + p - fill m x = chainLength m xs + p := by
      rw [chainLength_cons]; omega
    rw [List.cons_append, locateChar, if_neg hgt, hsub, ih]

theorem exists_charPoint {m : Memory} {chain : List Nat} {k : Nat} (hk : k < chainLength m chain) :
    ∃ before b after p, CharPoint m chain k before b after p := by
  induction chain generalizing k with
  | nil => simp at hk
  | cons x xs ih =>
    rw [chainLength_cons] at hk
    by_cases hx : k < fill m x
    · exact ⟨[], x, xs, k, rfl, by simp, hx⟩
    · obtain ⟨before, b, after, p, hparts, hplace, hin⟩ := ih (k := k - fill m x) (by omega)
      refine ⟨x :: before, b, after, p, by rw [hparts, List.cons_append], ?_, hin⟩
      rw [chainLength_cons]; omega

theorem locateChar_eq_none {m : Memory} {chain : List Nat} {k : Nat} (hk : chainLength m chain ≤ k) :
    locateChar m chain k = none := by
  induction chain generalizing k with
  | nil => rfl
  | cons x xs ih =>
    rw [chainLength_cons] at hk
    rw [locateChar, if_neg (by omega)]
    exact ih (by omega)

theorem locateInsert_eq_none_iff {m : Memory} {chain : List Nat} {k : Nat}
    (hk : k ≤ chainLength m chain) : locateInsert m chain k = none ↔ chain = [] := by
  constructor
  · intro hnone
    by_contra hne
    obtain ⟨_, _, _, _, hp⟩ := exists_insertPoint hne hk
    rw [hp.locate] at hnone; cases hnone
  · rintro rfl; rfl

theorem linkAfter_of_parts {before after : List Nat} {b nb : Nat} (h : b ∉ before) :
    linkAfter (before ++ b :: after) b nb = before ++ b :: nb :: after := by
  induction before with
  | nil => simp [linkAfter]
  | cons x xs ih =>
    simp only [List.mem_cons, not_or] at h
    simp [linkAfter, Ne.symm h.1, ih h.2]

theorem mem_of_chainNeighbour {chain : List Nat} {b nb : Nat} (h : chainNeighbour chain b = some nb)
    (hnd : chain.Nodup) : nb ∈ chain ∧ nb ≠ b := by
  induction chain with
  | nil => cases h
  | cons x xs ih =>
    obtain ⟨hx, hxs⟩ := List.nodup_cons.mp hnd
    cases xs with
    | nil => cases h
    | cons y ys =>
      simp only [chainNeighbour] at h
      split at h
      · next hb => cases h; subst hb; exact ⟨by simp, by rintro rfl; simp at hx⟩
      · split at h
        · next hb => cases h; subst hb; exact ⟨by simp, by rintro rfl; simp at hx⟩
        · obtain ⟨hm, hne⟩ := ih h hxs; exact ⟨List.mem_cons_of_mem _ hm, hne⟩

/-- The blocks of a sound chain around one of them. -/
theorem not_mem_of_nodup_parts {before after : List Nat} {b : Nat} (h : (before ++ b :: after).Nodup) :
    b ∉ before ∧ b ∉ after := by
  rw [List.nodup_middle, List.nodup_cons] at h
  simpa using h.1

/-! ### A change of one chain -/

/-- A change of one chain's blocks: the new chain is sound, blocks outside both chains are as they were, a block taken was free, a block given up is free. -/
structure ChainStep (m m' : Memory) (chain chain' : List Nat) : Prop where
  wf : Memory.wf m'
  sound : ChainSound m' chain'
  frame : ∀ b, b ∉ chain → b ∉ chain' → Memory.read m' b = Memory.read m b
  taken : ∀ b ∈ chain', b ∉ chain → Memory.read m b = Block.free ∧ b < 8192
  given : ∀ b ∈ chain, b ∉ chain' → Memory.read m' b = Block.free

theorem ChainSound.mem_used {m : Memory} {chain : List Nat} (hs : ChainSound m chain) {b : Nat}
    (hb : b ∈ chain) : Memory.read m b ≠ Block.free :=
  read_ne_free_of_fill (hs.2.2 b hb).1

theorem ChainStep.bounded {m m' : Memory} {chain chain' : List Nat} (h : ChainStep m m' chain chain')
    (hs : ChainSound m chain) (hb : m.Bounded) : m'.Bounded := by
  intro b hr
  by_cases hc' : b ∈ chain'
  · by_cases hc : b ∈ chain
    · exact hb b (hs.mem_used hc)
    · exact (h.taken b hc' hc).2
  · by_cases hc : b ∈ chain
    · exact absurd (h.given b hc hc') hr
    · exact hb b (h.frame b hc hc' ▸ hr)

/-- What a change of one chain does to the free count: it falls by as many blocks as the chain grows. -/
theorem ChainStep.freeCount {m m' : Memory} {chain chain' : List Nat}
    (h : ChainStep m m' chain chain') (hm : Memory.wf m) (hs : ChainSound m chain) (hb : m.Bounded) :
    Memory.freeCount m' + chain'.length = Memory.freeCount m + chain.length := by
  have outside : m.used \ chain.toFinset = m'.used \ chain'.toFinset := by
    ext b
    simp only [Finset.mem_sdiff, Memory.mem_used hm, Memory.mem_used h.wf, List.mem_toFinset]
    by_cases hc : b ∈ chain <;> by_cases hc' : b ∈ chain'
    · simp [hc, hc']
    · simp [hc, h.given b hc hc']
    · simp [hc', (h.taken b hc' hc).1]
    · simp [hc, hc', h.frame b hc hc']
  have inside : ∀ {n : Memory} {l : List Nat}, Memory.wf n → ChainSound n l →
      (n.used \ l.toFinset).card + l.length = n.length := fun {n l} hn hl => by
    have hsub : l.toFinset ⊆ n.used := fun b hb =>
      (Memory.mem_used hn b).mpr (hl.mem_used (List.mem_toFinset.mp hb))
    rw [← List.toFinset_card_of_nodup hl.1, Finset.card_sdiff_add_card_eq_card hsub,
      Memory.card_used hn]
  have h1 := inside hm hs
  have h2 := inside h.wf h.sound
  have h3 := Memory.length_le hm hb
  have h4 := Memory.length_le h.wf (h.bounded hs hb)
  rw [outside] at h1
  simp only [Memory.freeCount, Config.blocks]; omega

/-- A write to a block of a chain that keeps its fill between 1 and 240. -/
theorem ChainStep.write {m : Memory} {chain : List Nat} {b : Nat} {blk : Block} (hm : Memory.wf m)
    (hs : ChainSound m chain) (hb : b ∈ chain) (h1 : 1 ≤ blk.chars.length)
    (h2 : blk.chars.length ≤ 240) : ChainStep m (Memory.write m b blk) chain chain where
  wf := Memory.write_wf _ _ _ hm
  sound := by
    refine ⟨hs.1, hs.2.1, fun x hx => ?_⟩
    by_cases hxb : x = b
    · subst hxb; rw [fill, Memory.read_write_same _ _ _ hm]; exact ⟨h1, h2⟩
    · rw [fill, Memory.read_write_ne _ _ _ _ hxb]; exact hs.2.2 x hx
  frame := fun x hx _ => Memory.read_write_ne _ _ _ _ fun he => hx (he ▸ hb)
  taken := fun x hx hnx => absurd hx hnx
  given := fun x hx hnx => absurd hx hnx

theorem ChainStep.refl {m : Memory} {chain : List Nat} (hm : Memory.wf m) (hs : ChainSound m chain) :
    ChainStep m m chain chain :=
  ⟨hm, hs, fun _ _ _ => rfl, fun _ h hn => absurd h hn, fun _ h hn => absurd h hn⟩

end Sys2Proof.Machine
end

section
/-! SUPPORT. What an insertion, a deletion and a replacement make of one sound chain: the changed chain is sound, its text differs in the one character, and the blocks changed are flagged (R3 to R7, R9, R106). -/

namespace Sys2Proof.Machine

/-! ### Insertion: the three shapes (R2, R4, R5) -/

/-- The two halves of a block that an insertion at position p splits at 120 (R5). -/
def splitHalves (l : List Byte) (p : Nat) (c : Byte) : List Byte × List Byte :=
  if p ≤ 120 then ((l.take 120).insertIdx p c, l.drop 120)
  else (l.take 120, (l.drop 120).insertIdx (p - 120) c)

theorem splitHalves_append {l : List Byte} {p : Nat} (c : Byte) (h : p ≤ l.length) :
    (splitHalves l p c).1 ++ (splitHalves l p c).2 = l.insertIdx p c := by
  rw [insertIdx_eq_take_cons_drop l p c h]
  unfold splitHalves
  split
  · next hp =>
    dsimp only
    rw [insertIdx_eq_take_cons_drop _ p c (by rw [List.length_take]; omega), List.take_take,
      Nat.min_eq_left hp, List.append_assoc, List.cons_append, List.drop_take,
      show l.drop 120 = (l.drop p).drop (120 - p) by rw [List.drop_drop]; congr 1; omega,
      List.take_append_drop]
  · next hp =>
    dsimp only
    rw [insertIdx_eq_take_cons_drop _ (p - 120) c (by rw [List.length_drop]; omega), List.drop_drop,
      ← List.append_assoc, show 120 + (p - 120) = p by omega,
      show l.take 120 ++ (l.drop 120).take (p - 120) = l.take p by
        rw [← List.take_add]; congr 1; omega]

/-- The half that takes the character holds 121, the other 120. -/
theorem length_splitHalves {l : List Byte} {p : Nat} (c : Byte) (hl : l.length = 240) (h : p ≤ 240) :
    (p ≤ 120 → (splitHalves l p c).1.length = 121 ∧ (splitHalves l p c).2.length = 120) ∧
      (120 < p → (splitHalves l p c).1.length = 120 ∧ (splitHalves l p c).2.length = 121) := by
  constructor <;> intro hp
  · rw [splitHalves, if_pos hp]
    simp [List.length_insertIdx, hl, hp]
  · rw [splitHalves, if_neg (by omega)]
    simp [List.length_insertIdx, hl, show p - 120 ≤ 120 by omega]

theorem splitInsert_eq (m : Memory) (chain : List Nat) (b nb p : Nat) (c : Byte) :
    splitInsert m chain b nb p c =
      (Memory.write (Memory.write m b ⟨(splitHalves (Memory.read m b).chars p c).1, true⟩) nb
        ⟨(splitHalves (Memory.read m b).chars p c).2, true⟩, linkAfter chain b nb) := by
  by_cases hp : p ≤ 120
  · simp [splitInsert, splitHalves, Config.splitAt, hp]
  · simp [splitInsert, splitHalves, Config.splitAt, hp]

/-- How an insertion was made: a first block was taken, a block with room took the character, or a full block was split. -/
inductive InsertMade (m : Memory) (chain : List Nat) (k : Nat) (c : Byte) : Memory → List Nat → Prop
  | firstBlock (b : Nat) (empty : chain = []) (low : LowestFreeBlock m b) :
    InsertMade m chain k c (Memory.write m b ⟨[c], true⟩) [b]
  | intoBlock (before : List Nat) (b : Nat) (after : List Nat) (p : Nat)
    (point : InsertPoint m chain k before b after p) (room : fill m b < 240) :
    InsertMade m chain k c (Memory.write m b ⟨(Memory.read m b).chars.insertIdx p c, true⟩) chain
  | splitBlock (before : List Nat) (b : Nat) (after : List Nat) (p nb : Nat)
    (point : InsertPoint m chain k before b after p) (full : fill m b = 240)
    (short : chain.length < 256) (low : LowestFreeBlock m nb) :
    InsertMade m chain k c
      (Memory.write (Memory.write m b ⟨(splitHalves (Memory.read m b).chars p c).1, true⟩) nb
        ⟨(splitHalves (Memory.read m b).chars p c).2, true⟩) (before ++ b :: nb :: after)

theorem atCap_eq_true {m : Memory} {chain : List Nat} {k : Nat} : atCap m chain k = true ↔
    61440 ≤ chainLength m chain ∨ (needsBlock m chain k = true ∧ 256 ≤ chain.length) := by
  unfold atCap Config.storyMax Config.chainMax
  rw [Bool.or_eq_true, Bool.and_eq_true, decide_eq_true_iff, decide_eq_true_iff]

theorem needsBlock_of_locate {m : Memory} {chain : List Nat} {k b p : Nat}
    (h : locateInsert m chain k = some (b, p)) : needsBlock m chain k = true ↔ 240 ≤ fill m b := by
  unfold needsBlock
  rw [h]
  exact decide_eq_true_iff

theorem insertChar_made {m m' : Memory} {chain chain' : List Nat} {k : Nat} {c : Byte}
    (hm : Memory.wf m) (hs : ChainSound m chain) (hk : k ≤ chainLength m chain)
    (h : insertChar m chain k c = .made m' chain') : InsertMade m chain k c m' chain' := by
  unfold insertChar at h
  split at h
  · cases h
  next hcap =>
  split at h
  · next hloc =>
    split at h
    · cases h
    · next b hlow =>
      cases h
      exact .firstBlock b ((locateInsert_eq_none_iff hk).mp hloc) (Memory.lowestFree?_eq_some hm hlow)
  · next b p hloc =>
    have hne : chain ≠ [] := by rintro rfl; cases hloc
    obtain ⟨before, b', after, p', hp⟩ := exists_insertPoint hne hk
    have hsame := hp.locate
    rw [hloc] at hsame; cases hsame
    split at h
    · next hroom => cases h; exact .intoBlock before b after p hp hroom
    · next hfull =>
      split at h
      · cases h
      · next nb hlow =>
        have hb : b ∈ chain := by rw [hp.parts]; simp
        have hfill : fill m b = 240 := by
          have := (hs.2.2 b hb).2; simp only [Config.blockChars] at hfull; omega
        have hshort : chain.length < 256 := by
          by_contra hlong
          exact hcap (atCap_eq_true.mpr
            (.inr ⟨(needsBlock_of_locate hloc).mpr (by omega), by omega⟩))
        have hnd := hs.1
        rw [hp.parts] at hnd
        have hlink : linkAfter chain b nb = before ++ b :: nb :: after := by
          rw [hp.parts, linkAfter_of_parts (not_mem_of_nodup_parts hnd).1]
        rw [splitInsert_eq, hlink] at h
        cases h
        exact .splitBlock before b after p nb hp hfill hshort (Memory.lowestFree?_eq_some hm hlow)

/-! ### What an insertion does -/

theorem LowestFreeBlock.not_mem {m : Memory} {chain : List Nat} {nb : Nat} (h : LowestFreeBlock m nb)
    (hs : ChainSound m chain) : nb ∉ chain := fun hb => hs.mem_used hb h.2.1

theorem InsertPoint.mem {m : Memory} {chain before after : List Nat} {k b p : Nat}
    (h : InsertPoint m chain k before b after p) : b ∈ chain := by rw [h.parts]; simp

theorem InsertPoint.notMem {m : Memory} {chain before after : List Nat} {k b p : Nat}
    (h : InsertPoint m chain k before b after p) (hs : ChainSound m chain) : b ∉ before ∧ b ∉ after :=
  not_mem_of_nodup_parts (h.parts ▸ hs.1)

theorem CharPoint.mem {m : Memory} {chain before after : List Nat} {k b p : Nat}
    (h : CharPoint m chain k before b after p) : b ∈ chain := by rw [h.parts]; simp

theorem CharPoint.notMem {m : Memory} {chain before after : List Nat} {k b p : Nat}
    (h : CharPoint m chain k before b after p) (hs : ChainSound m chain) : b ∉ before ∧ b ∉ after :=
  not_mem_of_nodup_parts (h.parts ▸ hs.1)

section
variable {m : Memory} {chain before after : List Nat} {k b p nb : Nat} {c : Byte}

/-- The blocks a split leaves. -/
theorem read_split (hm : Memory.wf m) (hne : nb ≠ b) (x y : Block) :
    Memory.read (Memory.write (Memory.write m b x) nb y) b = x ∧
      Memory.read (Memory.write (Memory.write m b x) nb y) nb = y ∧
      ∀ z, z ≠ b → z ≠ nb →
        Memory.read (Memory.write (Memory.write m b x) nb y) z = Memory.read m z := by
  refine ⟨?_, Memory.read_write_same _ _ _ (Memory.write_wf _ _ _ hm), fun z hb hn => ?_⟩
  · rw [Memory.read_write_ne _ _ _ _ hne.symm, Memory.read_write_same _ _ _ hm]
  · rw [Memory.read_write_ne _ _ _ _ hn, Memory.read_write_ne _ _ _ _ hb]

theorem InsertMade.chainStep {m' : Memory} {chain' : List Nat} (h : InsertMade m chain k c m' chain')
    (hm : Memory.wf m) (hs : ChainSound m chain) : ChainStep m m' chain chain' := by
  cases h with
  | firstBlock b empty low =>
    subst empty
    refine ⟨Memory.write_wf _ _ _ hm, ⟨by simp, by simp, fun x hx => ?_⟩, fun x _ hx => ?_,
      fun x hx _ => ?_, fun x hx => absurd hx List.not_mem_nil⟩
    · rw [List.mem_singleton.mp hx, fill, Memory.read_write_same _ _ _ hm]; simp
    · exact Memory.read_write_ne _ _ _ _ fun he => hx (List.mem_singleton.mpr he)
    · rw [List.mem_singleton.mp hx]; exact ⟨low.2.1, low.1⟩
  | intoBlock before b after p point room =>
    have hlen : ((Memory.read m b).chars.insertIdx p c).length = fill m b + 1 := by
      exact List.length_insertIdx_of_le_length point.inside c
    exact .write hm hs point.mem (by dsimp only; omega) (by dsimp only; omega)
  | splitBlock before b after p nb point full short low =>
    have hnew := low.not_mem hs
    have hne : nb ≠ b := fun he => hnew (he ▸ point.mem)
    obtain ⟨hrb, hrn, hrest⟩ := read_split hm hne
      ⟨(splitHalves (Memory.read m b).chars p c).1, true⟩
      ⟨(splitHalves (Memory.read m b).chars p c).2, true⟩
    have hlen := length_splitHalves c full (full ▸ point.inside)
    obtain ⟨hbefore, hafter⟩ := point.notMem hs
    have hmem : ∀ x, x ∈ before ++ b :: nb :: after ↔ x = nb ∨ x ∈ chain := fun x => by
      rw [point.parts]; simp; tauto
    refine ⟨Memory.write_wf _ _ _ (Memory.write_wf _ _ _ hm), ⟨?_, ?_, fun x hx => ?_⟩,
      fun x hx hx' => ?_, fun x hx hx' => ?_, fun x hx hx' => absurd ((hmem x).mpr (.inr hx)) hx'⟩
    · have hnd := hs.1
      rw [point.parts] at hnd hnew
      have hperm : (before ++ b :: nb :: after).Perm (nb :: (before ++ b :: after)) := by
        have := List.perm_middle (a := nb) (l₁ := before ++ [b]) (l₂ := after)
        simpa using this
      exact hperm.nodup_iff.mpr (List.nodup_cons.mpr ⟨hnew, hnd⟩)
    · rw [point.parts] at short; simp at short ⊢; omega
    · by_cases hxb : x = b
      · subst hxb; rw [fill, hrb]; by_cases hp : p ≤ 120
        · rw [(hlen.1 hp).1]; decide
        · rw [(hlen.2 (by omega)).1]; decide
      · by_cases hxn : x = nb
        · subst hxn; rw [fill, hrn]; by_cases hp : p ≤ 120
          · rw [(hlen.1 hp).2]; decide
          · rw [(hlen.2 (by omega)).2]; decide
        · rw [fill, hrest x hxb hxn]
          exact hs.2.2 x (((hmem x).mp hx).resolve_left hxn)
    · exact hrest x (fun he => hx (he ▸ point.mem)) fun he => hx' ((hmem x).mpr (.inl he))
    · rw [((hmem x).mp hx).resolve_right hx']; exact ⟨low.2.1, low.1⟩

/-- The text of a chain around one of its blocks, where only that block may have changed. -/
theorem chainText_around {m' : Memory} {chain' : List Nat} (hc : chain' = before ++ b :: after)
    (hb : b ∉ before ∧ b ∉ after) (h : ∀ x, x ≠ b → Memory.read m' x = Memory.read m x) :
    chainText m' chain' =
      chainText m before ++ ((Memory.read m' b).chars ++ chainText m after) := by
  rw [hc, chainText_append, chainText_cons,
    chainText_congr fun x hx => h x fun he => hb.1 (he ▸ hx),
    chainText_congr fun x hx => h x fun he => hb.2 (he ▸ hx)]

theorem chainText_parts (hc : chain = before ++ b :: after) :
    chainText m chain = chainText m before ++ ((Memory.read m b).chars ++ chainText m after) := by
  rw [hc, chainText_append, chainText_cons]

theorem InsertMade.text {m' : Memory} {chain' : List Nat} (h : InsertMade m chain k c m' chain')
    (hm : Memory.wf m) (hs : ChainSound m chain) (hk : k ≤ chainLength m chain) :
    chainText m' chain' = (chainText m chain).take k ++ c :: (chainText m chain).drop k := by
  cases h with
  | firstBlock b empty low =>
    subst empty
    simp [chainText_cons, Memory.read_write_same _ _ _ hm]
  | intoBlock before b after p point room =>
    rw [chainText_around point.parts (point.notMem hs) fun x hx => Memory.read_write_ne _ _ _ _ hx,
      Memory.read_write_same _ _ _ hm, chainText_parts point.parts, ← point.place,
      ← length_chainText]
    exact insertIdx_middle _ _ _ _ _ point.inside
  | splitBlock before b after p nb point full short low =>
    have hnew := low.not_mem hs
    have hne : nb ≠ b := fun he => hnew (he ▸ point.mem)
    obtain ⟨hrb, hrn, hrest⟩ := read_split hm hne
      ⟨(splitHalves (Memory.read m b).chars p c).1, true⟩
      ⟨(splitHalves (Memory.read m b).chars p c).2, true⟩
    obtain ⟨hbefore, hafter⟩ := point.notMem hs
    rw [point.parts] at hnew
    simp only [List.mem_append, List.mem_cons, not_or] at hnew
    rw [chainText_append, chainText_cons, chainText_cons, hrb, hrn,
      chainText_congr fun x hx =>
        hrest x (fun he => hbefore (he ▸ hx)) (fun he => hnew.1 (he ▸ hx)),
      chainText_congr fun x hx =>
        hrest x (fun he => hafter (he ▸ hx)) (fun he => hnew.2.2 (he ▸ hx)),
      chainText_parts point.parts, ← point.place, ← length_chainText, ← List.append_assoc (splitHalves _ _ _).1,
      splitHalves_append c point.inside]
    exact insertIdx_middle _ _ _ _ _ point.inside

/-! ### When an insertion is refused (R3, R6, log entry 19) -/

theorem insertChar_atCap_iff : insertChar m chain k c = .atCap ↔ atCap m chain k = true := by
  unfold insertChar
  constructor
  · intro h
    by_contra hc
    rw [if_neg hc] at h
    split at h
    · split at h <;> cases h
    · split at h
      · cases h
      · split at h <;> cases h
  · exact fun h => if_pos h

theorem atCap_iff (hs : ChainSound m chain) :
    atCap m chain k = true ↔
      chainLength m chain = 61440 ∨ (needsBlock m chain k = true ∧ chain.length = 256) := by
  have hlen := hs.length_bound
  have hblocks := hs.2.1
  rw [atCap_eq_true]
  constructor
  · rintro (h | ⟨h, h'⟩)
    · exact .inl (by omega)
    · exact .inr ⟨h, by omega⟩
  · rintro (h | ⟨h, h'⟩)
    · exact .inl (by omega)
    · exact .inr ⟨h, by omega⟩

theorem insertChar_poolEmpty_iff :
    insertChar m chain k c = .poolEmpty ↔
      needsBlock m chain k = true ∧ Memory.lowestFree? m = none ∧ atCap m chain k = false := by
  cases hc : atCap m chain k with
  | true => simp [insertChar_atCap_iff.mpr hc]
  | false =>
    unfold insertChar needsBlock
    rw [if_neg (by simp [hc])]
    cases hl : locateInsert m chain k with
    | none => cases hf : Memory.lowestFree? m <;> simp
    | some x =>
      obtain ⟨b, p⟩ := x
      by_cases hroom : fill m b < Config.blockChars
      · simp [hroom]
      · cases hf : Memory.lowestFree? m <;> simp [hroom, Nat.le_of_not_lt hroom]

theorem needsBlock_iff (hs : ChainSound m chain) (hk : k ≤ chainLength m chain) :
    needsBlock m chain k = true ↔ chain = [] ∨
      ∃ before b after p, InsertPoint m chain k before b after p ∧ fill m b = 240 := by
  constructor
  · intro h
    by_cases hne : chain = []
    · exact .inl hne
    · obtain ⟨before, b, after, p, hp⟩ := exists_insertPoint hne hk
      have hfull := (needsBlock_of_locate hp.locate).mp h
      have hmax := (hs.2.2 b hp.mem).2
      exact .inr ⟨before, b, after, p, hp, by omega⟩
  · rintro (rfl | ⟨before, b, after, p, hp, hfull⟩)
    · rfl
    · exact (needsBlock_of_locate hp.locate).mpr (by omega)

end

/-! ### Deletion and replacement (R7, R106) -/

/-- How a deletion was made: a block lost one of its characters, or its last one and was freed, the mark passing to its neighbour. -/
inductive DeleteMade (m : Memory) (chain : List Nat) (k : Nat) : Memory → List Nat → Bool → Prop
  | fromBlock (before : List Nat) (b : Nat) (after : List Nat) (p : Nat)
    (point : CharPoint m chain k before b after p) (more : 2 ≤ fill m b) :
    DeleteMade m chain k (Memory.write m b ⟨(Memory.read m b).chars.eraseIdx p, true⟩) chain false
  | freedAlone (b : Nat) (point : CharPoint m chain k [] b [] 0) (last : fill m b = 1)
    (alone : chainNeighbour chain b = none) :
    DeleteMade m chain k (Memory.write m b Block.free) [] true
  | freedNext (before : List Nat) (b : Nat) (after : List Nat) (nb : Nat)
    (point : CharPoint m chain k before b after 0) (last : fill m b = 1)
    (next : chainNeighbour chain b = some nb) :
    DeleteMade m chain k (flagBlock (Memory.write m b Block.free) nb) (before ++ after) true

theorem chainNeighbour_eq_none {before after : List Nat} {b : Nat} (hb : b ∉ before)
    (h : chainNeighbour (before ++ b :: after) b = none) : before = [] ∧ after = [] := by
  induction before with
  | nil =>
    cases after with
    | nil => exact ⟨rfl, rfl⟩
    | cons y ys => simp [chainNeighbour] at h
  | cons x xs ih =>
    simp only [List.mem_cons, not_or] at hb
    cases xs with
    | nil => simp [chainNeighbour, Ne.symm hb.1] at h
    | cons y ys =>
      simp only [List.mem_cons, not_or] at hb
      simp only [List.cons_append, chainNeighbour, if_neg (Ne.symm hb.1), if_neg (Ne.symm hb.2.1)] at h
      obtain ⟨he, -⟩ := ih (by simpa using hb.2) (by simpa using h)
      cases he

theorem erase_of_parts {before after : List Nat} {b : Nat} (hb : b ∉ before) :
    (before ++ b :: after).erase b = before ++ after := by
  rw [List.erase_append_right _ hb, List.erase_cons_head]

theorem deleteChar_made {m : Memory} {chain : List Nat} {k : Nat} (hs : ChainSound m chain)
    (hk : k < chainLength m chain) :
    DeleteMade m chain k (deleteChar m chain k).1 (deleteChar m chain k).2.1
      (deleteChar m chain k).2.2 := by
  obtain ⟨before, b, after, p, hp⟩ := exists_charPoint hk
  have hfill := (hs.2.2 b hp.mem).1
  have hnot := (hp.notMem hs).1
  simp only [deleteChar, hp.locate]
  by_cases hone : fill m b = 1
  · have hp0 : p = 0 := by have := hp.inside; omega
    subst hp0
    have herase : chain.erase b = before ++ after := by
      rw [hp.parts, erase_of_parts hnot]
    rw [if_pos hone, herase]
    cases hn : chainNeighbour chain b with
    | none =>
      obtain ⟨rfl, rfl⟩ := chainNeighbour_eq_none hnot (hp.parts ▸ hn)
      exact .freedAlone b hp hone hn
    | some nb => exact .freedNext before b after nb hp hone hn
  · rw [if_neg hone]
    exact .fromBlock before b after p hp (by omega)

section
variable {m m' : Memory} {chain chain' before after : List Nat} {k b p nb : Nat} {c : Byte}
  {freed : Bool}

/-- The neighbour whose flag a freed block passes on keeps its characters. -/
theorem read_flagBlock (hm : Memory.wf m) (nb x : Nat) :
    Memory.read (flagBlock m nb) x =
      if x = nb then { Memory.read m x with changed := true } else Memory.read m x := by
  unfold flagBlock
  split
  · next h => subst h; exact Memory.read_write_same _ _ _ hm
  · next h => exact Memory.read_write_ne _ _ _ _ h

theorem chars_read_flagBlock (hm : Memory.wf m) (nb x : Nat) :
    (Memory.read (flagBlock m nb) x).chars = (Memory.read m x).chars := by
  rw [read_flagBlock hm]; split <;> rfl

theorem ChainSound.sublist {l : List Nat} (h : l.Sublist chain) (hs : ChainSound m chain)
    (hf : ∀ x ∈ l, fill m' x = fill m x) : ChainSound m' l :=
  ⟨hs.1.sublist h, h.length_le.trans hs.2.1, fun x hx => by
    rw [hf x hx]; exact hs.2.2 x (h.subset hx)⟩

theorem DeleteMade.chainStep (h : DeleteMade m chain k m' chain' freed) (hm : Memory.wf m)
    (hs : ChainSound m chain) : ChainStep m m' chain chain' := by
  cases h with
  | fromBlock before b after p point more =>
    have hlen : ((Memory.read m b).chars.eraseIdx p).length = fill m b - 1 := by
      exact List.length_eraseIdx_of_lt point.inside
    have hmax := (hs.2.2 b point.mem).2
    exact .write hm hs point.mem (by dsimp only; omega) (by dsimp only; omega)
  | freedAlone b point last alone =>
    refine ⟨Memory.write_wf _ _ _ hm, ⟨List.nodup_nil, by simp, by simp⟩, fun x hx _ => ?_,
      by simp, fun x hx _ => ?_⟩
    · exact Memory.read_write_ne _ _ _ _ fun he => hx (he ▸ point.mem)
    · rw [point.parts] at hx
      rw [List.mem_singleton.mp hx]; exact Memory.read_write_same _ _ _ hm
  | freedNext before b after nb point last next =>
    have hw := Memory.write_wf m b Block.free hm
    obtain ⟨hbefore, hafter⟩ := point.notMem hs
    obtain ⟨hnb, hne⟩ := mem_of_chainNeighbour next hs.1
    have hmem : ∀ x, x ∈ chain ↔ x = b ∨ x ∈ before ++ after := fun x => by
      rw [point.parts]; simp; tauto
    have hb : b ∉ before ++ after := by simp [hbefore, hafter]
    have hnb' : nb ∈ before ++ after := ((hmem nb).mp hnb).resolve_left hne
    refine ⟨flagBlock_wf _ _ hw, hs.sublist ?_ fun x hx => ?_, fun x hx hx' => ?_,
      fun x hx hx' => absurd ((hmem x).mpr (.inr hx)) hx', fun x hx hx' => ?_⟩
    · rw [point.parts]; exact (List.sublist_cons_self b after).append_left before
    · have hxb : x ≠ b := fun he => hb (he ▸ hx)
      rw [fill, chars_read_flagBlock hw, Memory.read_write_ne _ _ _ _ hxb]; rfl
    · have hxn : x ≠ nb := fun he => hx' (he ▸ hnb')
      rw [read_flagBlock hw, if_neg hxn,
        Memory.read_write_ne _ _ _ _ fun he => hx ((hmem x).mpr (.inl he))]
    · have hxb : x = b := ((hmem x).mp hx).resolve_right hx'
      subst hxb
      rw [read_flagBlock hw, if_neg hne.symm, Memory.read_write_same _ _ _ hm]

theorem DeleteMade.text (h : DeleteMade m chain k m' chain' freed) (hm : Memory.wf m)
    (hs : ChainSound m chain) : chainText m' chain' = (chainText m chain).eraseIdx k := by
  cases h with
  | fromBlock before b after p point more =>
    rw [chainText_around point.parts (point.notMem hs) fun x hx => Memory.read_write_ne _ _ _ _ hx,
      Memory.read_write_same _ _ _ hm, chainText_parts point.parts, ← point.place,
      ← length_chainText]
    exact eraseIdx_middle _ _ _ _ point.inside
  | freedAlone b point last alone =>
    have hk : k = 0 := by rw [← point.place]; rfl
    obtain ⟨x, hx⟩ := List.length_eq_one_iff.mp last
    rw [point.parts, hk, List.nil_append, chainText_cons, hx]; rfl
  | freedNext before b after nb point last next =>
    have hw := Memory.write_wf m b Block.free hm
    obtain ⟨hbefore, hafter⟩ := point.notMem hs
    have hkeep : ∀ l : List Nat, b ∉ l →
        chainText (flagBlock (Memory.write m b Block.free) nb) l = chainText m l := fun l hl => by
      unfold chainText
      rw [List.flatMap_def, List.flatMap_def]
      congr 1
      refine List.map_congr_left fun x hx => ?_
      have hxb : x ≠ b := fun he => hl (he ▸ hx)
      rw [chars_read_flagBlock hw, Memory.read_write_ne _ _ _ _ hxb]
    obtain ⟨x, hx⟩ := List.length_eq_one_iff.mp last
    have hmid := eraseIdx_middle (chainText m before) (Memory.read m b).chars (chainText m after) 0
      (by rw [hx]; simp)
    rw [chainText_append, hkeep _ hbefore, hkeep _ hafter, chainText_parts point.parts, ← point.place,
      ← length_chainText, ← hmid, hx]; rfl

theorem replaceChar_chainStep (hm : Memory.wf m) (hs : ChainSound m chain) (c : Byte) (k : Nat) :
    ChainStep m (replaceChar m chain k c) chain chain := by
  by_cases hk : k < chainLength m chain
  · obtain ⟨before, b, after, p, hp⟩ := exists_charPoint hk
    simp only [replaceChar, hp.locate]
    obtain ⟨h1, h2⟩ := hs.2.2 b hp.mem
    exact .write hm hs hp.mem (by simpa [fill] using h1) (by simpa [fill] using h2)
  · simp only [replaceChar, locateChar_eq_none (Nat.le_of_not_lt hk)]
    exact .refl hm hs

end

end Sys2Proof.Machine
end

section
/-! SUPPORT. Insertions and deletions are exact (R2 to R7, R9). -/

namespace Sys2Proof.Machine

section
variable {m m' : Memory} {chain chain' before after : List Nat} {k b p nb : Nat} {c : Byte}
  {freed : Bool}

theorem InsertMade.subset (h : InsertMade m chain k c m' chain') : chain ⊆ chain' := by
  cases h with
  | firstBlock b empty low => rw [empty]; exact List.nil_subset _
  | intoBlock => exact List.Subset.refl _
  | splitBlock before b after p nb point =>
    intro x hx
    rw [point.parts] at hx
    simp only [List.mem_append, List.mem_cons] at hx ⊢
    tauto

theorem DeleteMade.subset (h : DeleteMade m chain k m' chain' freed) : chain' ⊆ chain := by
  cases h with
  | fromBlock => exact List.Subset.refl _
  | freedAlone => exact List.nil_subset _
  | freedNext before b after nb point =>
    rw [point.parts]
    exact ((List.sublist_cons_self b after).append_left before).subset

theorem insertChar_poolEmpty (hm : Memory.wf m) (hb : m.Bounded) (hs : ChainSound m chain) :
    insertChar m chain k c = .poolEmpty ↔ needsBlock m chain k = true ∧ Memory.freeCount m = 0 ∧
      chain.length ≠ 256 ∧ chainLength m chain ≠ 61440 := by
  rw [insertChar_poolEmpty_iff, Memory.lowestFree?_eq_none hm hb, ← Bool.not_eq_true, atCap_iff hs]
  tauto

theorem insertionPutsOneCharacter : Clause.InsertionPutsOneCharacter := by
  intro m chain k c hm hlt hs hk
  have hb := (Memory.bounded_iff hm).mpr hlt
  refine ⟨fun m' chain' h => ?_, insertChar_atCap_iff.trans (atCap_iff hs),
    insertChar_poolEmpty hm hb hs, (needsBlock_iff hs hk).trans (or_congr_right ?_)⟩
  · have made := insertChar_made hm hs hk h
    have step := made.chainStep hm hs
    exact ⟨made.text hm hs hk, step.sound, step.wf,
      fun b hb => step.frame b (fun hc => hb (made.subset hc)) hb, step.freeCount hm hs hb⟩
  · constructor
    · rintro ⟨before, b, after, p, ⟨h1, h2, h3, h4⟩, hfull⟩
      exact ⟨before, b, after, p, h1, h2, h3, h4, hfull⟩
    · rintro ⟨before, b, after, p, h1, h2, h3, h4, hfull⟩
      exact ⟨before, b, after, p, ⟨h1, h2, h3, h4⟩, hfull⟩

/-- An insertion at a point uses the block of that point. -/
theorem InsertPoint.unique (h : InsertPoint m chain k before b after p) {before' after' : List Nat}
    {b' p' : Nat} (h' : InsertPoint m chain k before' b' after' p') (hs : ChainSound m chain) :
    before' = before ∧ b' = b ∧ after' = after ∧ p' = p := by
  have hloc := h.locate
  rw [h'.locate] at hloc; cases hloc
  obtain ⟨hb, ha⟩ := h'.notMem hs
  obtain ⟨rfl, -, rfl⟩ := (List.append_cons_inj_of_notMem hb ha).mp (h'.parts.symm.trans h.parts)
  exact ⟨rfl, rfl, rfl, rfl⟩

theorem insertionsTakeTheNamedBlock : Clause.InsertionsTakeTheNamedBlock := by
  intro m m' chain chain' k c hm hlt hs h
  refine ⟨fun hnil hk => ?_, fun before b after p hparts hplace hin hfirst => ?_⟩
  · subst hnil hk
    cases insertChar_made hm hs (Nat.zero_le _) h with
    | firstBlock b _ low =>
      exact ⟨b, low, rfl, Memory.read_write_same _ _ _ hm, fun x hx => Memory.read_write_ne _ _ _ _ hx⟩
    | intoBlock before b after p point => exact absurd point.mem List.not_mem_nil
    | splitBlock before b after p nb point => exact absurd point.mem List.not_mem_nil
  · have point : InsertPoint m chain k before b after p := ⟨hparts, hplace, hin, hfirst⟩
    have hk : k ≤ chainLength m chain := by
      rw [hparts, chainLength_append, chainLength_cons, ← hplace]; omega
    cases insertChar_made hm hs hk h with
    | firstBlock _ empty => rw [empty] at point; exact absurd point.mem List.not_mem_nil
    | intoBlock _ _ _ _ point' room =>
      obtain ⟨rfl, rfl, rfl, rfl⟩ := point.unique point' hs
      exact ⟨fun _ => ⟨rfl, Memory.read_write_same _ _ _ hm,
        fun x hx => Memory.read_write_ne _ _ _ _ hx⟩, fun hfull => by omega⟩
    | splitBlock _ _ _ _ nb point' full short low =>
      obtain ⟨rfl, rfl, rfl, rfl⟩ := point.unique point' hs
      have hne : nb ≠ _ := fun he => low.not_mem hs (he ▸ point.mem)
      obtain ⟨hrb, hrn, hrest⟩ := read_split hm hne _ _
      obtain ⟨hlow, hhigh⟩ := length_splitHalves c full (full ▸ point.inside)
      refine ⟨fun hroom => by omega, fun _ => ⟨nb, low, rfl, fun hp => ?_, fun hp => ?_, hrest⟩⟩
      · rw [fill, fill, hrb, hrn]
        refine ⟨(hlow hp).1, (hlow hp).2, ?_, ?_⟩ <;> rw [splitHalves, if_pos hp]
      · rw [fill, fill, hrb, hrn]
        refine ⟨(hhigh hp).1, (hhigh hp).2, ?_, ?_⟩ <;>
          rw [splitHalves, if_neg (Nat.not_le_of_lt hp)]

theorem DeleteMade.freedBlock (h : DeleteMade m chain k m' chain' true) (hm : Memory.wf m)
    (hs : ChainSound m chain) : ∃ b, locateChar m chain k = some (b, 0) ∧ fill m b = 1 ∧
      Memory.read m' b = Block.free ∧ chain' = chain.erase b ∧
      ∀ nb, chainNeighbour chain b = some nb → (Memory.read m' nb).changed = true := by
  cases h with
  | freedAlone b point last alone =>
    refine ⟨b, point.locate, last, Memory.read_write_same _ _ _ hm, ?_, fun nb hn => ?_⟩
    · rw [point.parts, erase_of_parts (point.notMem hs).1]; rfl
    · rw [alone] at hn; cases hn
  | freedNext before b after nb point last next =>
    have hw := Memory.write_wf m b Block.free hm
    refine ⟨b, point.locate, last, ?_, ?_, fun nb' hn => ?_⟩
    · rw [read_flagBlock hw, if_neg (mem_of_chainNeighbour next hs.1).2.symm,
        Memory.read_write_same _ _ _ hm]
    · rw [point.parts, erase_of_parts (point.notMem hs).1]
    · rw [next] at hn; cases hn
      rw [read_flagBlock hw, if_pos rfl]

theorem DeleteMade.keptBlock (h : DeleteMade m chain k m' chain' false) (hm : Memory.wf m) :
    chain' = chain ∧
      ∃ b p, locateChar m chain k = some (b, p) ∧ (Memory.read m' b).changed = true := by
  cases h with
  | fromBlock before b after p point more =>
    exact ⟨rfl, b, p, point.locate, by rw [Memory.read_write_same _ _ _ hm]⟩

theorem deletionTakesOneCharacter : Clause.DeletionTakesOneCharacter := by
  intro m chain k hm hs hk
  have made := deleteChar_made hs hk
  obtain ⟨m', chain', freed, hd⟩ : ∃ m' chain' freed, deleteChar m chain k = (m', chain', freed) :=
    ⟨_, _, _, rfl⟩
  rw [hd] at made
  have step := made.chainStep hm hs
  refine ⟨m', chain', freed, hd, made.text hm hs, step.sound, step.wf,
    fun b hb => step.frame b hb fun hc => hb (made.subset hc), fun hf => ?_, fun hf => ?_⟩
  · subst hf; exact made.freedBlock hm hs
  · subst hf; exact made.keptBlock hm

/-- A written block that carries its flag is flagged, and every other block is as it was. -/
theorem read_write_flagged (hm : Memory.wf m) (b x : Nat) (l : List Byte) :
    Memory.read (Memory.write m b ⟨l, true⟩) x = Memory.read m x ∨
      (Memory.read (Memory.write m b ⟨l, true⟩) x).changed = true := by
  by_cases hx : x = b
  · subst hx; exact .inr (by rw [Memory.read_write_same _ _ _ hm])
  · exact .inl (Memory.read_write_ne _ _ _ _ hx)

theorem insertChar_flags (hm : Memory.wf m) (h : insertChar m chain k c = .made m' chain') (x : Nat) :
    Memory.read m' x = Memory.read m x ∨ (Memory.read m' x).changed = true := by
  unfold insertChar at h
  split at h
  · cases h
  split at h
  · split at h
    · cases h
    · cases h; exact read_write_flagged hm _ _ _
  · next b p _ =>
    split at h
    · cases h; exact read_write_flagged hm _ _ _
    · split at h
      · cases h
      · next nb _ =>
        rw [splitInsert_eq] at h
        cases h
        rcases read_write_flagged (Memory.write_wf m b _ hm) nb x _ with hx | hx
        · rw [hx]; exact read_write_flagged hm _ _ _
        · exact .inr hx

theorem DeleteMade.flags (h : DeleteMade m chain k m' chain' freed) (hm : Memory.wf m)
    (hs : ChainSound m chain) (x : Nat) (hx : x ∈ chain') :
    Memory.read m' x = Memory.read m x ∨ (Memory.read m' x).changed = true := by
  cases h with
  | fromBlock => exact read_write_flagged hm _ _ _
  | freedAlone => exact absurd hx List.not_mem_nil
  | freedNext before b after nb point last next =>
    obtain ⟨hbefore, hafter⟩ := point.notMem hs
    have hxb : x ≠ b := by
      rintro rfl
      exact (List.mem_append.mp hx).elim hbefore hafter
    rw [read_flagBlock (Memory.write_wf m b _ hm)]
    split
    · exact .inr rfl
    · exact .inl (Memory.read_write_ne _ _ _ _ hxb)

theorem changesFlagTheirBlocks : Clause.ChangesFlagTheirBlocks := by
  refine fun m chain k c hm hs => ⟨fun m' chain' h b _ => insertChar_flags hm h b,
    fun m' chain' freed h b hb => ?_⟩
  by_cases hk : k < chainLength m chain
  · have made := deleteChar_made hs hk
    rw [h] at made
    exact made.flags hm hs b hb
  · rw [deleteChar, locateChar_eq_none (Nat.le_of_not_lt hk)] at h
    cases h
    exact .inl rfl

end

/-- Settles O13: each way an insertion or a deletion is made is one case of InsertMade or DeleteMade. -/
theorem insertionsAndDeletionsAreExact : Obligations.InsertionsAndDeletionsAreExact :=
  ⟨insertionPutsOneCharacter, insertionsTakeTheNamedBlock, deletionTakesOneCharacter,
    changesFlagTheirBlocks⟩

end Sys2Proof.Machine
end

section
/-! SUPPORT. The sound store (R1, R3): it is told by copy memory and the stories' chains alone, a change of one chain keeps it and every other story's text, and it accounts for all 8192 blocks. -/

namespace Sys2Proof.Machine

/-! ### Copy memory owned by chains -/

/-- A story's chain, where the identifier is in use. -/
def chainOf (s : State) (id : Nat) : Option (List Nat) := (storyOf s id).map (·.chain)

/-- R1, R3, told by the chain under each identifier: chains are sound, none shares a block with another, and every block that is not free stands in one. -/
structure Owned (m : Memory) (chains : Nat → Option (List Nat)) : Prop where
  wf : Memory.wf m
  bounded : m.Bounded
  sound : ∀ {id c}, chains id = some c → ChainSound m c
  alone : ∀ {id id' c c' b}, chains id = some c → chains id' = some c' → b ∈ c → b ∈ c' → id = id'
  owned : ∀ {b}, Memory.read m b ≠ Block.free → ∃ id c, chains id = some c ∧ b ∈ c

theorem chainOf_eq_some {s : State} (h : Tab.wf s.stories) {id : Nat} {c : List Nat} :
    chainOf s id = some c ↔ ∃ st, (id, st) ∈ s.stories ∧ st.chain = c := by
  simp [chainOf, storyOf, Tab.get?_eq_some_iff h]

theorem mem_chainBlocks {s : State} (h : Tab.wf s.stories) {b : Nat} :
    b ∈ chainBlocks s ↔ ∃ id c, chainOf s id = some c ∧ b ∈ c := by
  simp only [chainBlocks, List.mem_flatMap, chainOf_eq_some h]
  constructor
  · rintro ⟨e, he, hb⟩; exact ⟨e.1, _, ⟨e.2, he, rfl⟩, hb⟩
  · rintro ⟨id, c, ⟨st, he, rfl⟩, hb⟩; exact ⟨(id, st), he, hb⟩

theorem storeSound_iff (s : State) :
    StoreSound s ↔ Tab.wf s.stories ∧ Owned s.memory (chainOf s) := by
  constructor
  · rintro ⟨hm, hw, hlt, hnd, hblocks, hsound⟩
    obtain ⟨-, hdis⟩ := List.nodup_flatMap.mp hnd
    have hsymm : Std.Symm (Function.onFun List.Disjoint fun e : Nat × Story => e.2.chain) :=
      ⟨fun _ _ hd => List.Disjoint.symm hd⟩
    have hapart := hdis.forall
    have hused : ∀ b, b ∈ chainBlocks s ↔ Memory.read s.memory b ≠ Block.free := fun b =>
      (hblocks b).trans (Memory.mem_keys_iff hm b)
    refine ⟨hw, hm, (Memory.bounded_iff hm).mpr hlt, fun hc => ?_, fun hc hc' hb hb' => ?_,
      fun hb => (mem_chainBlocks hw).mp ((hused _).mpr hb)⟩
    · obtain ⟨st, he, rfl⟩ := (chainOf_eq_some hw).mp hc
      exact hsound _ he
    · obtain ⟨st, he, rfl⟩ := (chainOf_eq_some hw).mp hc
      obtain ⟨st', he', rfl⟩ := (chainOf_eq_some hw).mp hc'
      by_contra hne
      exact hapart he he' (fun heq => hne (congrArg Prod.fst heq)) hb hb'
  · rintro ⟨hw, ho⟩
    refine ⟨ho.wf, hw, (Memory.bounded_iff ho.wf).mp ho.bounded, ?_, fun b => ?_, fun e he => ?_⟩
    · refine List.nodup_flatMap.mpr ⟨fun e he => ?_, hw.imp_of_mem fun {a b} ha hb hlt x hxa hxb => ?_⟩
      · exact (ho.sound ((chainOf_eq_some hw).mpr ⟨e.2, he, rfl⟩)).1
      · exact absurd (ho.alone ((chainOf_eq_some hw).mpr ⟨a.2, ha, rfl⟩)
          ((chainOf_eq_some hw).mpr ⟨b.2, hb, rfl⟩) hxa hxb) (Nat.ne_of_lt hlt)
    · rw [Memory.mem_keys_iff ho.wf, mem_chainBlocks hw]
      exact ⟨fun ⟨_, _, hc, hb⟩ => (ho.sound hc).mem_used hb, ho.owned⟩
    · exact ho.sound ((chainOf_eq_some hw).mpr ⟨e.2, he, rfl⟩)

section
variable {m m' : Memory} {chains : Nat → Option (List Nat)} {id id' : Nat} {c c' d : List Nat}

/-- A change of one chain leaves every block of another chain as it was. -/
theorem Owned.untouched (h : Owned m chains) (hc : chains id = some c) (step : ChainStep m m' c c')
    (hd : chains id' = some d) (hne : id' ≠ id) {b : Nat} (hb : b ∈ d) :
    Memory.read m' b = Memory.read m b ∧ b ∉ c' := by
  have hbc : b ∉ c := fun hbc => hne (h.alone hd hc hb hbc)
  have hbc' : b ∉ c' := fun hbc' => (h.sound hd).mem_used hb (step.taken b hbc' hbc).1
  exact ⟨step.frame b hbc hbc', hbc'⟩

/-- A change of one chain keeps the store owned. -/
theorem Owned.step (h : Owned m chains) (hc : chains id = some c) (step : ChainStep m m' c c') :
    Owned m' (Function.update chains id (some c')) where
  wf := step.wf
  bounded := step.bounded (h.sound hc) h.bounded
  sound {i d} hd := by
    by_cases hi : i = id
    · subst hi; rw [Function.update_self] at hd; cases hd; exact step.sound
    · rw [Function.update_of_ne hi] at hd
      obtain ⟨hnd, hlen, hfill⟩ := h.sound hd
      refine ⟨hnd, hlen, fun b hb => ?_⟩
      rw [fill_congr (h.untouched hc step hd hi hb).1]
      exact hfill b hb
  alone {i j d e b} hd he hbd hbe := by
    by_cases hi : i = id <;> by_cases hj : j = id
    · rw [hi, hj]
    · subst hi
      rw [Function.update_self] at hd; rw [Function.update_of_ne hj] at he; cases hd
      exact absurd hbd (h.untouched hc step he hj hbe).2
    · subst hj
      rw [Function.update_self] at he; rw [Function.update_of_ne hi] at hd; cases he
      exact absurd hbe (h.untouched hc step hd hi hbd).2
    · rw [Function.update_of_ne hi] at hd; rw [Function.update_of_ne hj] at he
      exact h.alone hd he hbd hbe
  owned {b} hb := by
    by_cases hbc' : b ∈ c'
    · exact ⟨id, c', Function.update_self .., hbc'⟩
    · have hbc : b ∉ c := fun hbc => hb (step.given b hbc hbc')
      rw [step.frame b hbc hbc'] at hb
      obtain ⟨i, d, hd, hbd⟩ := h.owned hb
      have hi : i ≠ id := by rintro rfl; rw [hc] at hd; cases hd; exact hbc hbd
      exact ⟨i, d, by rw [Function.update_of_ne hi]; exact hd, hbd⟩

/-- A chain without blocks may come under an identifier that has none, or go from it. -/
theorem Owned.update_empty (h : Owned m chains) (hc : ∀ c, chains id = some c → c = [])
    {o : Option (List Nat)} (ho : ∀ c, o = some c → c = []) : Owned m (Function.update chains id o) := by
  have key : ∀ {i d b}, Function.update chains id o i = some d → b ∈ d → chains i = some d := by
    intro i d b hd hb
    by_cases hi : i = id
    · subst hi
      rw [Function.update_self] at hd
      rw [ho d hd] at hb; cases hb
    · rwa [Function.update_of_ne hi] at hd
  refine ⟨h.wf, h.bounded, fun {i d} hd => ?_, fun hd hd' hb hb' => h.alone (key hd hb) (key hd' hb') hb hb',
    fun hb => ?_⟩
  · by_cases hi : i = id
    · subst hi
      rw [Function.update_self] at hd
      rw [ho d hd]; exact ⟨List.nodup_nil, by simp, by simp⟩
    · rw [Function.update_of_ne hi] at hd; exact h.sound hd
  · obtain ⟨i, d, hd, hbd⟩ := h.owned hb
    have hi : i ≠ id := by rintro rfl; rw [hc d hd] at hbd; cases hbd
    exact ⟨i, d, by rw [Function.update_of_ne hi]; exact hd, hbd⟩

theorem read_unflagBlock (hm : Memory.wf m) (b x : Nat) :
    Memory.read (unflagBlock m b) x =
      if x = b then { Memory.read m x with changed := false } else Memory.read m x := by
  unfold unflagBlock
  split
  · next h => subst h; exact Memory.read_write_same _ _ _ hm
  · next h => exact Memory.read_write_ne _ _ _ _ h

/-- R10: clearing the flags of a chain changes nothing but those flags. -/
theorem read_clearFlags (hm : Memory.wf m) (chain : List Nat) (x : Nat) :
    Memory.read (clearFlags m chain) x =
      if x ∈ chain then { Memory.read m x with changed := false } else Memory.read m x := by
  induction chain generalizing m with
  | nil => simp [clearFlags]
  | cons b bs ih =>
    have hcons : clearFlags m (b :: bs) = clearFlags (unflagBlock m b) bs := rfl
    rw [hcons, ih (m := unflagBlock m b) (Memory.write_wf _ _ _ hm), read_unflagBlock hm]
    by_cases hx : x = b
    · subst hx; simp
    · simp [hx]

/-- R24: freeing a chain frees its blocks and no other. -/
theorem read_freeChain (hm : Memory.wf m) (chain : List Nat) (x : Nat) :
    Memory.read (freeChain m chain) x = if x ∈ chain then Block.free else Memory.read m x := by
  induction chain generalizing m with
  | nil => simp [freeChain]
  | cons b bs ih =>
    have hcons : freeChain m (b :: bs) = freeChain (Memory.write m b Block.free) bs := rfl
    rw [hcons, ih (Memory.write_wf _ _ _ hm)]
    by_cases hx : x = b
    · subst hx; simp [Memory.read_write_same _ _ _ hm]
    · simp [hx, Memory.read_write_ne _ _ _ _ hx]

theorem clearFlags_chainStep (hm : Memory.wf m) (hs : ChainSound m c) :
    ChainStep m (clearFlags m c) c c where
  wf := clearFlags_wf m c hm
  sound := hs.sublist (List.Sublist.refl c) fun x hx => by
    rw [fill, read_clearFlags hm, if_pos hx]; rfl
  frame := fun x hx _ => by rw [read_clearFlags hm, if_neg hx]
  taken := fun x hx hnx => absurd hx hnx
  given := fun x hx hnx => absurd hx hnx

theorem freeChain_chainStep (hm : Memory.wf m) : ChainStep m (freeChain m c) c [] where
  wf := freeChain_wf m c hm
  sound := ⟨List.nodup_nil, by simp, by simp⟩
  frame := fun x hx _ => by rw [read_freeChain hm, if_neg hx]
  taken := fun x hx => absurd hx List.not_mem_nil
  given := fun x hx _ => by rw [read_freeChain hm, if_pos hx]

end

/-! ### Updates of the directory -/

theorem storyOf_setStory (id x : Nat) (st : Story) (s : State) :
    storyOf (setStory id st s) x = if x = id then some st else storyOf s x := by
  unfold storyOf setStory
  split
  · next h => subst h; exact Tab.get?_put_same _ _ _
  · next h => exact Tab.get?_put_ne _ _ _ _ h

theorem chainOf_setStory (id : Nat) (st : Story) (s : State) :
    chainOf (setStory id st s) = Function.update (chainOf s) id (some st.chain) := by
  funext x
  rw [chainOf, storyOf_setStory, Function.update_apply]
  split <;> rfl

theorem Tab.get?_mapVal {α : Type} (f : α → α) (m : Tab α) (n : Nat) :
    Tab.get? (Tab.mapVal f m) n = (Tab.get? m n).map f := by
  induction m with
  | nil => rfl
  | cons e m ih =>
    simp only [Tab.mapVal] at ih
    by_cases h : e.1 = n <;> simp [Tab.mapVal, Tab.get?, h, ih]

theorem Tab.wf_mapVal {α : Type} (f : α → α) (m : Tab α) (h : Tab.wf m) : Tab.wf (Tab.mapVal f m) :=
  List.pairwise_map.mpr h

theorem storyOf_modStory (id x : Nat) (f : Story → Story) (s : State) :
    storyOf (modStory id f s) x = if x = id then (storyOf s x).map f else storyOf s x := by
  unfold modStory
  split
  · next h =>
    split
    · next hx => subst hx; simp [h]
    · rfl
  · next st h =>
    rw [storyOf_setStory]
    split
    · next hx => subst hx; simp [h]
    · rfl

/-! ### What keeps the store sound -/

/-- The second state's store is sound where the first one's is. -/
def KeepsStore (s t : State) : Prop := StoreSound s → StoreSound t

theorem KeepsStore.refl (s : State) : KeepsStore s s := id

theorem KeepsStore.trans {s t u : State} (h : KeepsStore s t) (k : KeepsStore t u) : KeepsStore s u :=
  fun hs => k (h hs)

/-- The last operation first, as the frames are put together. -/
theorem KeepsStore.step {s t u : State} (k : KeepsStore t u) (h : KeepsStore s t) : KeepsStore s u :=
  h.trans k

theorem KeepsStore.ite {c : Prop} [Decidable c] {s t u : State} (h : KeepsStore s t)
    (k : KeepsStore s u) : KeepsStore s (if c then t else u) := by
  split
  · exact h
  · exact k

theorem KeepsStore.foldl {α : Type} (g : State → α → State) (h : ∀ s a, KeepsStore s (g s a))
    (l : List α) (s : State) : KeepsStore s (l.foldl g s) := by
  induction l generalizing s with
  | nil => exact .refl s
  | cons a l ih => exact (h s a).trans (ih _)

/-- Memory, and the chain under every identifier, as before: the store is as sound as before. -/
theorem KeepsStore.of_chains {s t : State} (hm : t.memory = s.memory)
    (hw : Tab.wf s.stories → Tab.wf t.stories) (hc : chainOf t = chainOf s) : KeepsStore s t := by
  intro h
  rw [storeSound_iff] at h ⊢
  rw [hm, hc]
  exact ⟨hw h.1, h.2⟩

theorem KeepsStore.of_same {s t : State} (hm : t.memory = s.memory) (hs : t.stories = s.stories) :
    KeepsStore s t :=
  .of_chains hm (by rw [hs]; exact id) (by unfold chainOf storyOf; rw [hs])

/-- An update that changes neither memory nor the directory. -/
theorem KeepsBut.store {fs : List Field} {s t : State}
    (hf : Field.memory ∉ fs ∧ Field.stories ∉ fs) (h : KeepsBut fs s t) : KeepsStore s t :=
  .of_same (h .memory hf.1) (h .stories hf.2)

theorem setStory_keepsStore {id : Nat} {st st' : Story} {s : State} (h : storyOf s id = some st)
    (hc : st'.chain = st.chain) : KeepsStore s (setStory id st' s) := by
  refine .of_chains rfl (fun hw => Tab.wf_put _ _ _ hw) ?_
  rw [chainOf_setStory, hc, Function.update_eq_self_iff, chainOf, h]; rfl

theorem modStory_keepsStore (id : Nat) {f : Story → Story} (s : State)
    (hf : ∀ st, (f st).chain = st.chain) : KeepsStore s (modStory id f s) := by
  unfold modStory
  split
  · exact .refl s
  · next st h => exact setStory_keepsStore h (hf st)

theorem StoreSound.chain {s : State} (h : StoreSound s) {id : Nat} {st : Story}
    (hst : storyOf s id = some st) : ChainSound s.memory st.chain :=
  ((storeSound_iff s).mp h).2.sound (id := id) (by rw [chainOf, hst]; rfl)

theorem StoreSound.bounded {s : State} (h : StoreSound s) : s.memory.Bounded :=
  ((storeSound_iff s).mp h).2.bounded

/-- A text change of one story keeps the store sound. -/
theorem setText_sound {s : State} {id : Nat} {st : Story} {m : Memory} {chain : List Nat}
    (h : StoreSound s) (hst : storyOf s id = some st) (step : ChainStep s.memory m st.chain chain) :
    StoreSound (setText id st m chain s) := by
  rw [storeSound_iff] at h ⊢
  refine ⟨Tab.wf_put _ _ _ h.1, ?_⟩
  have hc : chainOf (setText id st m chain s) = Function.update (chainOf s) id (some chain) :=
    chainOf_setStory id _ { s with memory := m }
  rw [hc]
  exact h.2.step (by rw [chainOf, hst]; rfl) step

/-- A change of one chain's blocks that leaves the chain as it is keeps the store sound. -/
theorem memory_sound {s : State} {id : Nat} {st : Story} {m : Memory} (h : StoreSound s)
    (hst : storyOf s id = some st) (step : ChainStep s.memory m st.chain st.chain) :
    StoreSound { s with memory := m } := by
  rw [storeSound_iff] at h ⊢
  have hc : chainOf s id = some st.chain := by rw [chainOf, hst]; rfl
  have hu := h.2.step hc step
  rw [Function.update_eq_self_iff.mpr hc.symm] at hu
  exact ⟨h.1, hu⟩

/-- A text change of one story changes no other story's text. -/
theorem StoreSound.otherText {s : State} {id other : Nat} {st so : Story} {m : Memory}
    {chain : List Nat} (h : StoreSound s) (hst : storyOf s id = some st)
    (hso : storyOf s other = some so) (hne : other ≠ id) (step : ChainStep s.memory m st.chain chain) :
    chainText m so.chain = chainText s.memory so.chain := by
  have ho := ((storeSound_iff s).mp h).2
  exact chainText_congr fun b hb =>
    (ho.untouched (id := id) (id' := other) (by rw [chainOf, hst]; rfl) step
      (by rw [chainOf, hso]; rfl) hne hb).1

/-! ### The account of all blocks (R1) -/

theorem soundStoreAccountsForEveryBlock : Clause.SoundStoreAccountsForEveryBlock := by
  rintro s h
  have hbound := Memory.length_le h.1 h.bounded
  obtain ⟨hm, hw, hlt, hnd, hblocks, -⟩ := h
  have hperm : (chainBlocks s).Perm (s.memory.map (·.1)) :=
    (List.perm_ext_iff_of_nodup hnd (Tab.nodup_keys hm.1)).mpr hblocks
  have hlen := hperm.length_eq
  rw [chainBlocks, List.length_flatMap, List.length_map] at hlen
  rw [hlen, Memory.freeCount, Config.blocks]
  omega

end Sys2Proof.Machine
end

section
/-! SUPPORT. Every operation on stories, panes, channels and wire lines keeps the store sound (R1, R3). -/

namespace Sys2Proof.Machine

/-! ### Insertion at any point -/

section
variable {m m' : Memory} {chain chain' : List Nat} {k : Nat} {c : Byte}

/-- A point past the end of a text is its end (R4). -/
theorem locateInsert_clamp (hpos : ∀ b ∈ chain, 1 ≤ fill m b) (k : Nat) :
    locateInsert m chain k = locateInsert m chain (min k (chainLength m chain)) := by
  induction chain generalizing k with
  | nil => rfl
  | cons x xs ih =>
    cases xs with
    | nil => simp [locateInsert, chainLength_cons]
    | cons y ys =>
      have hy := hpos y (by simp)
      have ihs := ih (fun b hb => hpos b (List.mem_cons_of_mem _ hb)) (k - fill m x)
      have hlen : chainLength m (x :: y :: ys) = fill m x + chainLength m (y :: ys) :=
        chainLength_cons m x _
      have htail : 1 ≤ chainLength m (y :: ys) := by rw [chainLength_cons]; omega
      by_cases hx : k ≤ fill m x
      · rw [Nat.min_eq_left (by omega)]
      · rw [locateInsert, locateInsert, if_neg hx, if_neg (by omega), ihs]
        congr 1
        omega

theorem insertChar_clamp (hs : ChainSound m chain) :
    insertChar m chain k c = insertChar m chain (min k (chainLength m chain)) c := by
  have hloc := locateInsert_clamp (fun b hb => (hs.2.2 b hb).1) k
  have hneeds : needsBlock m chain k = needsBlock m chain (min k (chainLength m chain)) := by
    unfold needsBlock; rw [hloc]
  unfold insertChar atCap
  rw [hneeds, hloc]

theorem insertChar_chainStep (hm : Memory.wf m) (hs : ChainSound m chain)
    (h : insertChar m chain k c = .made m' chain') : ChainStep m m' chain chain' := by
  rw [insertChar_clamp hs] at h
  exact (insertChar_made hm hs (Nat.min_le_right _ _) h).chainStep hm hs

theorem deleteChar_chainStep (hm : Memory.wf m) (hs : ChainSound m chain) (k : Nat) :
    ChainStep m (deleteChar m chain k).1 chain (deleteChar m chain k).2.1 := by
  by_cases hk : k < chainLength m chain
  · exact (deleteChar_made hs hk).chainStep hm hs
  · have hnone : deleteChar m chain k = (m, chain, false) := by
      simp only [deleteChar, locateChar_eq_none (Nat.le_of_not_lt hk)]
    rw [hnone]
    exact .refl hm hs

end

/-! ### Stories and the Fit Queue -/

theorem setFitStatus_keepsStore (id : Nat) (x : FitStatus) (s : State) :
    KeepsStore s (setFitStatus id x s) := modStory_keepsStore id s fun _ => rfl

theorem release_keepsStore (id : Nat) (s : State) : KeepsStore s (release id s) :=
  modStory_keepsStore id s fun _ => rfl

theorem claim_keepsStore (id : Nat) (h : Holding) (s : State) : KeepsStore s (claim id h s) :=
  modStory_keepsStore id s fun _ => rfl

theorem textChanged_keepsStore (id : Nat) (s : State) :
    KeepsStore s (modStory id Story.textChanged s) := modStory_keepsStore id s fun _ => rfl

theorem joinFitQueue_keepsStore (id : Nat) (s : State) : KeepsStore s (joinFitQueue id s) :=
  (KeepsBut.store (by decide) (keeps_fit s _)).trans (setFitStatus_keepsStore _ _ _)

theorem autoOffer_keepsStore (id : Nat) (s : State) : KeepsStore s (autoOffer id s) := by
  unfold autoOffer
  split
  · exact .refl s
  · next st h =>
    exact .ite (.refl s) (.ite (.refl s)
      (.ite (joinFitQueue_keepsStore _ _) (setStory_keepsStore h rfl)))

theorem deleteAt_keepsStore (id k : Nat) (s : State) : KeepsStore s (deleteAt id k s) := by
  unfold deleteAt
  split
  · exact .refl s
  · next st hst =>
    have h : KeepsStore s (setText id st (deleteChar s.memory st.chain k).1
        (deleteChar s.memory st.chain k).2.1 s) := fun hs =>
      setText_sound hs hst (deleteChar_chainStep hs.1 (hs.chain hst) k)
    exact .ite (h.trans (KeepsBut.store (by decide) (recoveryTest_keeps _))) h

theorem insertAt_keepsStore (id k : Nat) (c : Byte) (s : State) :
    KeepsStore s (insertAt id k c s) := by
  unfold insertAt
  split
  · exact .refl s
  · next st hst =>
    split
    · next m chain hm =>
      intro hs
      exact setText_sound hs hst (insertChar_chainStep hs.1 (hs.chain hst) hm)
    · exact .refl s
    · exact .refl s

theorem deleteMany_keepsStore (id k n : Nat) (s : State) : KeepsStore s (deleteMany id k n s) := by
  induction n generalizing s with
  | zero => exact .refl s
  | succ n ih => exact (deleteAt_keepsStore id k s).trans (ih _)

theorem insertMany_keepsStore (id : Nat) (cs : List Byte) (k : Nat) (s : State) :
    KeepsStore s (insertMany id k cs s) := by
  induction cs generalizing k s with
  | nil => exact .refl s
  | cons c cs ih => exact (insertAt_keepsStore id k c s).trans (ih _ _)

theorem writeText_keepsStore (id off del : Nat) (text : List Byte) (s : State) :
    KeepsStore s (writeText id off del text s) := by
  unfold writeText
  exact .ite (.refl s) ((deleteMany_keepsStore _ _ _ _).trans ((insertMany_keepsStore _ _ _ _).trans
    ((textChanged_keepsStore _ _).trans (KeepsBut.store (by decide) (keepRefTops_keeps _ _ _)))))

/-! ### Panes, baskets, spikes, creations -/

theorem closeSession_keepsStore (t : Fin 32) (offer : Bool) (s : State) :
    KeepsStore s (closeSession t offer s) := by
  unfold closeSession
  split
  · exact .refl s
  · exact (release_keepsStore _ _).trans
      (KeepsStore.trans (.ite (autoOffer_keepsStore _ _) (.refl _))
        (KeepsBut.store (by decide) (modPanes_keeps _ _ _)))

theorem closePanes_keepsStore (t : Fin 32) (s : State) : KeepsStore s (closePanes t s) :=
  (closeSession_keepsStore t true s).trans (KeepsBut.store (by decide) (clearRef_keeps _ _))

theorem recheck_keepsStore (only : Option Nat) (t : Fin 32) (s : State) :
    KeepsStore s (recheck only t s) := by
  have h : KeepsStore s (if sessionFails s t only then
      raiseTerminal t TermEvents.addWindowClosed (closeSession t true s) else s) :=
    .ite ((closeSession_keepsStore _ _ _).trans
      (KeepsBut.store (by decide) (raiseTerminal_keeps _ _ _))) (.refl s)
  exact .ite (h.trans ((KeepsBut.store (by decide) (clearRef_keeps _ _)).trans
      (KeepsBut.store (by decide) (raiseTerminal_keeps _ _ _)))) h

theorem forTerminals_keepsStore (g : Fin 32 → State → State) (h : ∀ t s, KeepsStore s (g t s))
    (s : State) : KeepsStore s (forTerminals g s) := .foldl _ (fun s t => h t s) _ s

theorem recheckWhere_keepsStore (p : State → Fin 32 → Bool) (only : Option Nat) (s : State) :
    KeepsStore s (recheckWhere p only s) :=
  forTerminals_keepsStore _ (fun _ _ => .ite (recheck_keepsStore _ _ _) (.refl _)) s

theorem freeStory?_eq_some {s : State} (hw : Tab.wf s.stories) {id : Nat}
    (h : freeStory? s = some id) : LowestFreeStory s id := by
  obtain ⟨hle, hnone, hlow⟩ := Tab.lowestFree_spec s.stories 1 hw
  unfold freeStory? at h
  split at h
  · next hmax => cases h; exact ⟨hle, hmax, hnone, fun x h1 h2 => hlow x h1 h2⟩
  · cases h

/-- A creation under a free identifier takes no block (R13). -/
theorem createStory_keepsStore {id : Nat} {st : Story} {s : State} (hid : freeStory? s = some id)
    (hc : st.chain = []) : KeepsStore s (createStory id st s) := by
  have h : KeepsStore s (setStory id st s) := by
    intro hs
    rw [storeSound_iff] at hs ⊢
    have hfree : chainOf s id = none := by rw [chainOf, (freeStory?_eq_some hs.1 hid).2.2.1]; rfl
    refine ⟨Tab.wf_put _ _ _ hs.1, ?_⟩
    rw [chainOf_setStory]
    exact hs.2.update_empty (fun c hc => by rw [hfree] at hc; cases hc)
      (fun c h => by cases h; exact hc)
  exact h.trans (KeepsBut.store (by decide) (joinBasket_keeps _ _ _))

theorem storyOf_erase {s : State} (hw : Tab.wf s.stories) (id x : Nat) :
    Tab.get? (Tab.erase s.stories id) x = if x = id then none else storyOf s x := by
  split
  · next h => subst h; exact Tab.get?_erase_same _ _ hw
  · next h => exact Tab.get?_erase_ne _ _ _ h

/-- Where a story's chain is freed and its entry goes, the rest of the store is as it was (R24). -/
theorem erase_keepsStore {id : Nat} {st : Story} {s t : State} (hst : storyOf s id = some st)
    (hm : t.memory = freeChain s.memory st.chain) (ht : t.stories = Tab.erase s.stories id) :
    KeepsStore s t := by
  intro hs
  rw [storeSound_iff] at hs ⊢
  refine ⟨ht ▸ Tab.wf_erase _ _ hs.1, ?_⟩
  have hstep := hs.2.step (id := id) (by rw [chainOf, hst]; rfl) (freeChain_chainStep hs.2.wf)
  have hgone := hstep.update_empty (id := id) (o := none)
    (fun c hc => by rw [Function.update_self] at hc; exact (Option.some.inj hc).symm)
    (fun c hc => by cases hc)
  have hchains : chainOf t = Function.update (chainOf s) id none := by
    funext x
    rw [chainOf, storyOf, ht, storyOf_erase hs.1, Function.update_apply]
    split <;> rfl
  rw [Function.update_idem] at hgone
  rw [hm, hchains]
  exact hgone

theorem spike_keepsStore {id : Nat} {st : Story} {s : State} (hst : storyOf s id = some st) :
    KeepsStore s (spike id st s) := by
  unfold spike
  refine (KeepsBut.store (by decide) (spikePanes_keeps _ _)).step ((KeepsBut.store (by decide)
      (spikeFit_keeps _ _)).step
    ((KeepsBut.store (by decide) (leaveBasket_keeps _ _ _)).step (.ite ?_ ?_)))
  · exact erase_keepsStore hst rfl rfl
  · exact (KeepsBut.store (by decide) (recoveryTest_keeps _)).step (erase_keepsStore hst rfl rfl)

theorem moveTo_keepsStore (id : Nat) (a b : Fin 64) (s : State) :
    KeepsStore s (moveTo id a b s) := by
  unfold moveTo
  exact (recheckWhere_keepsStore _ _ _).step ((KeepsBut.store (by decide)
      (joinBasket_keeps _ _ _)).step
    (KeepsStore.step (modStory_keepsStore _ _ fun _ => rfl)
      (KeepsBut.store (by decide) (leaveBasket_keeps _ _ _))))

/-! ### Keys -/

theorem textEffects_keepsStore (t : Fin 32) (id k : Nat) (move : Nat → Nat) (s : State) :
    KeepsStore s (textEffects t id k move s) :=
  (textChanged_keepsStore id s).trans ((KeepsBut.store (by decide) (modSession_keeps _ _ _)).trans
    ((KeepsBut.store (by decide) (keepSessionTop_keeps _ _ _)).trans
      (KeepsBut.store (by decide) (keepRefTops_keeps _ _ _))))

theorem bell_keepsStore (t : Fin 32) (s : State) : KeepsStore s
    (bell t s) := KeepsBut.store (by decide) (bell_keeps t s)

theorem withEdit_keepsStore (t : Fin 32) (s : State) (k : Session → Story → State)
    (h : ∀ e st, storyOf s e.story = some st → KeepsStore s (k e st)) :
    KeepsStore s (withEdit t s k) := by
  unfold withEdit
  split
  · exact bell_keepsStore t s
  · split
    · next hst => exact h _ _ hst
    · exact bell_keepsStore t s

theorem insertKey_keepsStore (t : Fin 32) (c : Byte) {e : Session} {st : Story} {s : State}
    (hst : storyOf s e.story = some st) : KeepsStore s (insertKey t c e st s) := by
  unfold insertKey
  split
  · next m chain hm =>
    exact KeepsStore.trans
      (fun hs => setText_sound hs hst (insertChar_chainStep hs.1 (hs.chain hst) hm))
      (textEffects_keepsStore _ _ _ _ _)
  · exact bell_keepsStore t s
  · exact (bell_keepsStore t s).trans (KeepsBut.store (by decide) (poolPressed_keeps _ _))

theorem editText_keepsStore (t : Fin 32) (c : Byte) (s : State) : KeepsStore s (editText t c s) :=
  withEdit_keepsStore t s _ fun _ _ hst => .ite
    (KeepsStore.trans
      (fun hs => memory_sound hs hst (replaceChar_chainStep hs.1 (hs.chain hst) _ _))
      (textEffects_keepsStore _ _ _ _ _))
    (insertKey_keepsStore _ _ hst)

theorem editParagraph_keepsStore (t : Fin 32) (s : State) : KeepsStore s (editParagraph t s) :=
  withEdit_keepsStore t s _ fun _ _ hst => insertKey_keepsStore _ _ hst

theorem deleteKey_keepsStore (t : Fin 32) (e : Session) (k : Nat) (s : State) :
    KeepsStore s (deleteKey t e k s) :=
  (deleteAt_keepsStore _ _ _).trans (textEffects_keepsStore _ _ _ _ _)

theorem editDeleteBack_keepsStore (t : Fin 32) (s : State) : KeepsStore s (editDeleteBack t s) :=
  withEdit_keepsStore t s _ fun _ _ _ => .ite (bell_keepsStore t s) (deleteKey_keepsStore _ _ _ _)

theorem editDeleteForward_keepsStore (t : Fin 32) (s : State) :
    KeepsStore s (editDeleteForward t s) :=
  withEdit_keepsStore t s _ fun _ _ _ => .ite (deleteKey_keepsStore _ _ _ _) (bell_keepsStore t s)

theorem editKey_keepsStore (t : Fin 32) (act : State → State) (s : State)
    (h : KeepsStore s (act s)) : KeepsStore s (editKey t act s) := .ite h (bell_keepsStore t s)

theorem handKey_keepsStore (t : Fin 32) (k : Key) (s : State) : KeepsStore s (handKey t k s) := by
  cases k with
  | text c => exact editKey_keepsStore t _ s (editText_keepsStore t c s)
  | deleteBack => exact editKey_keepsStore t _ s (editDeleteBack_keepsStore t s)
  | deleteForward => exact editKey_keepsStore t _ s (editDeleteForward_keepsStore t s)
  | paragraph => exact editKey_keepsStore t _ s (editParagraph_keepsStore t s)
  | left => exact editKey_keepsStore t _ s (KeepsBut.store (by decide) (editLeft_keeps t s))
  | right => exact editKey_keepsStore t _ s (KeepsBut.store (by decide) (editRight_keeps t s))
  | up => exact editKey_keepsStore t _ s (KeepsBut.store (by decide) (editUp_keeps t s))
  | down => exact editKey_keepsStore t _ s (KeepsBut.store (by decide) (editDown_keeps t s))
  | switch => exact editKey_keepsStore t _ s (KeepsBut.store (by decide) (editSwitch_keeps t s))
  | toggle => exact editKey_keepsStore t _ s (KeepsBut.store (by decide) (editToggle_keeps t s))
  | clearMessage => exact KeepsBut.store (by decide) (clearSlot_keeps t s)
  | repaint => exact KeepsBut.store (by decide) (repaint_keeps t s)
  | function k => exact KeepsBut.store (by decide) (strikeFunction_keeps t k s)

theorem decodeChar_keepsStore (t : Fin 32) (c : Byte) (s : State) :
    KeepsStore s (decodeChar t c s) := by
  have hp : ∀ p, KeepsStore s (setPrefix t p s) := fun p =>
      (KeepsBut.store (by decide) (modLine_keeps _ _ _))
  unfold decodeChar
  refine .ite ?_ (.ite (hp _) ?_)
  · split
    · exact (hp _).trans (handKey_keepsStore _ _ _)
    · exact hp _
  · split
    · exact handKey_keepsStore _ _ _
    · exact .refl s

theorem takeCode_keepsStore (t : Fin 32) (c : Byte) (s : State) : KeepsStore s (takeCode t c s) :=
  .ite (.refl s) (.ite ((decodeChar_keepsStore _ _ _).trans
    (KeepsBut.store (by decide) (modLine_keeps _ _ _)))
    (.ite (decodeChar_keepsStore _ _ _) (KeepsBut.store (by decide) (arrive_keeps _ _ _))))

theorem takeFunction_keepsStore (t : Fin 32) (k : Fin 16) (s : State) :
    KeepsStore s (takeFunction t k s) :=
  .ite (.refl s) (.ite (takeCode_keepsStore _ _ _)
    (.ite ((takeCode_keepsStore _ _ _).trans (takeCode_keepsStore _ _ _))
      ((KeepsBut.store (by decide) (arrive_keeps _ _ _)).trans
        (KeepsBut.store (by decide) (arrive_keeps _ _ _)))))

/-! ### Terminals and windows -/

theorem reassignLayout_keepsStore (t : Fin 32) (a : Assignment) (s : State) :
    KeepsStore s (reassignLayout t a s) := by
  unfold reassignLayout
  exact .ite (.refl s) ((KeepsBut.store (by decide) (modLine_keeps _ _ _)).step
      (closePanes_keepsStore t s))

theorem reassignAuthority_keepsStore (t : Fin 32) (a : Assignment) (s : State) :
    KeepsStore s (reassignAuthority t a s) := by
  unfold reassignAuthority
  exact .ite (.refl s) ((recheck_keepsStore _ _ _).step
      (KeepsBut.store (by decide) (modLine_keeps _ _ _)))

theorem reassignWatch_keepsStore (t : Fin 32) (s : State) : KeepsStore s (reassignWatch t s) := by
  unfold reassignWatch
  exact .ite (KeepsBut.store (by decide) (setMode_keeps _ _ _)) (.refl s)

theorem reassign_keepsStore (t : Fin 32) (a : Assignment) (s : State) :
    KeepsStore s (reassign t a s) := by
  unfold reassign
  exact (reassignWatch_keepsStore _ _).step ((reassignAuthority_keepsStore _ _ _).step
    ((reassignLayout_keepsStore _ _ _).step
      (KeepsBut.store (by decide) (reassignLine_keeps _ _ _))))

theorem detach_keepsStore (t : Fin 32) (s : State) : KeepsStore s (detach t s) := by
  unfold detach
  refine (KeepsBut.store (by decide) (modLine_keeps _ _ _)).step ?_
  refine (KeepsBut.store (by decide) (emptyFifos_keeps _ _)).step ?_
  refine (KeepsBut.store (by decide) (setSlot_keeps _ _ _)).step ?_
  refine (KeepsBut.store (by decide) (modScreen_keeps _ _ _)).step ?_
  exact (KeepsBut.store (by decide) (endWatchers_keeps _ _)).step (closePanes_keepsStore t s)

theorem openEdit_keepsStore (t : Fin 32) (id off : Nat) (st : Story) (s : State) :
    KeepsStore s (openEdit t id off st s) :=
  (KeepsBut.store (by decide) (modPanes_keeps _ _ _)).step ((claim_keepsStore _ _ _).step
    (closeSession_keepsStore t true s))

theorem beginRotation_keepsStore (t : Fin 32) (bs : List (Fin 64)) (d : Nat) (k : Bool)
    (s : State) :
    KeepsStore s (beginRotation t bs d k s) :=
  (closePanes_keepsStore t s).trans (KeepsBut.store (by decide) (setMode_keeps _ _ _))

/-! ### Faces and fits -/

/-- A change of every entry that leaves its chain alone. -/
theorem mapVal_keepsStore {s t : State} (f : Story → Story) (hf : ∀ st, (f st).chain = st.chain)
    (hm : t.memory = s.memory) (hs : t.stories = Tab.mapVal f s.stories) : KeepsStore s t := by
  refine .of_chains hm (fun hw => hs ▸ Tab.wf_mapVal f _ hw) ?_
  funext x
  unfold chainOf storyOf
  rw [hs, Tab.get?_mapVal, Option.map_map]
  congr 1
  funext st; exact hf st

theorem outdateFace_chain (f : Fin 8) (st : Story) : (outdateFace f st).chain = st.chain := by
  unfold outdateFace
  split <;> rfl

theorem loadFace_keepsStore (f : Fin 8) (w : List Byte) (a b : Nat) (s : State) :
    KeepsStore s (loadFace f w a b s) := by
  unfold loadFace
  exact KeepsStore.step (.foldl _ (fun _ _ => autoOffer_keepsStore _ _) _ _)
    (mapVal_keepsStore (outdateFace f) (outdateFace_chain f) rfl rfl)

theorem leaveForFace_keepsStore (id : Nat) (s : State) : KeepsStore s (leaveForFace id s) := by
  have h : KeepsStore s (setFitStatus id .unknown (dropFromFitList id s)) :=
    (KeepsBut.store (by decide) (dropFromFitList_keeps _ _)).trans (setFitStatus_keepsStore _ _ _)
  exact .ite (.refl s) (.ite (h.trans (KeepsBut.store (by decide) (keeps_fit _ _))) h)

theorem changeSetting_keepsStore {id : Nat} {st : Story} (x : Setting) {s : State}
    (hst : storyOf s id = some st) : KeepsStore s (changeSetting id st x s) := by
  have h : KeepsStore s (setStory id { st with setting := x, fit := st.fit.outdate } s) :=
    setStory_keepsStore hst rfl
  exact .ite (h.trans (autoOffer_keepsStore _ _)) (h.trans (leaveForFace_keepsStore _ _))

theorem endFitGrant_keepsStore (p : FitProgress) (s : State) : KeepsStore s (endFitGrant p s) := by
  have hp : ∀ {u : State} q, KeepsStore s u → KeepsStore s (setProgress q u) := fun q h =>
    h.trans (KeepsBut.store (by decide) (setProgress_keeps _ q))
  have hd : KeepsStore s (dropFromFitList p.story s) := KeepsBut.store (by decide)
      (dropFromFitList_keeps _ _)
  unfold endFitGrant
  refine .ite (hp _ (.refl s)) ?_
  split
  · exact hp _ hd
  · refine .ite ?_ ?_
    · dsimp only; split
      · exact hp _ (.refl s)
      · exact hp _ ((KeepsBut.store (by decide) (dropFromFitList_keeps _ _)).step
          (modStory_keepsStore _ _ fun _ => rfl))
    · refine hp _ (.ite ?_ ?_)
      · exact KeepsStore.trans
          (KeepsBut.store (by decide) (keeps_fit s _)) (setFitStatus_keepsStore _ _ _)
      · exact hd.trans (setFitStatus_keepsStore _ _ _)

theorem fitGrantEnds_keepsStore (s : State) : KeepsStore s (fitGrantEnds s) := by
  unfold fitGrantEnds
  refine .ite ?_ (.refl s)
  split
  · exact KeepsBut.store (by decide) (freeEngine_keeps _)
  · exact (endFitGrant_keepsStore _ _).trans (KeepsBut.store (by decide) (freeEngine_keeps _))

/-! ### Channels -/

theorem reach_keepsStore (c : Fin 4) (n i : Nat) (s : State) : KeepsStore s (reach c n i s) := by
  induction n generalizing i s with
  | zero => exact KeepsBut.store (by decide) (modChannel_keeps _ _ _)
  | succ n ih =>
    unfold reach; split
    · exact KeepsBut.store (by decide) (modChannel_keeps _ _ _)
    · exact .ite (ih _ _) (.ite ((release_keepsStore _ _).trans
        ((KeepsBut.store (by decide) (modChannel_keeps _ _ _)).trans (ih _ _)))
          (KeepsBut.store (by decide) (modChannel_keeps _ _ _)))

theorem startHead_keepsStore (c : Fin 4) (n : Nat) (s : State) : KeepsStore s
    (startHead c n s) := by
  induction n generalizing s with
  | zero => exact .refl s
  | succ n ih =>
    unfold startHead; split
    · exact KeepsBut.store (by decide) (modChannel_keeps _ _ _)
    · have h :=
        (KeepsBut.store (by decide)
          (modChannel_keeps s c fun ch => { ch with state := .running })).trans
        (reach_keepsStore c reachFuel 0 _)
      exact .ite (h.trans ((KeepsBut.store (by decide) (recordHead_keeps _ _ _ _)).trans (ih _))) h

theorem endJob_keepsStore (o : JobOutcome) (a : AbandonMark) (c : Fin 4) (s : State) :
    KeepsStore s (endJob o a c s) :=
  (KeepsBut.store (by decide) (recordHead_keeps o a c s)).trans (startHead_keepsStore _ _ _)

theorem releaseSent_keepsStore (c : Fin 4) (id : Nat) (s : State) :
    KeepsStore s (releaseSent c id s) := by
  unfold releaseSent
  split
  · exact .refl s
  · next st hst =>
    have h : ∀ g, KeepsStore s
        (modChannel c g (release id { s with memory := clearFlags s.memory st.chain })) := fun g =>
      KeepsStore.trans
        (fun hs => memory_sound hs hst (clearFlags_chainStep hs.1 (hs.chain hst)))
        ((release_keepsStore _ _).trans (KeepsBut.store (by decide) (modChannel_keeps _ _ _)))
    exact .ite ((h _).trans (endJob_keepsStore _ _ _ _)) (h _)

theorem stall_keepsStore (c : Fin 4) (s : State) : KeepsStore s (stall c s) := by
  unfold stall; split
  · exact (KeepsBut.store (by decide) (modChannel_keeps _ _ _)).trans
      (KeepsBut.store (by decide) (raiseSource_keeps _ _))
  · exact (KeepsBut.store (by decide) (modChannel_keeps _ _ _)).trans (endJob_keepsStore _ _ _ _)
  · exact .refl s

theorem takeLines_keepsStore (c : Fin 4) (s : State) : KeepsStore s (takeLines c s) := by
  unfold takeLines; split
  · exact .refl s
  · split
    · exact .refl s
    · split
      · exact .refl s
      · dsimp only
        split
        · exact (KeepsBut.store (by decide) (modChannel_keeps _ _ _)).trans
            (KeepsBut.store (by decide) (modChannel_keeps _ _ _))
        · exact (KeepsBut.store (by decide) (modChannel_keeps _ _ _)).trans
            (reach_keepsStore _ _ _ _)

theorem acceptJob_keepsStore (c : Fin 4) (ed : Fin 5) (es : List Entry) (s : State) :
    KeepsStore s (acceptJob c ed es s) := by
  have h : ∀ g, KeepsStore s (modChannel c g
      (es.foldl (fun s e => claim e.story (.setting c) s) { s with lastJob := nextNumber s })) :=
    fun g => (KeepsBut.store (by decide) (keeps_lastJob s _)).trans
      ((KeepsStore.foldl _ (fun _ _ => claim_keepsStore _ _ _) _ _).trans
        (KeepsBut.store (by decide) (modChannel_keeps _ _ _)))
  exact .ite ((h _).trans (startHead_keepsStore _ _ _)) (h _)

theorem changeSettings_keepsStore (c : Fin 4) (r th w l : Nat) (s : State) :
    KeepsStore s (changeSettings c r th w l s) :=
  .ite ((KeepsBut.store (by decide) (modChannel_keeps _ _ _)).trans (stall_keepsStore _ _))
    (KeepsBut.store (by decide) (modChannel_keeps _ _ _))

theorem releaseJob_keepsStore (j : Job) (s : State) : KeepsStore s (releaseJob j s) :=
  .foldl _ (fun _ _ => release_keepsStore _ _) _ s

theorem cancelQueued_keepsStore (c : Fin 4) (j : Job) (s : State) :
    KeepsStore s (cancelQueued c j s) :=
  (releaseJob_keepsStore j s).trans ((KeepsBut.store (by decide) (modChannel_keeps _ _ _)).trans
    (KeepsBut.store (by decide) (raiseSource_keeps _ _)))

theorem channelGrantEnds_keepsStore (c : Fin 4) (s : State) :
    KeepsStore s (channelGrantEnds c s) :=
  .ite (KeepsStore.trans (.ite (takeLines_keepsStore _ _) (.refl s))
    ((KeepsBut.store (by decide) (modChannel_keeps _ _ _)).trans
      (KeepsBut.store (by decide) (freeEngine_keeps _)))) (.refl s)

theorem typesetterByteSent_keepsStore (c : Fin 4) (s : State) :
    KeepsStore s (typesetterByteSent c s) := by
  unfold typesetterByteSent; split
  · exact .refl s
  · exact KeepsBut.store (by decide) (modChannel_keeps _ _ _)
  · refine (KeepsBut.store (by decide) (modChannel_keeps s c Channel.byteSent)).trans ?_
    unfold byteEnds; split
    · exact .refl _
    · exact releaseSent_keepsStore _ _ _
    · exact endJob_keepsStore _ _ _ _

theorem channelStalls_keepsStore (c : Fin 4) (s : State) : KeepsStore s (channelStalls c s) := by
  unfold channelStalls; split
  · exact (KeepsBut.store (by decide) (advanceTo_keeps _ _)).trans (stall_keepsStore _ _)
  · exact .refl s

/-! ### Wires -/

theorem fileStory_keepsStore (w : Fin 4) (id : Nat) (cut : Bool) (i : Intake) (s : State) :
    KeepsStore s (fileStory w id cut i s) := by
  have h0 : KeepsStore s (if cut then modStory id (fun st => { st with cut := true }) s else s) :=
    .ite (modStory_keepsStore _ _ fun _ => rfl) (.refl s)
  have h1 : ∀ g, KeepsStore s (autoOffer id (raiseWire w g (release id
      (if cut then modStory id (fun st => { st with cut := true }) s else s)))) := fun g =>
    h0.trans ((release_keepsStore _ _).trans ((KeepsBut.store (by decide)
      (raiseWire_keeps _ _ _)).trans
      (autoOffer_keepsStore _ _)))
  unfold fileStory
  refine KeepsStore.trans ?_ (KeepsBut.store (by decide) (setIntake_keeps _ _ _))
  split
  · exact h1 _
  · exact (h1 _).trans (KeepsBut.store (by decide) (flashAlerts_keeps _ _))

theorem storeLow_keepsStore (w : Fin 4) (id : Nat) (s : State) : KeepsStore s (storeLow w id s) :=
  (fileStory_keepsStore _ _ _ _ _).step (KeepsBut.store (by decide) (poolPressed_keeps _ _))

theorem storeChar_keepsStore (w : Fin 4) (id : Nat) (c : Byte) (s : State) :
    KeepsStore s (storeChar w id c s) := by
  unfold storeChar; split
  · exact .refl s
  · next st hst =>
    refine .ite (fileStory_keepsStore _ _ _ _ _) (.ite (storeLow_keepsStore _ _ _) ?_)
    split
    · next m chain hm =>
      exact KeepsStore.trans
        (fun hs => setText_sound hs hst (insertChar_chainStep hs.1 (hs.chain hst) hm))
        ((textChanged_keepsStore _ _).trans (KeepsBut.store (by decide) (keepRefTops_keeps _ _ _)))
    · exact fileStory_keepsStore _ _ _ _ _
    · exact storeLow_keepsStore _ _ _

theorem garble_keepsStore (id : Nat) (s : State) : KeepsStore s (garble id s) :=
  modStory_keepsStore id s fun _ => rfl

theorem storeDamaged_keepsStore (w : Fin 4) (id : Nat) (s : State) :
    KeepsStore s (storeDamaged w id s) :=
  (storeChar_keepsStore _ _ _ _).step ((garble_keepsStore _ _).step
    (KeepsBut.store (by decide) (raiseWire_keeps _ _ _)))

theorem takeText_keepsStore (w : Fin 4) (id : Nat) (c : Byte) (s : State) :
    KeepsStore s (takeText w id c s) :=
  .ite (storeChar_keepsStore _ _ _ _) (.ite (fileStory_keepsStore _ _ _ _ _)
    (.ite (fileStory_keepsStore _ _ _ _ _) (.refl s)))

theorem headingDone_keepsStore (w : Fin 4) (got : List Byte) (s : State) :
    KeepsStore s (headingDone w got s) := by
  have hi : ∀ i, KeepsStore s (setIntake w i s) := fun i =>
      (KeepsBut.store (by decide) (setIntake_keeps _ _ _))
  unfold headingDone; split
  · exact hi _
  · split
    · exact hi _
    · split
      · exact (hi _).trans (KeepsBut.store (by decide) (raiseWire_keeps _ _ _))
      · next hid =>
        exact (createStory_keepsStore hid rfl).trans
            (KeepsBut.store (by decide) (setIntake_keeps _ _ _))

theorem takeHeading_keepsStore (w : Fin 4) (got : List Byte) (c : Byte) (s : State) :
    KeepsStore s (takeHeading w got c s) :=
  .ite (KeepsBut.store (by decide) (modWire_keeps _ _ _)) (.ite (headingDone_keepsStore _ _ _)
    (.ite (KeepsBut.store (by decide) (modWire_keeps _ _ _))
      ((KeepsBut.store (by decide) (setIntake_keeps _ _ _)).trans
        (KeepsBut.store (by decide) (raiseWire_keeps _ _ _)))))

theorem intakeChar_keepsStore (w : Fin 4) (c : WireChar) (s : State) :
    KeepsStore s (intakeChar w c s) := by
  have hi : ∀ i, KeepsStore s (setIntake w i s) := fun i =>
      (KeepsBut.store (by decide) (setIntake_keeps _ _ _))
  unfold intakeChar; split
  · exact .refl s
  · exact .ite (hi _) (.refl s)
  · exact .ite (hi _) (.refl s)
  · exact .ite ((hi _).trans
      (KeepsBut.store (by decide) (raiseWire_keeps _ _ _))) (takeHeading_keepsStore _ _ _ _)
  · exact .ite (storeDamaged_keepsStore _ _ _) (takeText_keepsStore _ _ _ _)

theorem intakeLoss_keepsStore (w : Fin 4) (s : State) : KeepsStore s (intakeLoss w s) := by
  unfold intakeLoss; split
  · exact KeepsBut.store (by decide) (setIntake_keeps _ _ _)
  · exact garble_keepsStore _ _
  · exact .refl s

theorem intakeBreak_keepsStore (w : Fin 4) (s : State) : KeepsStore s (intakeBreak w s) := by
  unfold intakeBreak; split
  · exact .refl s
  · exact .refl s
  · exact KeepsBut.store (by decide) (setIntake_keeps _ _ _)
  · exact KeepsBut.store (by decide) (setIntake_keeps _ _ _)
  · exact fileStory_keepsStore _ _ _ _ _

theorem takeIntake_keepsStore (w : Fin 4) (s : State) : KeepsStore s (takeIntake w s) := by
  unfold takeIntake; split
  · exact .refl s
  · next c cs _ =>
    have h1 := (KeepsBut.store (by decide) (modWire_keeps s w fun l => { l with fifo := cs })).trans
      (intakeChar_keepsStore w c _)
    have h2 := KeepsStore.ite (c := c.loss = true) (h1.trans (intakeLoss_keepsStore w _)) h1
    exact .ite (h2.trans (intakeBreak_keepsStore _ _)) h2

theorem wireBreak_keepsStore (w : Fin 4) (s : State) : KeepsStore s (wireBreak w s) :=
  .ite (intakeBreak_keepsStore _ _) (.ite (.refl s)
    (KeepsBut.store (by decide) (modWire_keeps _ _ _)))

theorem silenceExpires_keepsStore (w : Fin 4) (s : State) : KeepsStore s (silenceExpires w s) := by
  unfold silenceExpires
  refine .ite ?_ (.refl s)
  dsimp only
  split
  · exact (fileStory_keepsStore _ _ _ _ _).step (KeepsBut.store (by decide) (advanceTo_keeps _ _))
  · exact (KeepsBut.store (by decide) (setIntake_keeps _ _ _)).step
      (KeepsBut.store (by decide) (advanceTo_keeps _ _))

theorem changeWire_keepsStore (w : Fin 4) (on : Bool) (f : LineFormat) (s : State) :
    KeepsStore s (changeWire w on f s) := by
  unfold changeWire
  refine KeepsStore.trans ?_ (KeepsBut.store (by decide) (modWire_keeps _ _ _))
  split
  · exact fileStory_keepsStore _ _ _ _ _
  · exact .refl s

/-! ### Starts -/

theorem start_sound (cause : StartCause) (tag : Byte) (ready : Fin 4 → Bool)
    (sending : Fin 4 → OutTx) (now : Nat) (pending : List Instr) :
    StoreSound (State.start cause tag ready sending now pending) := by
  have hm : (State.start cause tag ready sending now pending).memory = [] := rfl
  have hs : (State.start cause tag ready sending now pending).stories = [] := rfl
  unfold StoreSound chainBlocks
  rw [hm, hs]
  simp [Memory.wf, Tab.wf]

theorem startAs_keepsStore (c : StartCause) (tag : Byte) (s : State) :
    KeepsStore s (startAs c tag s) := by
  cases c with
  | warm => exact mapVal_keepsStore warmStory (fun _ => rfl) rfl rfl
  | cold => exact fun _ => start_sound _ _ _ _ _ _
  | powerOn => exact fun _ => start_sound _ _ _ _ _ _

end Sys2Proof.Machine
end

section
/-! SUPPORT. Every command and every step keeps the store sound (R1, R3). -/

namespace Sys2Proof.Machine

/-! ### What an owner's answer leaves -/

/-- An owner's answer leaves a sound store where it found one. -/
def AnswerKeeps (s : State) (a : Answer) : Prop := KeepsStore s a.1

theorem AnswerKeeps.unchanged (s : State) (r : Reply) : AnswerKeeps s (s, r) := KeepsStore.refl s

theorem AnswerKeeps.of {s t : State} {r : Reply} (h : KeepsStore s t) : AnswerKeeps s (t, r) := h

theorem AnswerKeeps.refuse (r : ResultCode) (s : State) : AnswerKeeps s
    (refuse r s) := .unchanged s _

theorem AnswerKeeps.ite {c : Prop} [Decidable c] {s : State} {a b : Answer} (ha : AnswerKeeps s a)
    (hb : AnswerKeeps s b) : AnswerKeeps s (if c then a else b) := by
  split
  · exact ha
  · exact hb

theorem withStory_answerKeeps {id : Nat} {s : State} {k : Story → Answer}
    (h : ∀ st, storyOf s id = some st → AnswerKeeps s (k st)) : AnswerKeeps s
      (withStory id s k) := by
  unfold withStory
  refine .ite (.refuse _ s) ?_
  split
  · exact .refuse _ s
  · next st hst => exact h st hst

theorem withText_answerKeeps {b : List Byte} {i n : Nat} {s : State} {k : List Byte → Answer}
    (h : ∀ text, AnswerKeeps s (k text)) : AnswerKeeps s (withText b i n s k) := by
  unfold withText
  split
  · exact .refuse _ s
  · exact h _

theorem withActing_answerKeeps {b : List Byte} {i : Nat} {s : State} {k : Option (Fin 32) → Answer}
    (h : ∀ t, AnswerKeeps s (k t)) : AnswerKeeps s (withActing b i s k) := by
  unfold withActing
  split
  · exact h _
  · split
    · exact .refuse _ s
    · exact .ite (h _) (.refuse _ s)

theorem withTerminal_answerKeeps {b : List Byte} {i : Nat} {s : State} {k : Fin 32 → Answer}
    (h : ∀ t, AnswerKeeps s (k t)) : AnswerKeeps s (withTerminal b i s k) := by
  unfold withTerminal
  split
  · exact .refuse _ s
  · exact h _

theorem withChannel_answerKeeps {b : List Byte} {s : State} {k : Fin 4 → Answer}
    (h : ∀ c, AnswerKeeps s (k c)) : AnswerKeeps s (withChannel b s k) := by
  unfold withChannel
  split
  · exact .refuse _ s
  · exact h _

/-! ### The owners (spec/01 to spec/10) -/

section
variable (b : List Byte) (s : State)

theorem ownCreateStory_keepsStore : AnswerKeeps s (ownCreateStory b s) := by
  refine withText_answerKeeps fun slug => .ite (.refuse _ s) ?_
  split
  · split
    · exact .refuse _ s
    · next hid => exact createStory_keepsStore hid rfl
  · exact .refuse _ s

theorem ownReadStory_keepsStore : AnswerKeeps s (ownReadStory b s) :=
  withStory_answerKeeps fun _ _ => .unchanged s _

theorem ownSetFlags_keepsStore : AnswerKeeps s (ownSetFlags b s) :=
  withStory_answerKeeps fun _ hst => setStory_keepsStore hst rfl

theorem ownWriteText_keepsStore : AnswerKeeps s (ownWriteText b s) :=
  withText_answerKeeps fun _ => withStory_answerKeeps fun _ _ => .ite (.refuse _ s)
    (.ite (.unchanged s _) (.ite (.refuse _ s) (.ite (.refuse _ s)
      (writeText_keepsStore _ _ _ _ s))))

theorem ownReadText_keepsStore : AnswerKeeps s (ownReadText b s) :=
  withStory_answerKeeps fun _ _ => .unchanged s _

theorem ownSpikeStory_keepsStore : AnswerKeeps s (ownSpikeStory b s) :=
  withStory_answerKeeps fun _ hst => .ite (.unchanged s _) (.ite (.refuse _ s) (.of
    (spike_keepsStore hst)))

theorem ownClearMarks_keepsStore : AnswerKeeps s (ownClearMarks b s) :=
  withStory_answerKeeps fun _ hst => .ite (.unchanged s _) (.ite (.refuse _ s) fun hs =>
    memory_sound hs hst (clearFlags_chainStep hs.1 (hs.chain hst)))

theorem ownSetDesk_keepsStore : AnswerKeeps s (ownSetDesk b s) := by
  unfold ownSetDesk
  split
  · exact .refuse _ s
  · dsimp only
    split
    · exact .refuse _ s
    · exact .of ((recheckWhere_keepsStore _ _ _).step
        (KeepsBut.store (by decide) (keeps_desks s _)))

theorem ownReadDesk_keepsStore : AnswerKeeps s (ownReadDesk b s) := by
  unfold ownReadDesk
  split
  · exact .refuse _ s
  · exact .unchanged s _

theorem ownSetBasket_keepsStore : AnswerKeeps s (ownSetBasket b s) := by
  refine withText_answerKeeps fun _ => ?_
  split
  · exact KeepsBut.store (by decide) (modBasket_keeps _ _ _)
  · exact .refuse _ s

theorem ownListBasket_keepsStore : AnswerKeeps s (ownListBasket b s) := by
  unfold ownListBasket
  split
  · exact .refuse _ s
  · exact .unchanged s _

theorem ownMoveStory_keepsStore : AnswerKeeps s (ownMoveStory b s) := by
  unfold ownMoveStory
  dsimp only
  split
  · refine withStory_answerKeeps fun st _ => withActing_answerKeeps fun acting =>
      .ite (.unchanged s _) (.ite (.refuse _ s) ?_)
    split
    · exact .of (moveTo_keepsStore _ _ _ _)
    · exact .ite (.of ((moveTo_keepsStore _ _ _ _).step (closeSession_keepsStore _ _ _)))
        (.unchanged s _)
    · exact .unchanged s _
    · exact .unchanged s _
  · exact .refuse _ s

theorem ownSetStoryKey_keepsStore : AnswerKeeps s (ownSetStoryKey b s) := by
  unfold ownSetStoryKey
  dsimp only
  split
  · exact withStory_answerKeeps fun _ hst => .ite (.unchanged s _)
      (.of ((recheckWhere_keepsStore _ _ _).step (setStory_keepsStore hst rfl)))
  · split
    · exact .refuse _ s
    · exact .unchanged s _

theorem ownSendMessage_keepsStore : AnswerKeeps s (ownSendMessage b s) := by
  refine withText_answerKeeps fun text => .ite (.refuse _ s) ?_
  split
  · exact .refuse _ s
  · refine .ite ?_ (.ite ?_ (.refuse _ s))
    · split
      · exact .refuse _ s
      · exact .ite (.refuse _ s) (.ite (.refuse _ s)
          (KeepsBut.store (by decide) (setSlot_keeps _ _ _)))
    · split
      · exact .refuse _ s
      · exact .of (KeepsBut.store (by decide) (deliver_keeps s _ _))

theorem ownSetClock_keepsStore : AnswerKeeps s (ownSetClock b s) :=
  .ite (.refuse _ s) ((KeepsBut.store (by decide) (passageTests_keeps _)).step
    (KeepsBut.store (by decide) (keeps_clock s _)))

theorem ownStartClock_keepsStore : AnswerKeeps s (ownStartClock b s) := by
  unfold ownStartClock
  split
  · exact .unchanged s _
  · exact .unchanged s _
  · exact KeepsBut.store (by decide) (keeps_clock s _)

theorem ownSetDeadline_keepsStore : AnswerKeeps s (ownSetDeadline b s) := by
  unfold ownSetDeadline
  split
  · exact .refuse _ s
  · exact .ite (.refuse _ s) (.ite (KeepsBut.store (by decide) (modEdition_keeps _ _ _))
      ((KeepsBut.store (by decide) (passageTest_keeps _ _)).step
        (KeepsBut.store (by decide) (modEdition_keeps _ _ _))))

theorem ownRearm_keepsStore : AnswerKeeps s (ownRearm b s) := by
  unfold ownRearm
  split
  · exact .refuse _ s
  · split
    · exact .unchanged s _
    · exact .unchanged s _
    · exact KeepsStore.ite (KeepsBut.store (by decide) (modEdition_keeps _ _ _)) (.refl s)

theorem ownClearDeadline_keepsStore : AnswerKeeps s (ownClearDeadline b s) := by
  unfold ownClearDeadline
  split
  · exact .refuse _ s
  · exact KeepsBut.store (by decide) (modEdition_keeps _ _ _)

theorem ownAssignTerminal_keepsStore : AnswerKeeps s (ownAssignTerminal b s) := by
  unfold ownAssignTerminal
  split
  · exact .ite (.of (reassign_keepsStore _ _ _)) (.of
      (KeepsBut.store (by decide) (attach_keeps _ _ _)))
  · exact .refuse _ s

theorem ownDetachTerminal_keepsStore : AnswerKeeps s (ownDetachTerminal b s) :=
  withTerminal_answerKeeps fun _ => .ite (detach_keepsStore _ _) (.refuse _ s)

theorem ownReadTerminal_keepsStore : AnswerKeeps s (ownReadTerminal b s) :=
  withTerminal_answerKeeps fun _ => .unchanged s _

theorem ownTakeKeys_keepsStore : AnswerKeeps s (ownTakeKeys b s) :=
  KeepsStore.ite (KeepsBut.store (by decide) (removeKeys_keeps _ _)) (.refl s)

theorem ownPutScreenText_keepsStore : AnswerKeeps s (ownPutScreenText b s) := by
  refine withText_answerKeeps fun _ => ?_
  split
  · exact KeepsBut.store (by decide) (modScreen_keeps _ _ _)
  · exact .refuse _ s

theorem ownFillBase_keepsStore : AnswerKeeps s (ownFillBase b s) := by
  unfold ownFillBase
  dsimp only
  split
  · exact KeepsBut.store (by decide) (modScreen_keeps _ _ _)
  · exact .refuse _ s

theorem ownSetStatus_keepsStore : AnswerKeeps s (ownSetStatus b s) :=
  withText_answerKeeps fun _ => withTerminal_answerKeeps fun _ =>
    (KeepsBut.store (by decide) (modScreen_keeps _ _ _))

theorem ownRepaint_keepsStore : AnswerKeeps s (ownRepaint b s) :=
  withTerminal_answerKeeps fun _ => .ite
    (KeepsBut.store (by decide) (repaint_keeps _ _)) (.refuse _ s)

theorem ownSetWatch_keepsStore : AnswerKeeps s (ownSetWatch b s) := by
  refine withTerminal_answerKeeps fun w => ?_
  split
  · exact KeepsStore.ite (KeepsBut.store (by decide) (setMode_keeps _ _ _)) (.refl s)
  · split
    · exact .refuse _ s
    · exact .ite (.refuse _ s) (.ite (.refuse _ s) (.ite (.refuse _ s) (.ite (.refuse _ s)
        (.ite (.refuse _ s) (.ite (.refuse _ s)
          (KeepsBut.store (by decide) (setMode_keeps _ _ _)))))))

theorem ownSetRotation_keepsStore : AnswerKeeps s (ownSetRotation b s) := by
  refine withTerminal_answerKeeps fun t => .ite (.refuse _ s) ?_
  dsimp only
  refine .ite (.refuse _ s) ?_
  split
  · exact .refuse _ s
  · split
    · exact .refuse _ s
    · exact KeepsStore.ite
        (KeepsBut.store (by decide) (endRotation_keeps _ _)) (beginRotation_keepsStore _ _ _ _ _)

theorem ownReadSession_keepsStore : AnswerKeeps s (ownReadSession b s) :=
  withTerminal_answerKeeps fun _ => .unchanged s _

theorem ownOpenWindow_keepsStore : AnswerKeeps s (ownOpenWindow b s) := by
  unfold ownOpenWindow
  split
  · exact withStory_answerKeeps fun st _ => .ite (.refuse _ s) (.ite (.refuse _ s)
      (.ite (.refuse _ s) (.ite
        (.ite (.refuse _ s) (.ite (.unchanged s _) (openEdit_keepsStore _ _ _ _ _)))
        (.ite (.refuse _ s) (KeepsBut.store (by decide) (openRef_keeps _ _ _ _ _))))))
  · exact .refuse _ s

theorem ownCloseWindow_keepsStore : AnswerKeeps s (ownCloseWindow b s) := by
  unfold ownCloseWindow
  split
  · split
    · exact closeSession_keepsStore _ _ _
    · exact .refuse _ s
  · split
    · exact KeepsBut.store (by decide) (clearRef_keeps _ _)
    · exact .refuse _ s
  · exact .refuse _ s

theorem ownSetWidths_keepsStore : AnswerKeeps s (ownSetWidths b s) := by
  unfold ownSetWidths
  split
  · exact .refuse _ s
  · refine .ite (.refuse _ s) ?_
    split
    · exact .unchanged s _
    · exact loadFace_keepsStore _ _ _ _ _

theorem ownReadWidths_keepsStore : AnswerKeeps s (ownReadWidths b s) := by
  unfold ownReadWidths
  split
  · exact .refuse _ s
  · exact .unchanged s _

theorem ownSetSetting_keepsStore : AnswerKeeps s (ownSetSetting b s) := by
  unfold ownSetSetting
  dsimp only
  split
  · exact .refuse _ s
  · refine withStory_answerKeeps fun st hst => ?_
    split
    · exact .unchanged s _
    · exact KeepsStore.ite (.refl s) (changeSetting_keepsStore _ hst)

theorem ownFitStory_keepsStore : AnswerKeeps s (ownFitStory b s) :=
  withStory_answerKeeps fun _ _ => .ite (.refuse _ s) (.ite (.unchanged s _)
    (.ite (.refuse _ s) (joinFitQueue_keepsStore _ _)))

theorem ownQueueJob_keepsStore : AnswerKeeps s (ownQueueJob b s) := by
  refine .ite (.refuse _ s) ?_
  split
  · unfold queueJob
    split
    · exact .unchanged s _
    · refine .ite (.refuse _ s) ?_
      split
      · exact .unchanged s _
      · exact acceptJob_keepsStore _ _ _ _
  · exact .refuse _ s

theorem ownSetArbitration_keepsStore : AnswerKeeps s (ownSetArbitration b s) := by
  unfold ownSetArbitration
  split
  · exact .refuse _ s
  · exact KeepsBut.store (by decide) (keeps_engine s _)

theorem ownSetChannel_keepsStore : AnswerKeeps s (ownSetChannel b s) :=
  withChannel_answerKeeps fun _ => changeSettings_keepsStore _ _ _ _ _ _

theorem ownResume_keepsStore : AnswerKeeps s (ownResume b s) := by
  refine withChannel_answerKeeps fun c => ?_
  split
  · exact KeepsBut.store (by decide) (modChannel_keeps _ _ _)
  · exact .unchanged s _
  · exact .unchanged s _
  · exact .unchanged s _

theorem ownFlushChannel_keepsStore : AnswerKeeps s (ownFlushChannel b s) := by
  refine withChannel_answerKeeps fun c => ?_
  split
  · exact .unchanged s _
  · exact .unchanged s _
  · exact .unchanged s _
  · exact KeepsBut.store (by decide) (modChannel_keeps _ _ _)

theorem ownCancelJob_keepsStore : AnswerKeeps s (ownCancelJob b s) := by
  refine withChannel_answerKeeps fun c => .ite (.refuse _ s) ?_
  split
  · exact .refuse _ s
  · refine .ite ?_ ?_
    · exact .ite (.refuse _ s) ((KeepsBut.store (by decide) (modChannel_keeps _ _ _)).step
        (releaseJob_keepsStore _ _))
    · split
      · exact .refuse _ s
      · exact cancelQueued_keepsStore _ _ _

theorem ownReadChannel_keepsStore : AnswerKeeps s (ownReadChannel b s) :=
  withChannel_answerKeeps fun _ => .unchanged s _

theorem ownSetWireLine_keepsStore : AnswerKeeps s (ownSetWireLine b s) := by
  unfold ownSetWireLine
  split
  · exact .refuse _ s
  · exact KeepsStore.ite (.refl s) (changeWire_keepsStore _ _ _ _)

theorem ownReadWireLine_keepsStore : AnswerKeeps s (ownReadWireLine b s) := by
  unfold ownReadWireLine
  split
  · exact .refuse _ s
  · exact .unchanged s _

theorem ownSetSelection_keepsStore : AnswerKeeps s (ownSetSelection b s) := by
  unfold ownSetSelection
  split
  · exact KeepsBut.store (by decide) (keeps_selection s _)
  · exact .refuse _ s

theorem ownSetWireReserve_keepsStore : AnswerKeeps s (ownSetWireReserve b s) :=
  (KeepsBut.store (by decide) (keeps_reserve s _))

theorem ownSetLinkWatch_keepsStore : AnswerKeeps s (ownSetLinkWatch b s) := by
  unfold ownSetLinkWatch
  split
  · exact .unchanged s _
  · exact KeepsBut.store (by decide) (keeps_link s _)

end

/-! ### Orders and the end of an event -/

theorem settle_keepsStore {s t : State} (h : KeepsStore s t) : KeepsStore s (settle t) :=
  (KeepsBut.store (by decide) (settle_keeps t)).step h

theorem withOrder_keepsStore (f : Frame) (act : State → State) (s : State)
    (h : KeepsStore s (act s)) : KeepsStore s (withOrder f act s) :=
  .ite h (.ite (.refl s) (KeepsBut.store (by decide) (offerFrame_keeps f s)))

theorem answer_keepsStore {kind tag : Byte} {s : State} {a : Answer}
    (h : AnswerKeeps (dropHead s) a) : KeepsStore s (answer kind tag a) :=
  (KeepsBut.store (by decide) (keeps_link a.1 _)).step (KeepsStore.step h
    (KeepsBut.store (by decide) (dropHead_keeps s)))

theorem takeOrder_keepsStore {kind tag : Byte} {need : Nat} {body : List Byte} {s : State}
    {own : List Byte → State → Answer} (h : ∀ b s, AnswerKeeps s (own b s)) :
    KeepsStore s (takeOrder kind need own tag body s) :=
  settle_keepsStore (withOrder_keepsStore _ _ s
    (answer_keepsStore (.ite (.refuse _ _) (h _ _))))

theorem takeRestart_keepsStore (f : Frame) (s : State) : KeepsStore s (takeRestart f s) :=
  (KeepsBut.store (by decide) (takeRestart_keeps f s))

/-! ### Commands and steps -/

/-- A command that answers a next state answers the one given. -/
theorem next_keepsStore {s u t : State} (h : Host.Outcome.next u =
    (.next t : Host.Outcome State Fault Refusal))
    (k : KeepsStore s u) : KeepsStore s t := by
  cases h; exact k

theorem event_keepsStore {s u t : State}
    (h : Host.Outcome.next (settle u) = (.next t : Host.Outcome State Fault Refusal))
    (k : KeepsStore s u) : KeepsStore s t := next_keepsStore h (settle_keepsStore k)

theorem exec_keepsStore (i : Instr) (s t : State) (h : exec i s = .next t) : KeepsStore s t := by
  cases i with
  | powerOn => exact event_keepsStore h fun _ => start_sound _ _ _ _ _ _
  | restartMade =>
    refine event_keepsStore h ?_
    split
    · exact .refl s
    · exact startAs_keepsStore _ _ _
  | frameReceived bytes =>
    exact event_keepsStore h (KeepsBut.store (by decide) (receiveBytes_keeps _ _))
  | gapTimerExpiry bytes =>
    exact event_keepsStore h ((KeepsBut.store (by decide) (gapExpires_keeps _)).step
        (KeepsBut.store (by decide) (receiveBytes_keeps _ _)))
  | hostLost => exact event_keepsStore h (KeepsBut.store (by decide) (hostIsLost_keeps s))
  | transmitFrameEnd => exact event_keepsStore h (KeepsBut.store (by decide) (frameSent_keeps s))
  | unassignedKind kind tag body =>
    change (if kindAssigned kind then _ else _) = _ at h
    split at h
    · cases h
    · exact event_keepsStore h (withOrder_keepsStore _ _ s (answer_keepsStore (.refuse _ _)))
  | createStory => exact next_keepsStore h (takeOrder_keepsStore ownCreateStory_keepsStore)
  | readStory => exact next_keepsStore h (takeOrder_keepsStore ownReadStory_keepsStore)
  | setFlags => exact next_keepsStore h (takeOrder_keepsStore ownSetFlags_keepsStore)
  | writeText => exact next_keepsStore h (takeOrder_keepsStore ownWriteText_keepsStore)
  | readText => exact next_keepsStore h (takeOrder_keepsStore ownReadText_keepsStore)
  | spikeStory => exact next_keepsStore h (takeOrder_keepsStore ownSpikeStory_keepsStore)
  | clearMarks => exact next_keepsStore h (takeOrder_keepsStore ownClearMarks_keepsStore)
  | setDesk => exact next_keepsStore h (takeOrder_keepsStore ownSetDesk_keepsStore)
  | readDesk => exact next_keepsStore h (takeOrder_keepsStore ownReadDesk_keepsStore)
  | setBasket => exact next_keepsStore h (takeOrder_keepsStore ownSetBasket_keepsStore)
  | listBasket => exact next_keepsStore h (takeOrder_keepsStore ownListBasket_keepsStore)
  | moveStory => exact next_keepsStore h (takeOrder_keepsStore ownMoveStory_keepsStore)
  | setStoryKey => exact next_keepsStore h (takeOrder_keepsStore ownSetStoryKey_keepsStore)
  | sendMessage => exact next_keepsStore h (takeOrder_keepsStore ownSendMessage_keepsStore)
  | setClock => exact next_keepsStore h (takeOrder_keepsStore ownSetClock_keepsStore)
  | startClock => exact next_keepsStore h (takeOrder_keepsStore ownStartClock_keepsStore)
  | readClock => exact next_keepsStore h (takeOrder_keepsStore fun _ s => .unchanged s _)
  | setDeadline => exact next_keepsStore h (takeOrder_keepsStore ownSetDeadline_keepsStore)
  | rearm => exact next_keepsStore h (takeOrder_keepsStore ownRearm_keepsStore)
  | clearDeadline => exact next_keepsStore h (takeOrder_keepsStore ownClearDeadline_keepsStore)
  | assignTerminal => exact next_keepsStore h (takeOrder_keepsStore ownAssignTerminal_keepsStore)
  | detachTerminal => exact next_keepsStore h (takeOrder_keepsStore ownDetachTerminal_keepsStore)
  | readTerminal => exact next_keepsStore h (takeOrder_keepsStore ownReadTerminal_keepsStore)
  | takeKeys => exact next_keepsStore h (takeOrder_keepsStore ownTakeKeys_keepsStore)
  | putScreenText => exact next_keepsStore h (takeOrder_keepsStore ownPutScreenText_keepsStore)
  | fillBase => exact next_keepsStore h (takeOrder_keepsStore ownFillBase_keepsStore)
  | setStatus => exact next_keepsStore h (takeOrder_keepsStore ownSetStatus_keepsStore)
  | repaint => exact next_keepsStore h (takeOrder_keepsStore ownRepaint_keepsStore)
  | setWatch => exact next_keepsStore h (takeOrder_keepsStore ownSetWatch_keepsStore)
  | setRotation => exact next_keepsStore h (takeOrder_keepsStore ownSetRotation_keepsStore)
  | readSession => exact next_keepsStore h (takeOrder_keepsStore ownReadSession_keepsStore)
  | openWindow => exact next_keepsStore h (takeOrder_keepsStore ownOpenWindow_keepsStore)
  | closeWindow => exact next_keepsStore h (takeOrder_keepsStore ownCloseWindow_keepsStore)
  | setWidths => exact next_keepsStore h (takeOrder_keepsStore ownSetWidths_keepsStore)
  | readWidths => exact next_keepsStore h (takeOrder_keepsStore ownReadWidths_keepsStore)
  | setSetting => exact next_keepsStore h (takeOrder_keepsStore ownSetSetting_keepsStore)
  | fitStory => exact next_keepsStore h (takeOrder_keepsStore ownFitStory_keepsStore)
  | readFitQueue => exact next_keepsStore h (takeOrder_keepsStore fun _ s => .unchanged s _)
  | queueJob => exact next_keepsStore h (takeOrder_keepsStore ownQueueJob_keepsStore)
  | setArbitration => exact next_keepsStore h (takeOrder_keepsStore ownSetArbitration_keepsStore)
  | setChannel => exact next_keepsStore h (takeOrder_keepsStore ownSetChannel_keepsStore)
  | resume => exact next_keepsStore h (takeOrder_keepsStore ownResume_keepsStore)
  | flushChannel => exact next_keepsStore h (takeOrder_keepsStore ownFlushChannel_keepsStore)
  | cancelJob => exact next_keepsStore h (takeOrder_keepsStore ownCancelJob_keepsStore)
  | readChannel => exact next_keepsStore h (takeOrder_keepsStore ownReadChannel_keepsStore)
  | setWireLine => exact next_keepsStore h (takeOrder_keepsStore ownSetWireLine_keepsStore)
  | readWireLine => exact next_keepsStore h (takeOrder_keepsStore ownReadWireLine_keepsStore)
  | setSelection => exact next_keepsStore h (takeOrder_keepsStore ownSetSelection_keepsStore)
  | readSelection => exact next_keepsStore h (takeOrder_keepsStore fun _ s => .unchanged s _)
  | setWireReserve => exact next_keepsStore h (takeOrder_keepsStore ownSetWireReserve_keepsStore)
  | setLinkWatch => exact next_keepsStore h (takeOrder_keepsStore ownSetLinkWatch_keepsStore)
  | queryPart => exact next_keepsStore h (takeOrder_keepsStore fun _ s => .unchanged s _)
  | restart tag body =>
    exact event_keepsStore h (withOrder_keepsStore _ _ s (takeRestart_keepsStore _ s))
  | clockTick =>
    exact event_keepsStore h (.ite (KeepsBut.store (by decide) (tick_keeps s)) (.refl s))
  | terminalCharacterReceived t r =>
    exact event_keepsStore h (KeepsBut.store (by decide) (receiveFrame_keeps t r s))
  | terminalIdleExpiry t =>
    exact event_keepsStore h (.ite (KeepsBut.store (by decide) (modLine_keeps _ _ _)) (.refl s))
  | terminalBreak t =>
    exact event_keepsStore h (.ite ((KeepsBut.store (by decide) (repaint_keeps _ _)).step
      ((KeepsBut.store (by decide) (raiseTerminal_keeps _ _ _)).step
        (KeepsBut.store (by decide) (modLine_keeps _ _ _)))) (.refl s))
  | textKey t c => exact event_keepsStore h (takeCode_keepsStore t _ s)
  | newParagraph t => exact event_keepsStore h (takeCode_keepsStore t _ s)
  | deleteBack t => exact event_keepsStore h (takeCode_keepsStore t _ s)
  | deleteForward t => exact event_keepsStore h (takeCode_keepsStore t _ s)
  | insertOvertypeToggle t => exact event_keepsStore h (takeCode_keepsStore t _ s)
  | cursorLeft t => exact event_keepsStore h (takeCode_keepsStore t _ s)
  | cursorRight t => exact event_keepsStore h (takeCode_keepsStore t _ s)
  | cursorUp t => exact event_keepsStore h (takeCode_keepsStore t _ s)
  | cursorDown t => exact event_keepsStore h (takeCode_keepsStore t _ s)
  | paneSwitch t => exact event_keepsStore h (takeCode_keepsStore t _ s)
  | clearMessage t => exact event_keepsStore h (takeCode_keepsStore t _ s)
  | repaintKey t => exact event_keepsStore h (takeCode_keepsStore t _ s)
  | functionKeyPrefix t => exact event_keepsStore h (takeCode_keepsStore t _ s)
  | functionKey t k => exact event_keepsStore h (takeFunction_keepsStore t k s)
  | ignoredCode t c => exact event_keepsStore h (.ite (takeCode_keepsStore t c s) (.refl s))
  | terminalByteSent t =>
    exact event_keepsStore h (KeepsBut.store (by decide) (terminalByteSent_keeps t s))
  | flashAlertExpiry t =>
    exact event_keepsStore h (KeepsBut.store (by decide) (flashExpires_keeps t s))
  | rotationDwellExpiry t =>
    exact event_keepsStore h (KeepsBut.store (by decide) (dwellExpires_keeps t s))
  | fitGrantEnd => exact event_keepsStore h (fitGrantEnds_keepsStore s)
  | channelGrantEnd c => exact event_keepsStore h (channelGrantEnds_keepsStore c s)
  | typesetterByteSent c => exact event_keepsStore h (typesetterByteSent_keepsStore c s)
  | typReady c level =>
    exact event_keepsStore h (KeepsBut.store (by decide) (modChannel_keeps _ _ _))
  | batchWaitExpiry c =>
    exact event_keepsStore h (KeepsBut.store (by decide) (batchWaitExpires_keeps c s))
  | channelStall c => exact event_keepsStore h (channelStalls_keepsStore c s)
  | wireCharacterReceived w r =>
    exact event_keepsStore h (KeepsBut.store (by decide) (receiveWire_keeps w r s))
  | wireBreak w => exact event_keepsStore h (wireBreak_keepsStore w s)
  | wireIntakeCharacter w => exact event_keepsStore h (takeIntake_keepsStore w s)
  | wireSilenceExpiry w => exact event_keepsStore h (silenceExpires_keepsStore w s)
  | linkLengthError hi lo =>
    exact event_keepsStore h (KeepsBut.store (by decide) (receiveBytes_keeps _ _))

theorem soundStoreIsKept : Clause.SoundStoreIsKept := by
  intro s t hs h
  unfold step at h
  split at h
  · next c rest _ =>
    have hp : KeepsStore s (s.withPending rest) := KeepsBut.store (by decide) (keeps_pending s rest)
    exact exec_keepsStore c _ t h (hp hs)
  · unfold idleStep at h
    split at h
    · next c _ => exact exec_keepsStore c s t h hs
    · exact event_keepsStore h (KeepsBut.store (by decide) (keeps_now s (s.now + 1))) hs

/-- Settles O56: each command is a chain of operations that keep the store sound, and the used blocks of a sound store are those of its chains. -/
theorem stepKeepsTheStoreSound : Obligations.StepKeepsTheStoreSound :=
  ⟨soundStoreIsKept, soundStoreAccountsForEveryBlock⟩

end Sys2Proof.Machine
end

section
/-! SUPPORT. The reset state (the power-on rules of every chapter) and the WARM restart (R193, R194). -/

namespace Sys2Proof.Machine

/-! ### The blocks of the reset state -/

@[simp] theorem reset_desks (d : Fin 16) : State.reset.desks[d] = Desk.reset :=
  Vector.getElem_replicate _
@[simp] theorem reset_slots (t : Fin 32) : State.reset.slots[t] = none := Vector.getElem_replicate _
@[simp] theorem reset_baskets (b : Fin 64) : State.reset.baskets[b] = Basket.reset :=
  Vector.getElem_replicate _
@[simp] theorem reset_editions (e : Fin 4) : State.reset.editions[e] = ⟨0, .unarmed⟩ :=
  Vector.getElem_replicate _
@[simp] theorem reset_lines (t : Fin 32) : State.reset.lines[t] = Line.reset :=
  Vector.getElem_replicate _
@[simp] theorem reset_screens (t : Fin 32) : State.reset.screens[t] = Screen.reset :=
  Vector.getElem_replicate _
@[simp] theorem reset_panes (t : Fin 32) : State.reset.panes[t] = ⟨none, none⟩ :=
  Vector.getElem_replicate _
@[simp] theorem reset_faces (f : Fin 8) : State.reset.faces[f] = Face.reset :=
  Vector.getElem_replicate _
@[simp] theorem reset_channels (c : Fin 4) : State.reset.channels[c] = Channel.reset :=
  Vector.getElem_ofFn _
@[simp] theorem reset_wires (w : Fin 4) : State.reset.wires[w] = Wire.reset :=
  Vector.getElem_replicate _
@[simp] theorem reset_selection (i : Fin 32) : State.reset.selection[i] = none :=
  Vector.getElem_replicate _

/-- PART alone is pending after a start (R194). -/
theorem start_pending (cause : StartCause) (tag : Byte) (i : Fin 48) :
    (Notices.start cause tag).pending[i] = decide (i = srcPart) := by
  show ((Vector.replicate 48 false).set 0 true)[i.val] = decide (i = (0 : Fin 48))
  rw [Vector.getElem_set]
  by_cases h : i.val = 0
  · simp [Fin.ext_iff, h]
  · simp [Fin.ext_iff, h, Ne.symm h]

/-- Settles O2: each block of the reset state is its reset value. -/
theorem resetStateIsThePowerOnState : Obligations.ResetStateIsThePowerOnState := by
  unfold Obligations.ResetStateIsThePowerOnState
  refine ⟨⟨rfl, rfl, rfl, rfl⟩, fun d => ?_, fun t => ?_, fun b => ?_, ⟨rfl, rfl, fun e => ?_⟩,
    ⟨rfl, fun f => ?_, rfl⟩, fun c => ?_, ⟨rfl, rfl, rfl, fun i => ?_⟩, fun w => ?_,
    ⟨fun i => ?_, rfl⟩, ⟨rfl, rfl, rfl, rfl, rfl, rfl, rfl⟩, start_pending .powerOn 0, rfl, rfl⟩
  · rw [reset_desks]; exact ⟨rfl, fun b => Vector.getElem_replicate _⟩
  · rw [reset_slots, reset_lines, reset_panes, reset_screens]
    exact ⟨rfl, rfl, rfl, rfl, rfl, rfl, rfl, rfl, rfl, rfl, rfl, rfl⟩
  · rw [reset_baskets]; rfl
  · rw [reset_editions]
  · rw [reset_faces]; exact ⟨rfl, rfl⟩
  · rw [reset_channels]; exact ⟨rfl, rfl, rfl, rfl, rfl, rfl, rfl⟩
  · exact Vector.getElem_replicate _
  · rw [reset_wires]; exact ⟨rfl, rfl, rfl⟩
  · rw [reset_selection]

theorem reset_watchLegal : WatchLegal State.reset := by
  intro t target h
  rw [reset_screens] at h
  cases h

theorem reset_lineFifosFit : LineFifosFit State.reset := by
  refine ⟨fun t => ?_, fun w => ?_⟩
  · rw [reset_lines]; decide
  · rw [reset_wires]; decide

theorem reset_channelsFit : ChannelsFit State.reset := by
  intro c
  rw [reset_channels]
  unfold Channel.Fits
  decide

theorem reset_facesLegal : FacesLegal State.reset := by
  intro f h
  rw [reset_faces] at h
  cases h

theorem reset_settingsLegal : SettingsLegal State.reset := by
  refine ⟨fun e he => absurd he List.not_mem_nil, fun b x h => ?_⟩
  rw [reset_baskets] at h
  cases h

theorem reset_linkWatchLegal : LinkWatchLegal State.reset :=
  ⟨fun _ h => (nomatch h), fun h => (nomatch h), rfl⟩

theorem reset_screensInOrder : ScreensInOrder State.reset := by
  intro t
  rw [reset_screens]
  exact ⟨List.nil_sublist _, fun r codes h => by cases h⟩

/-- Settles O59: every invariant speaks of blocks at their reset values. -/
theorem resetStateSatisfiesTheInvariants : Obligations.ResetStateSatisfiesTheInvariants :=
  ⟨start_sound _ _ _ _ _ _, fun h => absurd rfl h, reset_watchLegal,
    ⟨Nat.zero_le _, Nat.zero_le _, Nat.zero_le _, Nat.zero_le _⟩, reset_lineFifosFit,
    reset_channelsFit, reset_facesLegal, reset_settingsLegal, reset_linkWatchLegal,
    reset_screensInOrder⟩

/-! ### The WARM restart (R193) -/

/-- A WARM RESTART that is held and due is made. -/
theorem exec_restartMade_warm {s : State} {tag : Byte} (hheld : s.link.held = some (.warm, tag))
    (hreplies : s.link.replies = []) (hsending : s.link.sending = none) :
    exec .restartMade s = .next (settle (warmStart tag s)) := by
  have hdue : restartDue s = some (.warm, tag) := by
    unfold restartDue
    rw [hreplies, hsending, hheld]; rfl
  show execRestartMade s = _
  unfold execRestartMade
  rw [hdue]; rfl

theorem warmStart_keeps (tag : Byte) (s : State) :
    KeepsBut [.stories, .pressure, .slots, .lines, .keys, .screens, .panes, .fit, .channels,
      .engine, .wires, .notices, .link] s (warmStart tag s) := by
  intro f hf; cases f <;> first | exact absurd (by decide) hf | rfl

section
variable (tag : Byte) (s : State)

theorem warmStart_storyOf (id : Nat) :
    storyOf (warmStart tag s) id = (storyOf s id).map warmStory := Tab.get?_mapVal _ _ _

@[simp] theorem warmStart_line (t : Fin 32) : (warmStart tag s).lines[t] = warmLine s.lines[t] :=
  Vector.getElem_ofFn _
@[simp] theorem warmStart_screen (t : Fin 32) :
    (warmStart tag s).screens[t] = warmScreen s.now s.lines[t].attached s.screens[t] :=
  Vector.getElem_ofFn _
@[simp] theorem warmStart_channel (c : Fin 4) :
    (warmStart tag s).channels[c] = warmChannel s.channels[c] := Vector.getElem_ofFn _
@[simp] theorem warmStart_wire (w : Fin 4) : (warmStart tag s).wires[w] = warmWire s.now s.wires[w] :=
  Vector.getElem_ofFn _
@[simp] theorem warmStart_slot (t : Fin 32) : (warmStart tag s).slots[t] = none :=
  Vector.getElem_replicate _
@[simp] theorem warmStart_panes (t : Fin 32) : (warmStart tag s).panes[t] = ⟨none, none⟩ :=
  Vector.getElem_replicate _

end

/-- What a WARM restart keeps of a story and what it ends (R14, R25). -/
theorem warmStory_eq (st : Story) :
    warmStory st = { st with
      holding := .idle
      cut := st.cut || (st.holding.stateCode == 1)
      fit := { st.fit with
        status := if st.fit.status = .pending then .unknown else st.fit.status } } := by
  obtain ⟨_, _, _, holding, _⟩ := st
  cases holding <;> rfl

/-- What a WARM restart keeps of a screen and what it ends (R75, R96). -/
theorem warmScreen_same (now : Nat) (attached : Bool) (sc : Screen) :
    (warmScreen now attached sc).base = sc.base ∧ (warmScreen now attached sc).status = sc.status ∧
      (warmScreen now attached sc).flash = none ∧ (warmScreen now attached sc).bell = false ∧
      (warmScreen now attached sc).mode = warmMode now sc.mode := by
  cases attached <;> exact ⟨rfl, rfl, rfl, rfl, rfl⟩

theorem addResult_same (ch : Channel) (r : JobResult) :
    ch.addResult r = { ch with finished := (ch.addResult r).finished } := rfl

/-- Results added one after another change nothing of a channel but its finished list. -/
theorem foldl_addResult_same (rs : List JobResult) (ch : Channel) :
    rs.foldl (fun ch r => ch.addResult r) ch =
      { ch with finished := (rs.foldl (fun ch r => ch.addResult r) ch).finished } := by
  induction rs generalizing ch with
  | nil => rfl
  | cons r rs ih => rw [List.foldl_cons, ih, addResult_same]

/-- R161: the finished list after results are added holds the last four. -/
theorem foldl_addResult_finished (rs : List JobResult) (ch : Channel) (h : rs ≠ []) :
    (rs.foldl (fun ch r => ch.addResult r) ch).finished =
      (ch.finished ++ rs).drop ((ch.finished ++ rs).length - 4) := by
  induction rs generalizing ch with
  | nil => exact absurd rfl h
  | cons r rs ih =>
    have hone : (ch.addResult r).finished =
        (ch.finished ++ [r]).drop ((ch.finished ++ [r]).length - 4) := rfl
    rw [List.foldl_cons]
    by_cases hrs : rs = []
    · subst hrs; exact hone
    · rw [ih _ hrs, hone, show ch.finished ++ r :: rs = (ch.finished ++ [r]) ++ rs by simp]
      generalize ch.finished ++ [r] = done
      have hdrop : done.drop (done.length - 4) ++ rs = (done ++ rs).drop (done.length - 4) := by
        rw [List.drop_append_of_le_length (Nat.sub_le _ _)]
      have hpos : 0 < rs.length := List.length_pos_iff.mpr hrs
      rw [hdrop, List.drop_drop, List.length_drop, List.length_append]
      congr 1
      omega

theorem warmChannel_finished (ch : Channel) :
    (warmChannel ch).finished =
      ((warmResults ch.jobs).foldl (fun ch r => ch.addResult r) ch.emptyOutput).finished := rfl

/-- What a WARM restart keeps of a channel and what it ends (R143). -/
theorem warmChannel_eq (ch : Channel) :
    warmChannel ch = { ch.emptyOutput with
      state := .idle, jobs := [], pos := .complete, grant := .none
      finished := (warmChannel ch).finished } := by
  rw [warmChannel_finished]
  unfold warmChannel
  rw [foldl_addResult_same]

theorem warmKeepsStoriesAndEndsWork : Clause.WarmKeepsStoriesAndEndsWork := by
  intro s tag hheld hreplies hsending
  refine ⟨warmStart tag s, exec_restartMade_warm hheld hreplies hsending, warmStart_keeps tag s,
    fun id st hst => ⟨warmStory st, ?_, warmStory_eq st⟩, rfl, rfl, rfl, fun t => ?_, fun c => ?_, rfl,
    fun w => ?_, ⟨rfl, rfl, rfl, rfl, rfl, rfl, rfl, rfl, rfl⟩, start_pending .warm tag, rfl⟩
  · rw [warmStart_storyOf, hst]; rfl
  · obtain ⟨hbase, hstatus, hflash, hbell, -⟩ :=
      warmScreen_same s.now s.lines[t].attached s.screens[t]
    rw [warmStart_slot, warmStart_panes, warmStart_line, warmStart_screen]
    exact ⟨rfl, rfl, rfl, rfl, rfl, rfl, rfl, rfl, rfl, rfl, rfl, hbase, hstatus, hflash, hbell⟩
  · rw [warmStart_channel, warmChannel_eq]
    exact ⟨rfl, rfl, rfl, rfl, rfl, emptyOutput_finished s.channels[c], rfl, rfl⟩
  · rw [warmStart_wire]
    refine ⟨rfl, rfl, ?_⟩
    show enabledIntake (decide (s.wires[w].intake ≠ .off)) = _
    by_cases h : s.wires[w].intake = .off
    · rw [if_pos h, decide_eq_false (not_not_intro h)]; rfl
    · rw [if_neg h, decide_eq_true h]; rfl

theorem warmKeepsModesSettingsAndResults : Clause.WarmKeepsModesSettingsAndResults := by
  intro s tag hheld hreplies hsending
  refine ⟨warmStart tag s, exec_restartMade_warm hheld hreplies hsending, fun t => ?_, fun c => ?_⟩
  · obtain ⟨-, -, -, -, hmode⟩ := warmScreen_same s.now s.lines[t].attached s.screens[t]
    rw [warmStart_screen, hmode]
    refine ⟨fun h => ?_, fun r h => by rw [h]; rfl⟩
    cases hm : s.screens[t].mode with
    | rotating r => exact absurd hm (h r)
    | normal => rfl
    | watching x => rfl
  · rw [warmStart_channel]
    refine ⟨by rw [warmChannel_eq]; rfl, by rw [warmChannel_eq]; rfl, by rw [warmChannel_eq]; rfl,
      fun h => ?_, fun j js all hj hall => ?_⟩
    · rw [warmChannel_finished, h]; rfl
    · rw [warmChannel_finished, hj, hall]
      exact foldl_addResult_finished _ _ (List.cons_ne_nil _ _)

/-- Settles O11: each part of a WARM restart is read off the state it starts from, block by block. -/
theorem warmRestartKeepsTheStories : Obligations.WarmRestartKeepsTheStories :=
  ⟨warmKeepsStoriesAndEndsWork, warmKeepsModesSettingsAndResults⟩

end Sys2Proof.Machine
end

section
/-! SUPPORT. The checks that orders share, and the orders CREATE STORY and SET FLAGS (R13, R18, R20). -/

namespace Sys2Proof.Machine

/-! ### Fields of a body -/

theorem inRange_of_val {n v : Nat} {i : Fin n} (h : v = i.val) : inRange n v = some i := by
  subst h
  exact dif_pos i.isLt

theorem inRange_eq_none {n v : Nat} (h : n ≤ v) : inRange n v = none := dif_neg (Nat.not_lt_of_le h)

theorem length_of_textAt {b text : List Byte} {i n : Nat} (h : textAt b i n = some text) :
    text.length = n := by
  unfold textAt at h
  split at h
  · cases h; simp; omega
  · cases h

theorem Priority.ofCode_code (p : Priority) : Priority.ofCode p.code = some p := by cases p <;> rfl

theorem Priority.ofCode_eq_none {n : Nat} (h : 3 ≤ n) : Priority.ofCode n = none := by
  obtain ⟨k, rfl⟩ := Nat.exists_eq_add_of_le' h
  rfl

/-- A reply that is CLAMPED exactly where something was. -/
theorem clampedIf_eq {c : Bool} {p : Prop} [Decidable p] (h : c = true ↔ p) (d : List Byte) :
    Reply.clampedIf c d = ⟨if p then .clamped else .ok, d⟩ := by
  unfold Reply.clampedIf
  simp only [h]

/-- A reply that is OK exactly where nothing was clamped. -/
theorem clampedIf_eq_not {c : Bool} {p : Prop} [Decidable p] (h : c = true ↔ ¬ p) (d : List Byte) :
    Reply.clampedIf c d = ⟨if p then .ok else .clamped, d⟩ := by
  rw [clampedIf_eq h]
  by_cases hp : p <;> simp [hp]

/-! ### Orders about a story -/

theorem storyOf_dropHead (s : State) (id : Nat) : storyOf (dropHead s) id = storyOf s id := rfl

theorem withStory_range {id : Nat} {s : State} {k : Story → Answer} (h : id = 0 ∨ 1024 < id) :
    withStory id s k = refuse .range s := by
  unfold withStory
  rw [if_pos (by rcases h with h | h <;> simp [Config.stories, h])]

theorem knownIdentifier_inRange {id : Nat} (h1 : 1 ≤ id) (h2 : id ≤ 1024) :
    ¬ ((id = 0 || Config.stories < id) = true) := by
  rw [Bool.or_eq_true, decide_eq_true_iff, decide_eq_true_iff]
  unfold Config.stories
  omega

theorem withStory_free {id : Nat} {s : State} {k : Story → Answer} (h1 : 1 ≤ id) (h2 : id ≤ 1024)
    (h : storyOf s id = none) : withStory id s k = refuse .noSuch s := by
  unfold withStory
  rw [if_neg (knownIdentifier_inRange h1 h2), h]

theorem withStory_used {id : Nat} {s : State} {k : Story → Answer} {st : Story} (h1 : 1 ≤ id)
    (h2 : id ≤ 1024) (h : storyOf s id = some st) : withStory id s k = k st := by
  unfold withStory
  rw [if_neg (knownIdentifier_inRange h1 h2), h]

theorem withText_some {b text : List Byte} {i n : Nat} {s : State} {k : List Byte → Answer}
    (h : textAt b i n = some text) : withText b i n s k = k text := by
  unfold withText
  rw [h]

/-- An order about a story refuses an identifier that is out of range or free. -/
theorem refusesStory_of_own {i : Instr} {kind tag : Byte} {body : List Byte} {s : State}
    {need id : Nat} {own : List Byte → State → Answer} {k : Story → Answer}
    (hi : exec i s = .next (takeOrder kind need own tag body s)) (ht : Takes ⟨kind, tag, body⟩ s)
    (hn : need ≤ body.length) (ho : own body (dropHead s) = withStory id (dropHead s) k) :
    RefusesStory i kind tag id s :=
  ⟨fun h => refuses_of_own hi ht hn (ho.trans (withStory_range h)),
    fun h1 h2 hnone => refuses_of_own hi ht hn (ho.trans (withStory_free h1 h2 hnone))⟩

/-! ### SET FLAGS (R20) -/

/-- Settles O15: the owner writes the entry and answers with the flags it held. -/
theorem setFlagsWritesBothFlags : Obligations.SetFlagsWritesBothFlags := by
  intro tag body s hn ht
  refine ⟨refusesStory_of_own rfl ht hn rfl, fun st h1 h2 hst => ?_⟩
  have hown : ownSetFlags body (dropHead s) =
      (setStory (u16 body 0) { st with garbled := flagAt body 2, cut := flagAt body 3 }
        (dropHead s),
        ⟨.ok, eFlag st.garbled ++ eFlag st.cut⟩) := withStory_used h1 h2 hst
  refine replies_of_own rfl ht hn (congrArg Prod.snd hown) ?_ (by decide) ?_
  · rw [hown]; exact setStory_keeps _ _ _
  · rw [hown]; rfl

/-! ### CREATE STORY (R13, R18) -/

theorem freeStory?_eq_some_iff {s : State} (hw : Tab.wf s.stories) (id : Nat) :
    freeStory? s = some id ↔ LowestFreeStory s id := by
  refine ⟨freeStory?_eq_some hw, fun ⟨h1, h2, hfree, hlow⟩ => ?_⟩
  obtain ⟨hge, hnone, hused⟩ := Tab.lowestFree_spec s.stories 1 hw
  have hle : ¬ id < Tab.lowestFree s.stories 1 := fun hlt => hused id h1 hlt hfree
  have hle' : ¬ Tab.lowestFree s.stories 1 < id := fun hlt => hlow _ hge hlt hnone
  have heq : Tab.lowestFree s.stories 1 = id := by omega
  unfold freeStory?
  rw [heq]
  exact if_pos h2

theorem freeStory?_eq_none_iff {s : State} (hw : Tab.wf s.stories) :
    freeStory? s = none ↔ ∀ id, 1 ≤ id → id ≤ 1024 → storyOf s id ≠ none := by
  obtain ⟨hge, hnone, hused⟩ := Tab.lowestFree_spec s.stories 1 hw
  have hmax : freeStory? s = none ↔ 1024 < Tab.lowestFree s.stories 1 := by
    unfold freeStory? Config.stories
    split <;> simp <;> omega
  rw [hmax]
  constructor
  · exact fun hlt id h1 h2 => hused id h1 (by omega)
  · exact fun h => by_contra fun hle => h _ hge (by omega) hnone

theorem freshIdentifierIsTheLowest : Clause.FreshIdentifierIsTheLowest :=
  fun _ hw => ⟨freeStory?_eq_some_iff hw, freeStory?_eq_none_iff hw⟩

/-- Where a story joins a list (R31). -/
theorem joinList_joinsTail (s : State) (rank id : Nat) (old : List Nat) :
    JoinsTail s rank id old (joinList s rank id old) := by
  induction old with
  | nil => exact ⟨[], [], rfl, rfl, by simp, by simp⟩
  | cons x xs ih =>
    unfold joinList
    split
    · next h => exact ⟨[], x :: xs, rfl, rfl, by simp, fun y hy => by cases hy; exact h⟩
    · next h =>
      obtain ⟨before, after, hold, hnew, hbefore, hafter⟩ := ih
      refine ⟨x :: before, after, by rw [hold]; rfl, by rw [hnew]; rfl, fun y hy => ?_, hafter⟩
      rcases List.mem_cons.mp hy with rfl | hy
      · exact h
      · exact hbefore y hy

theorem createStory_stories (id : Nat) (st : Story) (s : State) :
    (createStory id st s).stories = Tab.put s.stories id st := rfl

/-- A creation changes its own basket's list only, which the story joins at the tail of its class (R31). -/
theorem createStory_baskets (id : Nat) (st : Story) (s : State) :
    (∀ x : Fin 64, x ≠ st.basket → (createStory id st s).baskets[x] = s.baskets[x]) ∧
      ∃ before after, s.baskets[st.basket].list = before ++ after ∧
        (createStory id st s).baskets[st.basket] =
          { s.baskets[st.basket] with list := before ++ id :: after } ∧
        (∀ y ∈ before, ¬ (st.priority.rank < classOf (createStory id st s) y)) ∧
        ∀ y, after.head? = some y → st.priority.rank < classOf (createStory id st s) y := by
  have hrank : classOf (setStory id st s) id = st.priority.rank := by
    unfold classOf
    rw [storyOf_setStory, if_pos rfl]
  obtain ⟨before, after, hold, hnew, hbefore, hafter⟩ :=
    joinList_joinsTail (setStory id st s) st.priority.rank id s.baskets[st.basket].list
  refine ⟨fun x hx => ?_, before, after, hold, ?_, hbefore, hafter⟩
  · show (s.baskets.set st.basket _)[x.val] = s.baskets[x.val]
    exact Vector.getElem_set_ne _ _ fun h => hx (Fin.ext h.symm)
  · rw [← hnew]
    show (s.baskets.set st.basket _)[st.basket.val] = _
    rw [Vector.getElem_set_self, hrank]; rfl

theorem cleanText_clamped (slug : List Byte) (n : Nat) :
    (cleanText n slug).2 = true ↔ n < slug.length ∨ ∃ c ∈ slug.take n, isText c = false := by
  simp [cleanText]

section
variable {body slug : List Byte} {s : State} {b : Fin 64} {p : Priority} {key : Fin 16}

theorem ownCreateStory_full (htext : textAt body 5 (u8 body 4) = some slug) (hne : slug ≠ [])
    (hb : u8 body 0 = b.val) (hp : u8 body 1 = p.code) (hk : u8 body 2 = key.val)
    (hfull : freeStory? s = none) : ownCreateStory body s = refuse .full s := by
  unfold ownCreateStory
  rw [withText_some htext, if_neg hne, inRange_of_val hb, hp, Priority.ofCode_code,
    inRange_of_val hk, hfull]

theorem ownCreateStory_made {id : Nat} (htext : textAt body 5 (u8 body 4) = some slug)
    (hne : slug ≠ []) (hb : u8 body 0 = b.val) (hp : u8 body 1 = p.code) (hk : u8 body 2 = key.val)
    (hid : freeStory? s = some id) : ownCreateStory body s =
      (createStory id (newStory s (cleanText 16 slug).1 b p key (flagAt body 3) .idle none) s,
        Reply.clampedIf (cleanText 16 slug).2 (e16 id ++ e16 0)) := by
  unfold ownCreateStory
  rw [withText_some htext, if_neg hne, inRange_of_val hb, hp, Priority.ofCode_code,
    inRange_of_val hk, hid]

end

theorem ownCreateStory_range {body slug : List Byte} {s : State}
    (htext : textAt body 5 (u8 body 4) = some slug) (hne : slug ≠ [])
    (h : 64 ≤ u8 body 0 ∨ 3 ≤ u8 body 1 ∨ 16 ≤ u8 body 2) :
    ownCreateStory body s = refuse .range s := by
  unfold ownCreateStory
  rw [withText_some htext, if_neg hne]
  rcases h with h | h | h
  · rw [inRange_eq_none h]
  · rw [Priority.ofCode_eq_none h]
    split <;> simp_all
  · rw [inRange_eq_none h]
    split <;> simp_all

theorem createStoryPutsAnIdleStory : Clause.CreateStoryPutsAnIdleStory := by
  intro tag body slug s hn htext ht
  refine ⟨fun hnil => ?_, fun hne h => ?_, 
    fun b p key hne hb hp hk => ⟨fun hfull => ?_, fun id hid => ?_⟩⟩
  · refine refuses_of_own (own := ownCreateStory) rfl ht hn ?_
    unfold ownCreateStory
    rw [withText_some htext, if_pos hnil]
  · exact refuses_of_own (own := ownCreateStory) rfl ht hn (ownCreateStory_range htext hne h)
  · exact refuses_of_own (own := ownCreateStory) rfl ht hn
      (ownCreateStory_full (s := dropHead s) htext hne hb hp hk hfull)
  · have hown := ownCreateStory_made (s := dropHead s) htext hne hb hp hk hid
    refine replies_of_own (own := ownCreateStory) rfl ht hn ?_ ?_ (by decide) ?_
    · rw [hown]; exact clampedIf_eq (cleanText_clamped slug 16) _
    · rw [hown]; exact (createStory_keeps _ _ _).mono (by decide)
    · rw [hown]
      exact ⟨rfl, createStory_baskets id
        (newStory (dropHead s) (cleanText 16 slug).1 b p key (flagAt body 3) .idle none)
          (dropHead s)⟩

/-- Settles O14: the lowest free identifier is the only one that freeStory? gives, and joinList puts the story at the tail of its class. -/
theorem createStoryMakesAnIdleStory : Obligations.CreateStoryMakesAnIdleStory :=
  ⟨freshIdentifierIsTheLowest, createStoryPutsAnIdleStory⟩

end Sys2Proof.Machine
end

section
/-! SUPPORT. A text written into a story, one character after the other: room for n characters is kept from each to the next, and the directory and the other stories' texts stay as they are (R4, R5, R7, R21, R22). -/

namespace Sys2Proof.Machine

/-! ### Room for a text at a point (R5, R21) -/

section
variable {m m' : Memory} {chain chain' : List Nat} {k n : Nat} {c : Byte}

/-- The block an insertion leaves for the next character: a taken block holds at most 121, and a block with room one more than before. -/
theorem InsertMade.nextPoint (h : InsertMade m chain k c m' chain') (hm : Memory.wf m)
    (hs : ChainSound m chain) (hk : k ≤ chainLength m chain) :
    (∃ before b after p, InsertPoint m' chain' (k + 1) before b after p ∧ fill m' b ≤ 121 ∧
      chain'.length = chain.length + 1 ∧ needsBlock m chain k = true) ∨
    ∃ before b after p, InsertPoint m chain k before b after p ∧
      InsertPoint m' chain' (k + 1) before b after (p + 1) ∧ fill m b < 240 ∧
      fill m' b = fill m b + 1 ∧ chain' = chain := by
  have hneeds := (needsBlock_iff hs hk).mpr
  cases h with
  | firstBlock b empty low =>
    subst empty
    have hfill : fill (Memory.write m b ⟨[c], true⟩) b = 1 := by
      rw [fill, Memory.read_write_same _ _ _ hm]; rfl
    rw [chainLength_nil] at hk
    exact .inl ⟨[], b, [], 1, ⟨rfl, by rw [chainLength_nil]; omega, hfill.ge, fun h => by cases h⟩,
      by omega, rfl, hneeds (.inl rfl)⟩
  | intoBlock before b after p point room =>
    have hfill : fill (Memory.write m b ⟨(Memory.read m b).chars.insertIdx p c, true⟩) b =
        fill m b + 1 := by
      rw [fill, Memory.read_write_same _ _ _ hm]
      exact List.length_insertIdx_of_le_length point.inside c
    have hbefore : chainLength (Memory.write m b ⟨(Memory.read m b).chars.insertIdx p c, true⟩)
        before = chainLength m before := by
      have hnot := (point.notMem hs).1
      rw [← length_chainText, ← length_chainText, chainText_congr fun x hx =>
        Memory.read_write_ne m b x _ fun he => hnot (he ▸ hx)]
    have hplace := point.place
    have hin := point.inside
    exact .inr ⟨before, b, after, p, point,
      ⟨point.parts, by omega, by omega, fun h => by cases h⟩, room, hfill, rfl⟩
  | splitBlock before b after p nb point full short low =>
    have hne : nb ≠ b := fun he => low.not_mem hs (he ▸ point.mem)
    obtain ⟨hrb, hrn, hrest⟩ := read_split hm hne
      ⟨(splitHalves (Memory.read m b).chars p c).1, true⟩
      ⟨(splitHalves (Memory.read m b).chars p c).2, true⟩
    have hplace := point.place
    have hin := full ▸ point.inside
    obtain ⟨hlow, hhigh⟩ := length_splitHalves c full hin
    have hbefore := congrArg List.length (chainText_congr (chain := before) fun x hx =>
      hrest x (fun he => (point.notMem hs).1 (he ▸ hx)) fun he =>
        low.not_mem hs (by rw [← he, point.parts]; exact List.mem_append_left _ hx))
    rw [length_chainText, length_chainText] at hbefore
    have hlen : (before ++ b :: nb :: after).length = chain.length + 1 := by
      rw [point.parts]; simp; omega
    have hneed := (needsBlock_of_locate point.locate).mpr full.ge
    by_cases hp : p ≤ 120
    · exact .inl ⟨before, b, nb :: after, p + 1,
        ⟨rfl, by omega, by rw [fill, hrb, (hlow hp).1]; omega, fun h => by cases h⟩,
        by rw [fill, hrb, (hlow hp).1], hlen, hneed⟩
    · obtain ⟨hfb, hfn⟩ := hhigh (by omega)
      refine .inl ⟨before ++ [b], nb, after, p - 120 + 1,
        ⟨by simp, ?_, by rw [fill, hrn, hfn]; omega, fun h => by cases h⟩,
        by rw [fill, hrn, hfn], hlen, hneed⟩
      rw [chainLength_append, hbefore, chainLength_cons, chainLength_nil, fill, hrb, hfb]
      omega

/-- Room for n characters from point k on: what the block of the point still takes, and 120 for each further block that may be taken, of which one is used up whenever the block is full. -/
structure RoomFor (m : Memory) (chain : List Nat) (k n : Nat) (here more : Nat) : Prop where
  enough : n ≤ here + 120 * more
  cap : chainLength m chain + n ≤ 61440
  free : more ≤ Memory.freeCount m
  short : chain.length + more ≤ 256
  point : here = 0 ∨ ∃ before b after p, InsertPoint m chain k before b after p ∧
    here + fill m b ≤ 240

theorem RoomFor.moreBlocks {here more : Nat} (h : RoomFor m chain k (n + 1) here more)
    (hneed : needsBlock m chain k = true) : here = 0 ∧ 1 ≤ more := by
  have hhere : here = 0 := h.point.elim id fun ⟨before, b, after, p, hp, hfill⟩ => by
    have := (needsBlock_of_locate hp.locate).mp hneed
    omega
  have := h.enough
  exact ⟨hhere, by omega⟩

/-- Where there is room, the character is inserted and room for the others is left at the next point. -/
theorem RoomFor.insert {here more : Nat} (h : RoomFor m chain k (n + 1) here more)
    (hm : Memory.wf m) (hb : m.Bounded) (hs : ChainSound m chain) (hk : k ≤ chainLength m chain)
    (c : Byte) : ∃ m' chain', insertChar m chain k c = .made m' chain' ∧
      ∃ here' more', RoomFor m' chain' (k + 1) n here' more' := by
  have hcap := h.cap
  have hshort := h.short
  have hfree := h.free
  have henough := h.enough
  cases hi : insertChar m chain k c with
  | atCap =>
    rcases (atCap_iff hs).mp (insertChar_atCap_iff.mp hi) with hfull | ⟨hneed, hlong⟩
    · omega
    · have := h.moreBlocks hneed
      omega
  | poolEmpty =>
    obtain ⟨hneed, hnone, -⟩ := (insertChar_poolEmpty hm hb hs).mp hi
    have := h.moreBlocks hneed
    omega
  | made m' chain' =>
    have made := insertChar_made hm hs hk hi
    have hcount := (made.chainStep hm hs).freeCount hm hs hb
    have hlen : chainLength m' chain' = chainLength m chain + 1 := by
      rw [← length_chainText, made.text hm hs hk, ← length_chainText]; simp; omega
    refine ⟨m', chain', rfl, ?_⟩
    rcases made.nextPoint hm hs hk with ⟨before, b, after, p, hp, hfill, hgrown, hneed⟩ |
      ⟨before, b, after, p, hp, hnext, hroom, hfill, rfl⟩
    · have := h.moreBlocks hneed
      exact ⟨119, more - 1, by omega, by omega, by omega, by omega,
        .inr ⟨before, b, after, p, hp, by omega⟩⟩
    · refine ⟨here - 1, more, by omega, by omega, by omega, hshort,
        .inr ⟨before, b, after, p + 1, hnext, ?_⟩⟩
      rcases h.point with hzero | ⟨before', b', after', p', hp', hfill'⟩
      · omega
      · obtain ⟨-, rfl, -, -⟩ := hp.unique hp' hs
        omega

end

/-! ### One story's text changes (R7, R4, R6) -/

/-- From s to t the text of story id may change, and its chain with it; the rest of its entry and every other story's entry and text are as before, and the free count falls by as many blocks as the chain grows. -/
structure TextStep (id : Nat) (s t : State) (st st' : Story) : Prop where
  sound : StoreSound t
  entry : storyOf t id = some st'
  same : { st' with chain := st.chain } = st
  others : ∀ other so, other ≠ id → storyOf s other = some so →
    storyOf t other = some so ∧ textOf t so = textOf s so
  count : Memory.freeCount t.memory + st'.chain.length =
    Memory.freeCount s.memory + st.chain.length

theorem TextStep.refl {id : Nat} {s : State} {st : Story} (h : StoreSound s)
    (hst : storyOf s id = some st) : TextStep id s s st st :=
  ⟨h, hst, rfl, fun _ _ _ hso => ⟨hso, rfl⟩, rfl⟩

theorem TextStep.trans {id : Nat} {s t u : State} {st st' st'' : Story} (h : TextStep id s t st st')
    (k : TextStep id t u st' st'') : TextStep id s u st st'' where
  sound := k.sound
  entry := k.entry
  same := by rw [← h.same, ← k.same]
  others := fun other so hne hso => by
    obtain ⟨hmid, htext⟩ := h.others other so hne hso
    obtain ⟨hend, htext'⟩ := k.others other so hne hmid
    exact ⟨hend, htext'.trans htext⟩
  count := k.count.trans h.count

/-- A state with a story's new memory and chain in it. -/
theorem TextStep.of_chainStep {id : Nat} {s t : State} {st : Story} {m : Memory} {chain : List Nat}
    (h : StoreSound s) (hst : storyOf s id = some st) (step : ChainStep s.memory m st.chain chain)
    (hstories : t.stories = Tab.put s.stories id { st with chain := chain }) (hmem : t.memory = m) :
    TextStep id s t st { st with chain := chain } := by
  have hsame : ∀ x, storyOf t x = storyOf (setText id st m chain s) x := fun x => by
    unfold storyOf; rw [hstories]; rfl
  have hstory : ∀ x, storyOf t x = if x = id then some { st with chain := chain } else storyOf s x
      :=
    fun x => (hsame x).trans (storyOf_setStory _ _ _ _)
  refine ⟨KeepsStore.of_same (s := setText id st m chain s) hmem hstories
      (setText_sound h hst step),
    by rw [hstory, if_pos rfl], rfl, fun other so hne hso => ⟨by rw [hstory, if_neg hne, hso], ?_⟩,
      ?_⟩
  · rw [textOf, hmem]; exact h.otherText hst hso hne step
  · rw [hmem]; exact step.freeCount h.1 (h.chain hst) h.bounded

/-- What a deletion makes of the directory and of memory. -/
theorem deleteAt_store {id k : Nat} {s : State} {st : Story} (hst : storyOf s id = some st) :
    (deleteAt id k s).stories =
        Tab.put s.stories id { st with chain := (deleteChar s.memory st.chain k).2.1 } ∧
      (deleteAt id k s).memory = (deleteChar s.memory st.chain k).1 := by
  have htest := recoveryTest_keeps (setText id st (deleteChar s.memory st.chain k).1
    (deleteChar s.memory st.chain k).2.1 s)
  unfold deleteAt
  rw [hst]
  dsimp only
  split
  · exact ⟨htest .stories (by decide), htest .memory (by decide)⟩
  · exact ⟨rfl, rfl⟩

theorem insertAt_of_made {id k : Nat} {c : Byte} {s : State} {st : Story} {m : Memory}
    {chain : List Nat} (hst : storyOf s id = some st)
    (h : insertChar s.memory st.chain k c = .made m chain) :
    insertAt id k c s = setText id st m chain s := by
  unfold insertAt
  rw [hst]
  simp only [h]

theorem deleteAt_textStep {id k : Nat} {s : State} {st : Story} (h : StoreSound s)
    (hst : storyOf s id = some st) (hk : k < lengthOf s st) :
    ∃ st', TextStep id s (deleteAt id k s) st st' ∧ st'.chain.length ≤ st.chain.length ∧
      textOf (deleteAt id k s) st' = (textOf s st).eraseIdx k := by
  obtain ⟨hstories, hmem⟩ := deleteAt_store (k := k) hst
  have made := deleteChar_made (h.chain hst) hk
  have step := made.chainStep h.1 (h.chain hst)
  refine ⟨_, .of_chainStep h hst step hstories hmem,
    (step.sound.1.subperm made.subset).length_le, ?_⟩
  rw [textOf, hmem]
  exact made.text h.1 (h.chain hst)

theorem insertAt_textStep {id k here more n : Nat} {c : Byte} {s : State} {st : Story}
    (h : StoreSound s) (hst : storyOf s id = some st) (hk : k ≤ lengthOf s st)
    (room : RoomFor s.memory st.chain k (n + 1) here more) :
    ∃ st', TextStep id s (insertAt id k c s) st st' ∧
      textOf (insertAt id k c s) st' = (textOf s st).take k ++ c :: (textOf s st).drop k ∧
      ∃ here' more', RoomFor (insertAt id k c s).memory st'.chain (k + 1) n here' more' := by
  obtain ⟨m, chain, hi, hroom⟩ := room.insert h.1 h.bounded (h.chain hst) hk c
  have made := insertChar_made h.1 (h.chain hst) hk hi
  rw [insertAt_of_made hst hi]
  exact ⟨_, .of_chainStep h hst (made.chainStep h.1 (h.chain hst)) rfl rfl,
    made.text h.1 (h.chain hst) hk, hroom⟩

/-! ### Several characters (R22) -/

theorem length_textOf (s : State) (st : Story) : (textOf s st).length = lengthOf s st :=
  length_chainText _ _

theorem deleteMany_textStep {id k n : Nat} {s : State} {st : Story} (h : StoreSound s)
    (hst : storyOf s id = some st) (hk : k + n ≤ lengthOf s st) :
    ∃ st', TextStep id s (deleteMany id k n s) st st' ∧ st'.chain.length ≤ st.chain.length ∧
      textOf (deleteMany id k n s) st' = (textOf s st).take k ++ (textOf s st).drop (k + n) := by
  induction n generalizing s st with
  | zero => exact ⟨st, .refl h hst, le_rfl, (List.take_append_drop k (textOf s st)).symm⟩
  | succ n ih =>
    obtain ⟨st', step, hlen, htext⟩ := deleteAt_textStep (k := k) h hst (by omega)
    have hk' : k + n ≤ lengthOf (deleteAt id k s) st' := by
      rw [← length_textOf, htext, List.length_eraseIdx_of_lt (by rw [length_textOf]; omega),
        length_textOf]
      omega
    obtain ⟨st'', step', hlen', htext'⟩ := ih step.sound step.entry hk'
    refine ⟨st'', step.trans step', hlen'.trans hlen, htext'.trans ?_⟩
    have htake : ((textOf s st).take k).length = k := by rw [List.length_take, length_textOf]; omega
    rw [htext, List.eraseIdx_eq_take_drop_succ, List.take_left' htake, List.drop_append, htake,
      List.drop_drop, List.drop_eq_nil_of_le (by rw [htake]; omega)]
    rw [List.nil_append, show k + 1 + (k + n - k) = k + (n + 1) by omega]

theorem insertMany_textStep {id k here more : Nat} {cs : List Byte} {s : State} {st : Story}
    (h : StoreSound s) (hst : storyOf s id = some st) (hk : k ≤ lengthOf s st)
    (room : RoomFor s.memory st.chain k cs.length here more) :
    ∃ st', TextStep id s (insertMany id k cs s) st st' ∧
      textOf (insertMany id k cs s) st' = (textOf s st).take k ++ cs ++ (textOf s st).drop k := by
  induction cs generalizing k here more s st with
  | nil => exact ⟨st, .refl h hst, by rw [List.append_nil, List.take_append_drop]; rfl⟩
  | cons c cs ih =>
    obtain ⟨st', step, htext, here', more', room'⟩ := insertAt_textStep (c := c) h hst hk room
    have htake : ((textOf s st).take k ++ [c]).length = k + 1 := by
      rw [List.length_append, List.length_take, length_textOf, Nat.min_eq_left hk]; rfl
    have hsplit : textOf (insertAt id k c s) st' =
        ((textOf s st).take k ++ [c]) ++ (textOf s st).drop k := by
      rw [htext, List.append_assoc]; rfl
    have hk' : k + 1 ≤ lengthOf (insertAt id k c s) st' := by
      rw [← length_textOf, hsplit, List.length_append, htake]; omega
    obtain ⟨st'', step', htext'⟩ := ih step.sound step.entry hk' room'
    refine ⟨st'', step.trans step', htext'.trans ?_⟩
    rw [hsplit, List.take_left' htake, List.drop_left' htake]
    simp [List.append_assoc]

/-! ### WRITE TEXT (R21, R22) -/

theorem storyOf_keepRefTops (id : Nat) (move : Nat → Nat) (s : State) (x : Nat) :
    storyOf (keepRefTops id move s) x = storyOf s x := by
  unfold storyOf
  rw [keepRefTops_keeps id move s .stories (by decide)]

/-- The last step of a text change: the version rises, and the reference panes follow. -/
theorem TextStep.textChanged {id : Nat} {s t : State} {st st' : Story} (h : TextStep id s t st st')
    (move : Nat → Nat) :
    StoreSound (keepRefTops id move (modStory id Story.textChanged t)) ∧
      storyOf (keepRefTops id move (modStory id Story.textChanged t)) id = some st'.textChanged ∧
      ∀ other so, other ≠ id → storyOf s other = some so →
        storyOf (keepRefTops id move (modStory id Story.textChanged t)) other = some so ∧
          chainText t.memory so.chain = textOf s so := by
  refine ⟨KeepsBut.store (by decide) (keepRefTops_keeps _ _ _) (textChanged_keepsStore _ _ h.sound),
    ?_, fun other so hne hso => ?_⟩
  · rw [storyOf_keepRefTops, storyOf_modStory, if_pos rfl, h.entry]; rfl
  · rw [storyOf_keepRefTops, storyOf_modStory, if_neg hne]
    exact h.others other so hne hso

theorem memory_textChanged (id : Nat) (move : Nat → Nat) (s : State) :
    (keepRefTops id move (modStory id Story.textChanged s)).memory = s.memory :=
  (keepRefTops_keeps id move _ .memory (by decide)).trans
    (modStory_keeps id Story.textChanged s .memory (by decide))

/-- The check that there is room leaves room for the whole text after the deletion. -/
theorem roomFor_of_not_noRoom {s t : State} {id del k : Nat} {text : List Byte} {st st' : Story}
    (h : noRoom s st del text.length = false) (hne : text ≠ []) (step : TextStep id s t st st')
    (hchain : st'.chain.length ≤ st.chain.length) (hlen : lengthOf t st' = lengthOf s st - del) :
    RoomFor t.memory st'.chain k text.length 0 (worstNeed text.length) := by
  have hpos := List.length_pos_of_ne_nil hne
  have hcount := step.count
  simp only [noRoom, Config.storyMax, Config.chainMax, Bool.or_eq_false_iff, Bool.and_eq_false_iff,
    decide_eq_false_iff_not, Nat.not_lt] at h
  obtain ⟨hcap, hzero | ⟨hfree, hshort⟩⟩ := h
  · exact absurd hpos hzero
  · have hcap' := of_decide_eq_false hcap
    have hshort' := of_decide_eq_false hshort
    rw [← hlen] at hcap'
    refine ⟨?_, Nat.le_of_not_lt hcap', by omega, by omega, .inl rfl⟩
    unfold worstNeed
    omega

/-- Settles O17: each deletion and each insertion is a TextStep, and the room that the order's check leaves is kept from one insertion to the next (RoomFor). -/
theorem writeTextReplacesExactlyTheNamedText : Obligations.WriteTextReplacesExactlyTheNamedText :=
    by
  intro id off del text st s h hst hoff hdel hroom
  by_cases hnone : del = 0 ∧ text = []
  · obtain ⟨rfl, rfl⟩ := hnone
    exact ⟨h, ⟨st, hst, by simp [writeText], rfl⟩, fun other so _ hso => ⟨hso, rfl⟩⟩
  obtain ⟨st₁, deleted, hchain, htext₁⟩ := deleteMany_textStep (k := off) (n := del) h hst
    (by omega)
  have htake : ((textOf s st).take off).length = off := by
    rw [List.length_take, length_textOf, Nat.min_eq_left hoff]
  have hlen : lengthOf (deleteMany id off del s) st₁ = lengthOf s st - del := by
    rw [← length_textOf, htext₁, List.length_append, htake, List.length_drop, length_textOf]
    omega
  obtain ⟨st₂, inserted, htext₂⟩ : ∃ st₂,
      TextStep id (deleteMany id off del s) (insertMany id off text
        (deleteMany id off del s)) st₁ st₂ ∧
        textOf (insertMany id off text (deleteMany id off del s)) st₂ =
          (textOf (deleteMany id off del s) st₁).take off ++ text ++
            (textOf (deleteMany id off del s) st₁).drop off := by
    by_cases htext : text = []
    · subst htext
      exact ⟨st₁, .refl deleted.sound deleted.entry, by
        rw [List.append_nil, List.take_append_drop]; rfl⟩
    · exact insertMany_textStep deleted.sound deleted.entry (by omega)
        (roomFor_of_not_noRoom hroom htext deleted hchain hlen)
  have step := deleted.trans inserted
  have hwrite : writeText id off del text s = keepRefTops id
      (fun top => topAfterInsert (topAfterDelete top off del) off text.length)
      (modStory id Story.textChanged (insertMany id off text (deleteMany id off del s))) := by
    unfold writeText
    rw [if_neg (by simpa using hnone)]
  obtain ⟨hsound, hentry, hothers⟩ := step.textChanged
    (fun top => topAfterInsert (topAfterDelete top off del) off text.length)
  rw [hwrite]
  refine ⟨hsound, ⟨_, hentry, ?_, ?_⟩, fun other so hne hso => ?_⟩
  · have hmid : textOf (insertMany id off text (deleteMany id off del s)) st₂ =
        (textOf s st).take off ++ text ++ (textOf s st).drop (off + del) := by
      rw [htext₂, htext₁, List.take_left' htake, List.drop_left' htake]
    rw [textOf, memory_textChanged]
    exact hmid
  · exact (congrArg (fun x : Story => { x with version := st.version, fit := st.fit }) step.same :)
  · obtain ⟨hso', htext'⟩ := hothers other so hne hso
    refine ⟨hso', ?_⟩
    rw [textOf, memory_textChanged]
    exact htext'

end Sys2Proof.Machine
end

section
/-! SUPPORT. WRITE TEXT takes its order from the link and changes the text without looking at the link (R21, R22). -/

namespace Sys2Proof.Machine

/-! ### A text change does not see the link -/

theorem recoveryTest_dropHead (s : State) : recoveryTest (dropHead s) = dropHead
    (recoveryTest s) := by
  unfold recoveryTest
  rw [dropHead_pressure, dropHead_memory, apply_ite dropHead]
  rfl

theorem modStory_dropHead (id : Nat) (f : Story → Story) (s : State) :
    modStory id f (dropHead s) = dropHead (modStory id f s) := by
  unfold modStory
  rw [storyOf_dropHead]
  split
  · rfl
  · rfl

theorem deleteAt_dropHead (id k : Nat) (s : State) :
    deleteAt id k (dropHead s) = dropHead (deleteAt id k s) := by
  unfold deleteAt
  rw [storyOf_dropHead]
  split
  · rfl
  · rw [apply_ite dropHead, ← recoveryTest_dropHead]
    rfl

theorem insertAt_dropHead (id k : Nat) (c : Byte) (s : State) :
    insertAt id k c (dropHead s) = dropHead (insertAt id k c s) := by
  unfold insertAt
  rw [storyOf_dropHead, dropHead_memory]
  split
  · rfl
  · split
    · rfl
    · rfl
    · rfl

theorem deleteMany_dropHead (id k n : Nat) (s : State) :
    deleteMany id k n (dropHead s) = dropHead (deleteMany id k n s) := by
  induction n generalizing s with
  | zero => rfl
  | succ n ih => rw [deleteMany, deleteAt_dropHead, ih]; rfl

theorem insertMany_dropHead (id k : Nat) (cs : List Byte) (s : State) :
    insertMany id k cs (dropHead s) = dropHead (insertMany id k cs s) := by
  induction cs generalizing k s with
  | nil => rfl
  | cons c cs ih => rw [insertMany, insertAt_dropHead, ih]; rfl

theorem keepRefTops_dropHead (id : Nat) (move : Nat → Nat) (s : State) :
    keepRefTops id move (dropHead s) = dropHead (keepRefTops id move s) := rfl

theorem writeText_dropHead (id off del : Nat) (text : List Byte) (s : State) :
    writeText id off del text (dropHead s) = dropHead (writeText id off del text s) := by
  unfold writeText
  rw [apply_ite dropHead, deleteMany_dropHead, insertMany_dropHead, modStory_dropHead,
    keepRefTops_dropHead]

/-! ### The version (R16, R22) -/

/-- A change of memory and chain leaves the rest of the entry. -/
theorem deleteAt_entry {id k : Nat} {s : State} {st : Story} (h : storyOf s id = some st) :
    ∃ chain, storyOf (deleteAt id k s) id = some { st with chain := chain } := by
  refine ⟨(deleteChar s.memory st.chain k).2.1, ?_⟩
  unfold storyOf
  rw [(deleteAt_store h).1, Tab.get?_put_same]

theorem insertAt_entry {id k : Nat} {c : Byte} {s : State} {st : Story}
    (h : storyOf s id = some st) :
    ∃ chain, storyOf (insertAt id k c s) id = some { st with chain := chain } := by
  cases hi : insertChar s.memory st.chain k c with
  | made m chain =>
    refine ⟨chain, ?_⟩
    rw [insertAt_of_made h hi]
    exact Tab.get?_put_same _ _ _
  | atCap => exact ⟨st.chain, by unfold insertAt; rw [h]; simp only [hi]; exact h⟩
  | poolEmpty => exact ⟨st.chain, by unfold insertAt; rw [h]; simp only [hi]; exact h⟩

theorem deleteMany_entry {id k n : Nat} {s : State} {st : Story} (h : storyOf s id = some st) :
    ∃ chain, storyOf (deleteMany id k n s) id = some { st with chain := chain } := by
  induction n generalizing s st with
  | zero => exact ⟨st.chain, h⟩
  | succ n ih =>
    obtain ⟨chain, hstep⟩ := deleteAt_entry (k := k) h
    obtain ⟨chain', hrest⟩ := ih (st := { st with chain := chain }) hstep
    exact ⟨chain', hrest⟩

theorem insertMany_entry {id k : Nat} {cs : List Byte} {s : State} {st : Story}
    (h : storyOf s id = some st) :
    ∃ chain, storyOf (insertMany id k cs s) id = some { st with chain := chain } := by
  induction cs generalizing k s st with
  | nil => exact ⟨st.chain, h⟩
  | cons c cs ih =>
    obtain ⟨chain, hstep⟩ := insertAt_entry (k := k) (c := c) h
    obtain ⟨chain', hrest⟩ := ih (st := { st with chain := chain }) hstep
    exact ⟨chain', hrest⟩

theorem writeText_nothing (id off : Nat) (s : State) : writeText id off 0 [] s = s := by
  simp [writeText]

/-- A WRITE TEXT that changes something raises the version by one. -/
theorem versionNow_writeText {id off del : Nat} {text : List Byte} {s : State} {st : Story}
    (h : storyOf s id = some st) :
    versionNow (writeText id off del text s) id =
      if del = 0 ∧ text = [] then st.version else st.version + 1 := by
  by_cases hnone : del = 0 ∧ text = []
  · obtain ⟨rfl, rfl⟩ := hnone
    rw [writeText_nothing, if_pos ⟨rfl, rfl⟩, versionNow, h]
  · obtain ⟨chain, hdel⟩ := deleteMany_entry (k := off) (n := del) h
    obtain ⟨chain', hins⟩ := insertMany_entry (k := off) (cs := text) hdel
    rw [if_neg hnone, writeText, if_neg (by simpa using hnone), versionNow, storyOf_keepRefTops,
      storyOf_modStory, if_pos rfl, hins]
    rfl

/-! ### The order (R21) -/

/-- What WRITE TEXT answers once its text and its story are read. -/
theorem ownWriteText_read {body text : List Byte} {s : State} {st : Story}
    (htext : textAt body 11 (u16 body 9) = some text) (h1 : 1 ≤ u16 body 0) (h2 : u16 body 0 ≤ 1024)
    (hst : storyOf s (u16 body 0) = some st) :
    ownWriteText body s =
      if 1000 < u16 body 9 then refuse .range s
      else if versionStale (optVersion body 2) st then
        refuseWith .stale (eWord st.version ++ e16 (lengthOf s st)) s
      else if st.holding ≠ .idle then refuse .locked s
      else if noRoom s st (min (u16 body 7) (lengthOf s st - min (u16 body 5) (lengthOf s st)))
          (u16 body 9) then refuse .full s
      else
        let off := min (u16 body 5) (lengthOf s st)
        let del := min (u16 body 7) (lengthOf s st - off)
        let s' := writeText (u16 body 0) off del (text.map storyByte) s
        (s', Reply.clampedIf
          (decide (off ≠ u16 body 5) || decide (del ≠ u16 body 7) ||
            text.any fun c => storyByte c ≠ c)
          (e16 off ++ e16 (lengthNow s' (u16 body 0)) ++ eWord (versionNow s' (u16 body 0)))) := by
  unfold ownWriteText
  rw [withText_some htext, withStory_used h1 h2 hst]

theorem written_clamped (off del off' del' : Nat) (text : List Byte) :
    (decide (off ≠ off') || decide (del ≠ del') || text.any fun c => storyByte c ≠ c) = true ↔
      ¬ (off = off' ∧ del = del' ∧ ∀ c ∈ text, storyByte c = c) := by
  simp only [Bool.or_eq_true, decide_eq_true_iff, List.any_eq_true]
  push Not
  tauto

/-- Settles O16: a text change commutes with the order's leaving the inbound queue, so what the order writes is writeText of the state in which it is taken. -/
theorem writeTextChecksAndWrites : Obligations.WriteTextChecksAndWrites := by
  intro tag body text s st hn htext ht
  have hlen := length_of_textAt htext
  refine ⟨refusesStory_of_own (own := ownWriteText) rfl ht hn
      (withText_some htext), fun h1 h2 hst => ?_⟩
  have hown := ownWriteText_read (s := dropHead s) htext h1 h2 hst
  refine ⟨fun hlong => ?_, fun hshort hstale => ?_, fun hshort hfresh hheld => ?_,
    fun hshort hfresh hidle off del hoff hdel => ?_⟩
  · refine refuses_of_own (own := ownWriteText) rfl ht hn ?_
    rw [hown, if_pos hlong]
  · refine reads_of_own (own := ownWriteText) rfl ht hn ?_
    rw [hown, if_neg (Nat.not_lt.mpr hshort), if_pos hstale]
    rfl
  · refine refuses_of_own (own := ownWriteText) rfl ht hn ?_
    rw [hown, if_neg (Nat.not_lt.mpr hshort), if_neg (by rw [hfresh]; decide), if_pos hheld]
  · rw [if_neg (Nat.not_lt.mpr hshort), if_neg (by rw [hfresh]; decide), if_neg (by simp [hidle]),
      ← hlen, show lengthOf (dropHead s) st = lengthOf s st from rfl, ← hoff, ← hdel] at hown
    refine ⟨fun hfull => ?_, fun hroom => ?_⟩
    · refine refuses_of_own (own := ownWriteText) rfl ht hn ?_
      rw [hown, if_pos (by exact hfull)]
    · rw [if_neg (by exact hroom ▸ Bool.false_ne_true)] at hown
      dsimp only at hown
      rw [← hdel, clampedIf_eq_not (written_clamped off del _ _ text)] at hown
      have hversion := versionNow_writeText (off := off) (del := del) (text := text.map storyByte)
        (show storyOf (dropHead s) (u16 body 0) = some st from hst)
      simp only [List.map_eq_nil_iff] at hversion
      refine ⟨answer 0x04#8 tag (ownWriteText body (dropHead s)), ?_, ?_, ?_, ?_, ?_⟩
      · exact congrArg Host.Outcome.next (takeOrder_takes (own := ownWriteText) ht hn)
      · rw [hown]
        exact answeredBy_answer (writeText_keeps _ _ _ _ _) (by decide)
      · rw [hown]; exact hversion
      · rintro rfl rfl
        rw [hown, List.map_nil, writeText_nothing]
        exact ⟨rfl, rfl⟩
      · rintro w rfl
        rw [hown, writeText_dropHead]
        exact ⟨rfl, rfl, rfl, rfl, rfl⟩

end Sys2Proof.Machine
end

section
/-! SUPPORT. SPIKE STORY and CLEAR MARKS: the recovery test after blocks are freed, and what is done for each terminal in turn (R8, R10, R24, R115). -/

namespace Sys2Proof.Machine

/-! ### One entry of a table of records -/

theorem modPanes_self (t : Fin 32) (f : Panes → Panes) (s : State) :
    (modPanes t f s).panes[t] = f s.panes[t] := Vector.getElem_set_self _

theorem modPanes_other {t x : Fin 32} (f : Panes → Panes) (s : State) (h : x ≠ t) :
    (modPanes t f s).panes[x] = s.panes[x] :=
  Vector.getElem_set_ne t.isLt x.isLt fun he => h (Fin.ext he.symm)

theorem clearRef_self (t : Fin 32) (s : State) : (clearRef t s).panes[t] =
    { session := s.panes[t].session.map fun e => { e with focus := .edit }, ref := none } :=
  modPanes_self t _ s

theorem clearRef_other {t x : Fin 32} (s : State) (h : x ≠ t) :
    (clearRef t s).panes[x] = s.panes[x] := modPanes_other _ s h

theorem modBasket_self (b : Fin 64) (f : Basket → Basket) (s : State) :
    (modBasket b f s).baskets[b] = f s.baskets[b] := Vector.getElem_set_self _

theorem modBasket_other {b x : Fin 64} (f : Basket → Basket) (s : State) (h : x ≠ b) :
    (modBasket b f s).baskets[x] = s.baskets[x] :=
  Vector.getElem_set_ne b.isLt x.isLt fun he => h (Fin.ext he.symm)

theorem raiseTerminal_self (t : Fin 32) (f : TermEvents → TermEvents) (s : State) :
    (raiseTerminal t f s).notices.pending[srcTerminal t] = true ∧
      (raiseTerminal t f s).notices.terminal[t] = f s.notices.terminal[t] :=
  ⟨Vector.getElem_set_self _, Vector.getElem_set_self _⟩

theorem raiseTerminal_other {t x : Fin 32} (f : TermEvents → TermEvents) (s : State) (h : x ≠ t) :
    (raiseTerminal t f s).notices.pending[srcTerminal x] = s.notices.pending[srcTerminal x] ∧
      (raiseTerminal t f s).notices.terminal[x] = s.notices.terminal[x] :=
  ⟨Vector.getElem_set_ne (srcTerminal t).isLt (srcTerminal x).isLt fun he => h (Fin.ext (by
      simp only [srcTerminal] at he; omega)),
    Vector.getElem_set_ne t.isLt x.isLt fun he => h (Fin.ext he.symm)⟩

/-- A terminal's source is not POOL. -/
theorem raiseTerminal_pool (t : Fin 32) (f : TermEvents → TermEvents) (s : State) :
    (raiseTerminal t f s).notices.pending[srcPool] = s.notices.pending[srcPool] ∧
      (raiseTerminal t f s).notices.pool = s.notices.pool :=
  ⟨Vector.getElem_set_ne (srcTerminal t).isLt srcPool.isLt fun he => by
      simp only [srcTerminal, srcPool] at he; omega, rfl⟩

/-! ### Something done for each terminal -/

theorem foldl_at {α : Type} {g : Fin 32 → State → State} {v : State → Fin 32 → α}
    {h : Fin 32 → α → α} (hself : ∀ s t, v (g t s) t = h t (v s t))
    (hother : ∀ s t x, x ≠ t → v (g t s) x = v s x) {l : List (Fin 32)} (hl : l.Nodup) (s : State)
    (t : Fin 32) :
    v (l.foldl (fun s t => g t s) s) t = if t ∈ l then h t (v s t) else v s t := by
  induction l generalizing s with
  | nil => rfl
  | cons x xs ih =>
    obtain ⟨hx, hxs⟩ := List.nodup_cons.mp hl
    rw [List.foldl_cons, ih hxs]
    by_cases ht : t = x
    · subst ht
      rw [if_neg hx, if_pos List.mem_cons_self, hself]
    · rw [hother s x t ht]
      simp [ht]

/-- What is done for each terminal is done to a terminal's own record once, where it reaches no other's. -/
theorem forTerminals_at {α : Type} {g : Fin 32 → State → State} (v : State → Fin 32 → α)
    (h : Fin 32 → α → α) (hself : ∀ s t, v (g t s) t = h t (v s t))
    (hother : ∀ s t x, x ≠ t → v (g t s) x = v s x) (s : State) (t : Fin 32) :
    v (forTerminals g s) t = h t (v s t) := by
  rw [forTerminals, foldl_at hself hother (List.nodup_finRange 32), if_pos (List.mem_finRange t)]

/-- What each terminal's turn leaves alone is left alone. -/
theorem forTerminals_same {α : Type} {g : Fin 32 → State → State} (v : State → α)
    (h : ∀ s t, v (g t s) = v s) (s : State) : v (forTerminals g s) = v s := by
  unfold forTerminals
  induction List.finRange 32 generalizing s with
  | nil => rfl
  | cons x xs ih => rw [List.foldl_cons, ih, h]

/-! ### A spike -/

/-- A reference pane's record shows a story. -/
def Panes.shows (p : Panes) (id : Nat) : Bool :=
  match p.ref with
  | none => false
  | some r => r.story = id

theorem refShows_eq (s : State) (t : Fin 32) (id : Nat) :
    refShows s t id = s.panes[t].shows id := rfl

/-- What a spike may change of one terminal: its panes, its pending bit and its event set. -/
def paneView (s : State) (t : Fin 32) : Panes × Bool × TermEvents :=
  (s.panes[t], s.notices.pending[srcTerminal t], s.notices.terminal[t])

/-- A spike's change of one terminal (R115). -/
def spikeView (id : Nat) (v : Panes × Bool × TermEvents) : Panes × Bool × TermEvents :=
  if v.1.shows id then
    ({ session := v.1.session.map fun e => { e with focus := .edit }, ref := none }, true,
      v.2.2.addWindowClosed)
  else v

theorem paneView_spikePanes (id : Nat) (s : State) (t : Fin 32) :
    paneView (spikePanes id s) t = spikeView id (paneView s t) := by
  refine forTerminals_at paneView (fun _ => spikeView id) (fun s t => ?_) (fun s t x hx => ?_) s t
  · unfold spikeView
    by_cases hs : refShows s t id = true
    · rw [if_pos hs, if_pos (show (paneView s t).1.shows id = true from hs)]
      obtain ⟨hp, he⟩ := raiseTerminal_self t TermEvents.addWindowClosed (clearRef t s)
      exact Prod.ext (clearRef_self t s) (Prod.ext hp he)
    · rw [if_neg hs, if_neg (show ¬ (paneView s t).1.shows id = true from hs)]
  · split
    · obtain ⟨hp, he⟩ := raiseTerminal_other TermEvents.addWindowClosed (clearRef t s) hx
      exact Prod.ext (clearRef_other s hx) (Prod.ext hp he)
    · rfl

/-- POOL's part of the notices. -/
def poolView (s : State) : Bool × PoolSummary := (s.notices.pending[srcPool], s.notices.pool)

theorem pool_spikePanes (id : Nat) (s : State) :
    (spikePanes id s).notices.pending[srcPool] = s.notices.pending[srcPool] ∧
      (spikePanes id s).notices.pool = s.notices.pool := by
  have h : poolView (spikePanes id s) = poolView s := forTerminals_same poolView (fun s t => ?_) s
  · exact Prod.mk.inj h
  split
  · obtain ⟨hp, he⟩ := raiseTerminal_pool t TermEvents.addWindowClosed (clearRef t s)
    exact Prod.ext hp he
  · rfl

theorem spikeFit_list (id : Nat) (s : State) :
    (spikeFit id s).fit.list = s.fit.list.filter fun i => i.story ≠ id := by
  unfold spikeFit
  dsimp only
  split
  · rfl
  · rfl

theorem leaveBasket_baskets (b : Fin 64) (id : Nat) (s : State) (x : Fin 64) :
    (leaveBasket b id s).baskets[x] = { s.baskets[x] with
      list := if x = b then s.baskets[x].list.erase id else s.baskets[x].list } := by
  by_cases hx : x = b
  · subst hx
    rw [if_pos rfl]
    exact modBasket_self _ _ _
  · rw [if_neg hx]
    exact modBasket_other _ _ hx

/-- The state of a spike after the blocks are freed and the free count's rise is tested. -/
def freedState (id : Nat) (st : Story) (s : State) : State :=
  let s := { s with memory := freeChain s.memory st.chain, stories := Tab.erase s.stories id }
  if st.chain = [] then s else recoveryTest s

/-- The recovery test speaks of the free count, the pressure and POOL's record only. -/
theorem PoolTested.congr {rose : Bool} {s u w : State} (h : PoolTested rose s u)
    (hm : w.memory = u.memory) (hp : w.pressure = u.pressure)
    (hn : w.notices.pending[srcPool] = u.notices.pending[srcPool] ∧
      w.notices.pool = u.notices.pool) : PoolTested rose s w := by
  unfold PoolTested at h ⊢
  rw [hm, hp, hn.1, hn.2]
  exact h

theorem freedState_poolTested (id : Nat) (st : Story) (s : State) :
    PoolTested (decide (st.chain ≠ [])) s (freedState id st s) := by
  unfold freedState
  dsimp only
  by_cases hc : st.chain = []
  · rw [if_pos hc, decide_eq_false (not_not_intro hc)]
    exact PoolTested.of_keeps (keeps_copy s _ _) (by decide) (by decide)
  · rw [if_neg hc, decide_eq_true hc]
    exact recoveryTest_poolTested
      { s with memory := freeChain s.memory st.chain, stories := Tab.erase s.stories id }

theorem freedState_keeps (id : Nat) (st : Story) (s : State) :
    KeepsBut [.notices, .pressure]
      { s with memory := freeChain s.memory st.chain, stories := Tab.erase s.stories id }
      (freedState id st s) := by
  unfold freedState
  exact KeepsBut.ite (KeepsBut.refl _ _) (recoveryTest_keeps _)

/-- What stands before the panes' turn in a spike. -/
def beforePanes (id : Nat) (st : Story) (s : State) : State :=
  spikeFit id (leaveBasket st.basket id (freedState id st s))

theorem spike_eq (id : Nat) (st : Story) (s : State) :
    spike id st s = spikePanes id (beforePanes id st s) := rfl

theorem beforePanes_keeps (id : Nat) (st : Story) (s : State) :
    KeepsBut [.fit, .baskets] (freedState id st s) (beforePanes id st s) :=
  (spikeFit_keeps id _).step (by decide) ((leaveBasket_keeps _ _ _).mono (by decide))

theorem spike_memory_stories (id : Nat) (st : Story) (s : State) :
    (spike id st s).memory = freeChain s.memory st.chain ∧
      (spike id st s).stories = Tab.erase s.stories id := by
  have hp := spikePanes_keeps id (beforePanes id st s)
  have hb := beforePanes_keeps id st s
  have hf := freedState_keeps id st s
  exact ⟨(hp .memory (by decide)).trans ((hb .memory (by decide)).trans (hf .memory (by decide))),
    (hp .stories (by decide)).trans ((hb .stories (by decide)).trans (hf .stories (by decide)))⟩

theorem spike_poolTested (id : Nat) (st : Story) (s : State) :
    PoolTested (decide (st.chain ≠ [])) s (spike id st s) := by
  have hp := spikePanes_keeps id (beforePanes id st s)
  have hb := beforePanes_keeps id st s
  have hn : (beforePanes id st s).notices = (freedState id st s).notices := hb .notices (by decide)
  have hpool := pool_spikePanes id (beforePanes id st s)
  rw [hn] at hpool
  rw [spike_eq]
  refine (freedState_poolTested id st s).congr
    ((hp .memory (by decide)).trans (hb .memory (by decide)))
    ((hp .pressure (by decide)).trans (hb .pressure (by decide))) hpool

theorem spike_baskets (id : Nat) (st : Story) (s : State) (x : Fin 64) :
    (spike id st s).baskets[x] = { s.baskets[x] with
      list := if x = st.basket then s.baskets[x].list.erase id else s.baskets[x].list } := by
  have hp : (spike id st s).baskets = (leaveBasket st.basket id (freedState id st s)).baskets :=
    (spikePanes_keeps id _ .baskets (by decide)).trans (spikeFit_keeps id _ .baskets (by decide))
  have hf : (freedState id st s).baskets = s.baskets := freedState_keeps id st s .baskets (by decide)
  rw [hp, leaveBasket_baskets, hf]

theorem spike_fitList (id : Nat) (st : Story) (s : State) :
    (spike id st s).fit.list = s.fit.list.filter fun i => i.story ≠ id := by
  have hp : (spike id st s).fit = (beforePanes id st s).fit := spikePanes_keeps id _ .fit (by decide)
  have hf : (leaveBasket st.basket id (freedState id st s)).fit = s.fit :=
    (leaveBasket_keeps st.basket id _ .fit (by decide)).trans
      (freedState_keeps id st s .fit (by decide))
  rw [hp, beforePanes, spikeFit_list, hf]

/-- The recovery test raises POOL only: no terminal's event set is touched (R8). -/
theorem freedState_terminal (id : Nat) (st : Story) (s : State) :
    (freedState id st s).notices.terminal = s.notices.terminal := by
  unfold freedState recoveryTest
  dsimp only
  split
  · rfl
  · split
    · rfl
    · rfl

/-- A spike, terminal by terminal (R115). -/
theorem spike_terminal (id : Nat) (st : Story) (s : State) (t : Fin 32) :
    (refShows s t id = true → (spike id st s).panes[t].ref = none ∧
      (spike id st s).notices.pending[srcTerminal t] = true ∧
      (spike id st s).notices.terminal[t] = { s.notices.terminal[t] with windowClosed := true }) ∧
    (refShows s t id = false → (spike id st s).panes[t] = s.panes[t] ∧
      (spike id st s).notices.terminal[t] = s.notices.terminal[t]) := by
  have hview : paneView (spike id st s) t = spikeView id (paneView (beforePanes id st s) t) := by
    rw [spike_eq, paneView_spikePanes]
  have hb := beforePanes_keeps id st s
  have hpanes : (beforePanes id st s).panes = s.panes :=
    (hb .panes (by decide)).trans (freedState_keeps id st s .panes (by decide))
  have hterm : (beforePanes id st s).notices.terminal = s.notices.terminal :=
    (congrArg Notices.terminal (hb .notices (by decide))).trans (freedState_terminal id st s)
  have hshows : (paneView (beforePanes id st s) t).1.shows id = refShows s t id := by
    rw [refShows_eq, paneView, hpanes]
  constructor <;> intro hs
  · rw [spikeView, if_pos (hshows.trans hs)] at hview
    simp only [paneView, Prod.mk.injEq, hterm] at hview
    obtain ⟨hp, hpend, hevents⟩ := hview
    exact ⟨by rw [hp], hpend, hevents⟩
  · rw [spikeView, if_neg (by rw [hshows, hs]; decide)] at hview
    simp only [paneView, Prod.mk.injEq, hterm, hpanes] at hview
    obtain ⟨hp, -, hevents⟩ := hview
    exact ⟨hp, hevents⟩

theorem spikeStoryFreesEverything : Clause.SpikeStoryFreesEverything := by
  intro tag body s st hn ht
  refine ⟨refusesStory_of_own (own := ownSpikeStory) rfl ht hn rfl, fun h1 h2 hst => ?_⟩
  have hown : ownSpikeStory body (dropHead s) = _ := withStory_used h1 h2 hst
  refine ⟨fun hstale => ?_, fun hfresh hheld => ?_, fun hfresh hidle hm => ?_⟩
  · refine reads_of_own (own := ownSpikeStory) rfl ht hn ?_
    rw [hown, if_pos hstale]
    rfl
  · refine refuses_of_own (own := ownSpikeStory) rfl ht hn ?_
    rw [hown, if_neg (by rw [hfresh]; decide), if_pos hheld]
  · rw [if_neg (by rw [hfresh]; decide), if_neg (not_not_intro hidle)] at hown
    obtain ⟨hmem, hstories⟩ := spike_memory_stories (u16 body 0) st (dropHead s)
    refine replies_of_own (own := ownSpikeStory) rfl ht hn (congrArg Prod.snd hown) ?_ (by decide) ?_
    · rw [hown]
      dsimp only
      exact spike_keeps (u16 body 0) st (dropHead s)
    · rw [hown]
      have hbaskets := spike_baskets (u16 body 0) st (dropHead s)
      have hfit := spike_fitList (u16 body 0) st (dropHead s)
      have hpool := spike_poolTested (u16 body 0) st (dropHead s)
      have hterm := spike_terminal (u16 body 0) st (dropHead s)
      generalize spike (u16 body 0) st (dropHead s) = u at *
      exact ⟨hstories, fun b => (congrArg (Memory.read · b) hmem).trans (read_freeChain hm st.chain b),
        hbaskets, hfit, hpool, hterm⟩

/-! ### CLEAR MARKS -/

theorem isSetting_iff (h : Holding) : h.isSetting = true ↔ ∃ c, h = .setting c := by
  cases h <;> simp [Holding.isSetting]

theorem clearMarksClearsTheChainsFlags : Clause.ClearMarksClearsTheChainsFlags := by
  intro tag body s st hn ht
  refine ⟨refusesStory_of_own (own := ownClearMarks) rfl ht hn rfl, fun h1 h2 hst => ?_⟩
  have hown : ownClearMarks body (dropHead s) = _ := withStory_used h1 h2 hst
  refine ⟨fun hstale => ?_, fun hfresh hset => ?_, fun hfresh hset hm => ?_⟩
  · refine reads_of_own (own := ownClearMarks) rfl ht hn ?_
    rw [hown, if_pos hstale]
    rfl
  · refine refuses_of_own (own := ownClearMarks) rfl ht hn ?_
    rw [hown, if_neg (by rw [hfresh]; decide), if_pos ((isSetting_iff _).mpr hset)]
  · rw [if_neg (by rw [hfresh]; decide),
      if_neg fun h => let ⟨c, hc⟩ := (isSetting_iff _).mp h; hset c hc] at hown
    refine replies_of_own (own := ownClearMarks) rfl ht hn ?_ ?_ (by decide) ?_
    · rw [hown, List.countP_eq_length_filter]; rfl
    · rw [hown]; exact keeps_memory _ _
    · rw [hown]; exact read_clearFlags hm st.chain

/-- Settles O18: a spike is the recovery test after the blocks are freed, then one turn for each terminal's panes. -/
theorem spikeAndClearMarks : Obligations.SpikeAndClearMarks :=
  ⟨spikeStoryFreesEverything, clearMarksClearsTheChainsFlags⟩

end Sys2Proof.Machine
end

section
/-! SUPPORT. The orders that only read: what they answer does not depend on the link's queues, and they change nothing (R19, R23, R28, R32, R63, R98, R121, R139, R162, R165, R192). -/

namespace Sys2Proof.Machine

/-! ### Owners that only read -/

/-- An owner that changes nothing, and whose answer is the same once the order has left the inbound queue. -/
def OnlyReads (own : List Byte → State → Answer) : Prop :=
  ∀ b s, (own b s).1 = s ∧ (own b (dropHead s)).2 = (own b s).2

theorem reads_of_onlyReads {i : Instr} {kind tag : Byte} {body : List Byte} {s : State} {need : Nat}
    {own : List Byte → State → Answer} (ho : OnlyReads own)
    (hi : exec i s = .next (takeOrder kind need own tag body s)) (hn : need ≤ body.length)
    (ht : Takes ⟨kind, tag, body⟩ s) : Reads i kind tag (own body s).2 s :=
  reads_of_own hi ht hn (Prod.ext (ho body (dropHead s)).1 (ho body s).2)

/-- What an owner that only reads answers, in the words of a statement. -/
theorem reads_of_answer {i : Instr} {kind tag : Byte} {body : List Byte} {s : State} {need : Nat}
    {own : List Byte → State → Answer} {r : Reply} (ho : OnlyReads own)
    (hi : exec i s = .next (takeOrder kind need own tag body s)) (hn : need ≤ body.length)
    (ht : Takes ⟨kind, tag, body⟩ s) (hr : (own body s).2 = r) : Reads i kind tag r s :=
  hr ▸ reads_of_onlyReads ho hi hn ht

theorem ownReadStory_onlyReads : OnlyReads ownReadStory := by
  intro b s
  unfold ownReadStory withStory
  rw [storyOf_dropHead]
  split
  · exact ⟨rfl, rfl⟩
  · split
    · exact ⟨rfl, rfl⟩
    · exact ⟨rfl, rfl⟩

theorem ownReadText_onlyReads : OnlyReads ownReadText := by
  intro b s
  unfold ownReadText withStory
  rw [storyOf_dropHead]
  split
  · exact ⟨rfl, rfl⟩
  · split
    · exact ⟨rfl, rfl⟩
    · exact ⟨rfl, rfl⟩

theorem ownReadDesk_onlyReads : OnlyReads ownReadDesk := by
  intro b s
  unfold ownReadDesk
  split
  · exact ⟨rfl, rfl⟩
  · exact ⟨rfl, rfl⟩

theorem ownListBasket_onlyReads : OnlyReads ownListBasket := by
  intro b s
  unfold ownListBasket
  split
  · exact ⟨rfl, rfl⟩
  · exact ⟨rfl, rfl⟩

theorem ownReadClock_onlyReads : OnlyReads ownReadClock := fun _ _ => ⟨rfl, rfl⟩

theorem ownReadTerminal_onlyReads : OnlyReads ownReadTerminal := by
  intro b s
  unfold ownReadTerminal withTerminal
  split
  · exact ⟨rfl, rfl⟩
  · exact ⟨rfl, rfl⟩

theorem ownReadSession_onlyReads : OnlyReads ownReadSession := by
  intro b s
  unfold ownReadSession withTerminal
  split
  · exact ⟨rfl, rfl⟩
  · exact ⟨rfl, rfl⟩

theorem ownReadWidths_onlyReads : OnlyReads ownReadWidths := by
  intro b s
  unfold ownReadWidths
  split
  · exact ⟨rfl, rfl⟩
  · exact ⟨rfl, rfl⟩

theorem ownReadFitQueue_onlyReads : OnlyReads ownReadFitQueue := fun _ _ => ⟨rfl, rfl⟩

theorem ownReadChannel_onlyReads : OnlyReads ownReadChannel := by
  intro b s
  unfold ownReadChannel withChannel
  split
  · exact ⟨rfl, rfl⟩
  · exact ⟨rfl, rfl⟩

theorem ownReadWireLine_onlyReads : OnlyReads ownReadWireLine := by
  intro b s
  unfold ownReadWireLine
  split
  · exact ⟨rfl, rfl⟩
  · exact ⟨rfl, rfl⟩

theorem ownReadSelection_onlyReads : OnlyReads ownReadSelection := fun _ _ => ⟨rfl, rfl⟩

theorem ownQueryPart_onlyReads : OnlyReads ownQueryPart := fun _ _ => ⟨rfl, rfl⟩

theorem readingOrdersChangeNothing : Clause.ReadingOrdersChangeNothing := fun _ _ _ =>
  ⟨reads_of_onlyReads ownReadStory_onlyReads rfl,
    reads_of_onlyReads ownReadText_onlyReads rfl,
    reads_of_onlyReads ownReadDesk_onlyReads rfl,
    reads_of_onlyReads ownListBasket_onlyReads rfl,
    reads_of_onlyReads ownReadClock_onlyReads rfl (Nat.zero_le _),
    reads_of_onlyReads ownReadTerminal_onlyReads rfl,
    reads_of_onlyReads ownReadSession_onlyReads rfl,
    reads_of_onlyReads ownReadWidths_onlyReads rfl,
    reads_of_onlyReads ownReadFitQueue_onlyReads rfl (Nat.zero_le _),
    reads_of_onlyReads ownReadChannel_onlyReads rfl,
    reads_of_onlyReads ownReadWireLine_onlyReads rfl,
    reads_of_onlyReads ownReadSelection_onlyReads rfl (Nat.zero_le _),
    reads_of_onlyReads ownQueryPart_onlyReads rfl (Nat.zero_le _)⟩

/-! ### READ STORY and READ TEXT (R19, R23) -/

theorem ownReadText_answer {body : List Byte} {s : State} {st : Story} (h1 : 1 ≤ u16 body 0)
    (h2 : u16 body 0 ≤ 1024) (hst : storyOf s (u16 body 0) = some st) {off n : Nat}
    (hoff : off = min (u16 body 2) (lengthOf s st)) (hn : n = min (u16 body 4) 1000) :
    (ownReadText body s).2 = ⟨if off = u16 body 2 ∧ n = u16 body 4 then .ok else .clamped,
      e16 off ++ e16 (lengthOf s st) ++ eWord st.version ++
        e16 (((textOf s st).drop off).take n).length ++ ((textOf s st).drop off).take n⟩ := by
  unfold ownReadText
  rw [withStory_used h1 h2 hst]
  dsimp only
  rw [← hoff, ← hn]
  refine clampedIf_eq_not ?_ _
  rw [Bool.or_eq_true, decide_eq_true_iff, decide_eq_true_iff]
  tauto

theorem storiesAreReadInEveryState : Clause.StoriesAreReadInEveryState := by
  intro tag body s
  refine ⟨fun hn ht => ⟨refusesStory_of_own (own := ownReadStory) rfl ht hn rfl, ?_⟩,
    fun hn ht => ⟨refusesStory_of_own (own := ownReadText) rfl ht hn rfl, ?_⟩⟩
  · exact fun st h1 h2 hst => reads_of_answer ownReadStory_onlyReads rfl hn ht
      (congrArg Prod.snd (withStory_used h1 h2 hst))
  · exact fun st off n h1 h2 hst hoff hcount => reads_of_answer ownReadText_onlyReads rfl hn ht
      (ownReadText_answer h1 h2 hst hoff hcount)

/-! ### The records (R28, R32, R63, R98, R121, R139, R162, R165, R192) -/

section
variable {body : List Byte} {s : State}

theorem ownReadDesk_range (h : 16 ≤ u8 body 0) : ownReadDesk body s = refuse .range s := by
  unfold ownReadDesk
  rw [inRange_eq_none h]

theorem ownReadSession_range (h : 32 ≤ u8 body 0) : ownReadSession body s = refuse .range s := by
  unfold ownReadSession withTerminal
  rw [inRange_eq_none h]

theorem ownReadWidths_range (h : 8 ≤ u8 body 0) : ownReadWidths body s = refuse .range s := by
  unfold ownReadWidths
  rw [inRange_eq_none h]

theorem ownListBasket_range (h : 64 ≤ u8 body 0) : ownListBasket body s = refuse .range s := by
  unfold ownListBasket
  rw [inRange_eq_none h]

theorem ownReadTerminal_range (h : 32 ≤ u8 body 0) : ownReadTerminal body s = refuse .range s := by
  unfold ownReadTerminal withTerminal
  rw [inRange_eq_none h]

theorem ownReadChannel_range (h : 4 ≤ u8 body 0) : ownReadChannel body s = refuse .range s := by
  unfold ownReadChannel withChannel
  rw [inRange_eq_none h]

theorem ownReadWireLine_range (h : 4 ≤ u8 body 0) : ownReadWireLine body s = refuse .range s := by
  unfold ownReadWireLine
  rw [inRange_eq_none h]

end

theorem readRepliesCarryTheRecords : Clause.ReadRepliesCarryTheRecords := by
  intro tag body s
  refine ⟨fun hn ht => ⟨fun h => ?_, fun d hd => ?_⟩, fun hn ht => ⟨fun h => ?_, fun t hd => ?_⟩,
    fun hn ht => ⟨fun h => ?_, fun f hd => ?_⟩, fun hn ht h => ?_, fun hn ht h => ?_,
    fun hn ht h => ?_, fun hn ht h => ?_, fun ht => ?_⟩
  case refine_1 => exact refuses_of_own rfl ht hn (ownReadDesk_range h)
  case refine_2 =>
    refine reads_of_answer ownReadDesk_onlyReads rfl hn ht ?_
    unfold ownReadDesk
    rw [inRange_of_val hd]
    rfl
  case refine_3 => exact refuses_of_own rfl ht hn (ownReadSession_range h)
  case refine_4 =>
    refine reads_of_answer ownReadSession_onlyReads rfl hn ht ?_
    unfold ownReadSession withTerminal
    rw [inRange_of_val hd]
    rfl
  case refine_5 => exact refuses_of_own rfl ht hn (ownReadWidths_range h)
  case refine_6 =>
    refine reads_of_answer ownReadWidths_onlyReads rfl hn ht ?_
    unfold ownReadWidths
    rw [inRange_of_val hd]
    rfl
  case refine_7 => exact refuses_of_own rfl ht hn (ownListBasket_range h)
  case refine_8 => exact refuses_of_own rfl ht hn (ownReadTerminal_range h)
  case refine_9 => exact refuses_of_own rfl ht hn (ownReadChannel_range h)
  case refine_10 => exact refuses_of_own rfl ht hn (ownReadWireLine_range h)
  case refine_11 => exact reads_of_answer ownQueryPart_onlyReads rfl (Nat.zero_le _) ht rfl

theorem clampTo_eq (lo hi v : Nat) : clampTo lo hi v = max lo (min hi v) := rfl

theorem ownListBasket_answer {body : List Byte} {s : State} {b : Fin 64} {start n : Nat}
    (hb : u8 body 0 = b.val) (hstart : start = min (u16 body 1) s.baskets[b].list.length)
    (hn : n = max 1 (min 24 (u8 body 3))) :
    (ownListBasket body s).2 = ⟨if start = u16 body 1 ∧ n = u8 body 3 then .ok else .clamped,
      eFixed 12 s.baskets[b].name ++ e8 s.baskets[b].edition ++
        e8 (basketEditionCode s s.baskets[b]) ++ eDefault s.baskets[b].default ++
        e16 s.baskets[b].list.length ++
        ((s.baskets[b].list.drop start).take n).flatMap (eItem s)⟩ := by
  unfold ownListBasket
  rw [inRange_of_val hb]
  dsimp only
  rw [clampTo_eq, ← hstart, ← hn]
  refine clampedIf_eq_not ?_ _
  rw [Bool.or_eq_true, decide_eq_true_iff, decide_eq_true_iff]
  tauto

theorem currentStory_of {l : Wire} {id : Nat}
    (h : l.intake = .text id ∨ id = 0 ∧ ∀ x, l.intake ≠ .text x) : l.currentStory = id := by
  unfold Wire.currentStory
  rcases h with h | ⟨rfl, h⟩
  · rw [h]
  · split
    · next x hx => exact absurd hx (h x)
    · rfl

theorem WireSummary.code_eq (e : WireSummary) :
    e.code = (if e.character then 1 else 0) + (if e.overrun then 2 else 0) +
      (if e.header then 4 else 0) + (if e.cut then 8 else 0) := by
  simp [WireSummary.code, memberSum, Nat.add_assoc]

theorem longRepliesCarryTheRecords : Clause.LongRepliesCarryTheRecords := by
  intro tag body s
  refine ⟨fun b start n hn ht hb hstart hcount => ?_, fun t hn ht h => ?_, fun ht => ?_,
    fun c hn ht h => ?_, fun w id hn ht h hid => ?_⟩
  · exact reads_of_answer ownListBasket_onlyReads rfl hn ht (ownListBasket_answer hb hstart hcount)
  · refine reads_of_answer ownReadTerminal_onlyReads rfl hn ht ?_
    unfold ownReadTerminal withTerminal
    rw [inRange_of_val h]
    rfl
  · exact reads_of_answer ownReadFitQueue_onlyReads rfl (Nat.zero_le _) ht rfl
  · refine reads_of_answer ownReadChannel_onlyReads rfl hn ht ?_
    unfold ownReadChannel withChannel
    rw [inRange_of_val h]
    rfl
  · refine reads_of_answer ownReadWireLine_onlyReads rfl hn ht ?_
    unfold ownReadWireLine
    rw [inRange_of_val h]
    dsimp only
    rw [currentStory_of hid, WireSummary.code_eq]
    rfl

/-- Settles O19: each reading order's owner changes nothing and answers alike once the order has left the inbound queue. -/
theorem readsAnswerAndChangeNothing : Obligations.ReadsAnswerAndChangeNothing :=
  ⟨readingOrdersChangeNothing, storiesAreReadInEveryState, readRepliesCarryTheRecords,
    longRepliesCarryTheRecords⟩

end Sys2Proof.Machine
end

section
/-! SUPPORT. Display rows begin at rising offsets, the first at 0, so that a row's start lies on its own row (R102 to R104). -/

namespace Sys2Proof.Machine

/-! ### The rows of a text -/

/-- Rows with rising starts, the first at a given offset. -/
structure RowsFrom (start : Nat) (rows : List DRow) : Prop where
  rising : rows.Pairwise fun a b => a.start < b.start
  first : ∀ r, rows.head? = some r → r.start = start
  after : ∀ r ∈ rows, start ≤ r.start

theorem rowsFrom_rising (w n start : Nat) (rest : List Byte) (endRow : Bool) :
    RowsFrom start (rowsFrom w n start rest endRow) := by
  induction n generalizing start rest endRow with
  | zero => exact ⟨.nil, by simp [rowsFrom], by simp [rowsFrom]⟩
  | succ n ih =>
    cases rest with
    | nil => cases endRow <;> exact ⟨by simp [rowsFrom], by simp [rowsFrom], by simp [rowsFrom]⟩
    | cons c rest =>
      rw [rowsFrom]
      obtain ⟨hrising, -, hafter⟩ := ih (start + max 1 (rowLength w (c :: rest)))
        ((c :: rest).drop (max 1 (rowLength w (c :: rest))))
        (((c :: rest).take (max 1 (rowLength w (c :: rest)))).getLast? = some markCode)
      refine ⟨List.pairwise_cons.mpr ⟨fun r hr => ?_, hrising⟩, by simp, fun r hr => ?_⟩
      · have := hafter r hr
        dsimp only
        omega
      · rcases List.mem_cons.mp hr with rfl | hr
        · exact le_rfl
        · have := hafter r hr
          omega

theorem displayRows_rising (w : Nat) (text : List Byte) : RowsFrom 0 (displayRows w text) :=
  rowsFrom_rising _ _ _ _ _

theorem displayRows_ne_nil (w : Nat) (text : List Byte) : displayRows w text ≠ [] := by
  unfold displayRows
  cases text with
  | nil => simp [rowsFrom]
  | cons c rest => simp [rowsFrom]

/-! ### The row of an offset -/

/-- The rows that begin at or before an offset. -/
def rowsUpTo (rows : List DRow) (off : Nat) : List DRow := rows.takeWhile fun r => r.start ≤ off

theorem rowIndex_eq (rows : List DRow) (off : Nat) :
    rowIndex rows off = (rowsUpTo rows off).length - 1 := rfl

theorem rowAt_eq {rows : List DRow} {i : Nat} (h : i < rows.length) : rowAt rows i = rows[i] :=
  List.getD_eq_getElem _ _ h

theorem rowsUpTo_length {rows : List DRow} (h : rows.Pairwise fun a b => a.start < b.start) {i : Nat}
    (hi : i < rows.length) : (rowsUpTo rows rows[i].start).length = i + 1 := by
  induction rows generalizing i with
  | nil => cases hi
  | cons r rs ih =>
    obtain ⟨hr, hrs⟩ := List.pairwise_cons.mp h
    cases i with
    | zero =>
      have hnone : rowsUpTo rs r.start = [] := by
        cases rs with
        | nil => rfl
        | cons x xs => exact List.takeWhile_cons_of_neg (by simpa using hr x List.mem_cons_self)
      rw [List.getElem_cons_zero, rowsUpTo, List.takeWhile_cons_of_pos (by simp)]
      exact congrArg (·.length + 1) hnone
    | succ i =>
      have hlt := hr _ (List.getElem_mem (by simpa using hi))
      rw [List.getElem_cons_succ, rowsUpTo, List.takeWhile_cons_of_pos (by simpa using hlt.le)]
      exact congrArg (· + 1) (ih hrs (by simpa using hi))

/-- A row's start lies on that row. -/
theorem rowIndex_rowAt {start : Nat} {rows : List DRow} (h : RowsFrom start rows) {i : Nat}
    (hi : i < rows.length) : rowIndex rows (rowAt rows i).start = i := by
  rw [rowIndex_eq, rowAt_eq hi, rowsUpTo_length h.rising hi, Nat.add_sub_cancel]

section
variable {rows : List DRow} (h : RowsFrom 0 rows) (hne : rows ≠ []) (off : Nat)
include h hne

theorem rowsUpTo_pos : 0 < (rowsUpTo rows off).length := by
  cases rows with
  | nil => exact absurd rfl hne
  | cons r rs =>
    have hr := h.first r rfl
    rw [rowsUpTo, List.takeWhile_cons_of_pos (by simp [hr])]
    exact Nat.succ_pos _

theorem rowIndex_lt : rowIndex rows off < rows.length := by
  have hpos := rowsUpTo_pos h hne off
  have hle : (rowsUpTo rows off).length ≤ rows.length := List.IsPrefix.length_le (List.takeWhile_prefix _)
  rw [rowIndex_eq]
  omega

/-- An offset lies at or behind the start of its row. -/
theorem rowStart_le : rowStart rows off ≤ off := by
  have hpos := rowsUpTo_pos h hne off
  have hlt : rowIndex rows off < (rowsUpTo rows off).length := by rw [rowIndex_eq]; omega
  have hget := List.IsPrefix.getElem (List.takeWhile_prefix (l := rows) fun r => r.start ≤ off) hlt
  have hmem := List.mem_takeWhile_imp (List.getElem_mem hlt)
  rw [rowStart, rowAt_eq (rowIndex_lt h hne off), ← hget]
  exact of_decide_eq_true hmem

theorem rowStart_rowStart : rowStart rows (rowStart rows off) = rowStart rows off := by
  rw [rowStart, rowStart, rowIndex_rowAt h (rowIndex_lt h hne off)]

/-- Step 3 of R104 comes to a row that shows the cursor's row among its 22. -/
theorem topForCursor_row (cursor : Nat) : ∃ j, j < rows.length ∧
    topForCursor rows off cursor = (rowAt rows j).start ∧
    j = if rowIndex rows cursor < rowIndex rows off then rowIndex rows cursor
      else if rowIndex rows off + 21 < rowIndex rows cursor then rowIndex rows cursor - 21
      else rowIndex rows off := by
  have hoff := rowIndex_lt h hne off
  have hcur := rowIndex_lt h hne cursor
  unfold topForCursor
  dsimp only
  split
  · exact ⟨_, hcur, rfl, rfl⟩
  · split
    · exact ⟨_, by omega, rfl, rfl⟩
    · exact ⟨_, hoff, rfl, rfl⟩

end

theorem topAfterDelete_one (off point : Nat) :
    topAfterDelete off point 1 = if point < off then off - 1 else off := by
  unfold topAfterDelete
  split <;> omega

theorem topOffsetsBeginRowsAndShowTheCursor : Clause.TopOffsetsBeginRowsAndShowTheCursor := by
  rintro w text off cursor top rows rfl rfl
  have h := displayRows_rising w text
  have hne := displayRows_ne_nil w text
  obtain ⟨j, hj, htop, hrow⟩ := topForCursor_row h hne off cursor
  have hindex := rowIndex_rowAt h hj
  rw [htop]
  refine ⟨rowStart_rowStart h hne off, rowStart_le h hne off, by rw [rowStart, hindex], ?_, ?_,
    fun hlow hhigh => ?_, fun hbelow => ?_, fun habove => ?_,
    fun point => ⟨rfl, topAfterDelete_one off point⟩⟩
  · rw [hindex]
    split at hrow
    · omega
    · split at hrow <;> omega
  · rw [hindex]
    split at hrow
    · omega
    · split at hrow <;> omega
  · rw [if_neg (by omega), if_neg (by omega)] at hrow
    rw [hrow, rowStart]
  · rw [if_pos hbelow] at hrow
    rw [hrow, rowStart]
  · rw [if_neg (by omega), if_pos habove] at hrow
    rw [hindex]
    omega

end Sys2Proof.Machine
end

section
/-! SUPPORT. The text and delete keys: the decoder hands the key on at once, and a keystroke's text change has its effects on the story and on the panes (R67, R105 to R107, R112, R114). -/

namespace Sys2Proof.Machine

/-! ### The decoder -/

/-- A free decoder hands a key's code on at once (R67, R68). -/
theorem takeCode_free {s : State} {t : Fin 32} {c : Byte} {k : Key} (hfree : DecoderFree s t)
    (hprefix : c ≠ prefixCode) (hkey : plainKey c = some k) : takeCode t c s = handKey t k s := by
  obtain ⟨hattached, hpfx, hbatch, hrx⟩ := hfree
  have hdecode : decodeChar t c s = handKey t k s := by
    unfold decodeChar
    rw [hpfx, if_neg Bool.false_ne_true, if_neg hprefix, hkey]
  have hwait : s.lines[t].nothingWaits = true := by
    unfold Line.nothingWaits
    rw [hbatch, hrx]
    rfl
  unfold takeCode
  dsimp only
  rw [hattached, hbatch, hwait, hdecode]
  rfl

theorem plainKey_text {c : Byte} (h : isText c = true) : plainKey c = some (.text c) := if_pos h

theorem ne_prefixCode_of_isText {c : Byte} (h : isText c = true) : c ≠ prefixCode := by
  rintro rfl
  exact absurd h (by decide)

/-- In NORMAL an edit key comes to the open session with focus EDIT (R68, R105). -/
theorem withEdit_edits {s : State} {t : Fin 32} {e : Session} {st : Story} (h : Edits s t e st)
    (k : Session → Story → State) : withEdit t s k = k e st := by
  obtain ⟨-, hsession, hfocus, hst⟩ := h
  unfold withEdit
  rw [hsession]
  dsimp only
  rw [hfocus, hst]

theorem editKey_edits {s : State} {t : Fin 32} {e : Session} {st : Story} (h : Edits s t e st)
    (act : State → State) : editKey t act s = act s := if_pos h.1

section
variable {s : State} {t : Fin 32} {e : Session} {st : Story} (hfree : DecoderFree s t)
  (h : Edits s t e st)
include hfree h

theorem takeCode_text {c : Byte} (hc : isText c = true) : takeCode t c s =
    if replaces s e st then
      textEffects t e.story (e.cursor + 1) id
        { s with memory := replaceChar s.memory st.chain e.cursor c }
    else insertKey t c e st s := by
  rw [takeCode_free hfree (ne_prefixCode_of_isText hc) (plainKey_text hc)]
  exact (editKey_edits h _).trans (withEdit_edits h _)

theorem takeCode_paragraph : takeCode t 0x0D#8 s = insertKey t 0x0D#8 e st s := by
  rw [takeCode_free hfree (k := .paragraph) (by decide) (by decide)]
  exact (editKey_edits h _).trans (withEdit_edits h _)

theorem takeCode_deleteBack : takeCode t 0x08#8 s =
    if e.cursor = 0 then bell t s else deleteKey t e (e.cursor - 1) s := by
  rw [takeCode_free hfree (k := .deleteBack) (by decide) (by decide)]
  exact (editKey_edits h _).trans (withEdit_edits h _)

theorem takeCode_deleteForward : takeCode t 0x7F#8 s =
    if e.cursor < lengthOf s st then deleteKey t e e.cursor s else bell t s := by
  rw [takeCode_free hfree (k := .deleteForward) (by decide) (by decide)]
  exact (editKey_edits h _).trans (withEdit_edits h _)

end

/-! ### A keystroke's effects (R104, R112, R114) -/

theorem keepRefTop_session (s : State) (id : Nat) (move : Nat → Nat) (p : Panes) :
    (keepRefTop s id move p).session = p.session := by
  unfold keepRefTop
  split
  · split
    · rfl
    · rfl
  · rfl

theorem keepRefTops_session (id : Nat) (move : Nat → Nat) (s : State) (x : Fin 32) :
    (keepRefTops id move s).panes[x].session = s.panes[x].session := by
  show (Vector.ofFn fun t => keepRefTop s id move s.panes[t])[x.val].session = _
  rw [Vector.getElem_ofFn]
  exact keepRefTop_session _ _ _ _

/-- The panes of a keystroke: s the state with the changed text and version, before its panes are looked at. -/
def keyPanes (t : Fin 32) (cursor : Nat) (move : Nat → Nat) (s : State) : State :=
  keepSessionTop t move (modSession t (fun e => { e with cursor := cursor, modified := true }) s)

theorem textEffects_eq (t : Fin 32) (id cursor : Nat) (move : Nat → Nat) (s : State) :
    textEffects t id cursor move s =
      keepRefTops id move (keyPanes t cursor move (modStory id Story.textChanged s)) := rfl

theorem keyPanes_keeps (t : Fin 32) (cursor : Nat) (move : Nat → Nat) (s : State) :
    KeepsBut [.panes] s (keyPanes t cursor move s) :=
  (keepSessionTop_keeps t move _).step (by decide) (modPanes_keeps _ _ _)

theorem storyOf_of_stories {s u : State} (h : u.stories = s.stories) (id : Nat) :
    storyOf u id = storyOf s id := by
  unfold storyOf
  rw [h]

/-- Another terminal's panes are left alone. -/
theorem keyPanes_other {t x : Fin 32} (cursor : Nat) (move : Nat → Nat) (s : State) (hx : x ≠ t) :
    (keyPanes t cursor move s).panes[x] = s.panes[x] :=
  (modPanes_other _ _ hx).trans (modPanes_other _ _ hx)

/-- The session of the key's own terminal follows its cursor; the reference pane is left alone. -/
theorem keyPanes_self {t : Fin 32} {cursor : Nat} {move : Nat → Nat} {s : State} {e : Session}
    {st : Story} (he : s.panes[t].session = some e) (hst : storyOf s e.story = some st) :
    (keyPanes t cursor move s).panes[t].session = some { e with
      cursor := cursor, modified := true
      top := sessionTop s.lines[t].layout (textOf s st) (move e.top) cursor } ∧
    (keyPanes t cursor move s).panes[t].ref = s.panes[t].ref := by
  have hcursor : (modSession t (fun e => { e with cursor := cursor, modified := true }) s).panes[t] =
      { s.panes[t] with session := some { e with cursor := cursor, modified := true } } := by
    rw [modSession, modPanes_self, he]
    rfl
  have hst' : storyOf (modSession t (fun e => { e with cursor := cursor, modified := true }) s)
      e.story = some st := hst
  rw [keyPanes, keepSessionTop, modPanes_self, hcursor]
  dsimp only
  rw [hst']
  exact ⟨rfl, rfl⟩

/-- What a keystroke's text change leaves: s is the state with the changed text, whose story is st. -/
structure KeyEffects (t : Fin 32) (e : Session) (st : Story) (cursor : Nat) (move : Nat → Nat)
    (s u : State) : Prop where
  memory : u.memory = s.memory
  entry : storyOf u e.story = some st.textChanged
  others : ∀ id, id ≠ e.story → storyOf u id = storyOf s id
  session : u.panes[t].session = some { e with
    cursor := cursor, modified := true
    top := sessionTop s.lines[t].layout (textOf s st) (move e.top) cursor }
  sessions : ∀ x : Fin 32, x ≠ t → u.panes[x].session = s.panes[x].session
  refs : RefTopsFollow s u e.story (textOf s st) move

theorem textEffects_keyEffects {t : Fin 32} {cursor : Nat} {move : Nat → Nat} {s : State} {e : Session}
    {st : Story} (he : s.panes[t].session = some e) (hst : storyOf s e.story = some st) :
    KeyEffects t e st cursor move s (textEffects t e.story cursor move s) := by
  have hmod := modStory_keeps e.story Story.textChanged s
  have hkey := keyPanes_keeps t cursor move (modStory e.story Story.textChanged s)
  have hstories : ∀ id, storyOf (textEffects t e.story cursor move s) id =
      storyOf (modStory e.story Story.textChanged s) id := fun id => by
    rw [textEffects_eq, storyOf_keepRefTops]
    exact storyOf_of_stories (hkey .stories (by decide)) id
  have hentry : storyOf (modStory e.story Story.textChanged s) e.story = some st.textChanged := by
    rw [storyOf_modStory, if_pos rfl, hst]
    rfl
  have hmem : (keyPanes t cursor move (modStory e.story Story.textChanged s)).memory = s.memory :=
    (hkey .memory (by decide)).trans (hmod .memory (by decide))
  have hpanes : (modStory e.story Story.textChanged s).panes = s.panes := hmod .panes (by decide)
  have hlines : (modStory e.story Story.textChanged s).lines = s.lines := hmod .lines (by decide)
  have hmem' : (modStory e.story Story.textChanged s).memory = s.memory := hmod .memory (by decide)
  obtain ⟨hself, href⟩ := keyPanes_self (cursor := cursor) (move := move)
    (hpanes ▸ he : (modStory e.story Story.textChanged s).panes[t].session = some e) hentry
  refine ⟨?_, (hstories _).trans hentry, fun id hid => ?_, ?_, fun x hx => ?_, fun x => ?_⟩
  · exact (keepRefTops_keeps _ _ _ .memory (by decide)).trans hmem
  · rw [hstories, storyOf_modStory, if_neg hid]
  · rw [textEffects_eq, keepRefTops_session, hself, hlines, textOf, hmem']
    rfl
  · rw [textEffects_eq, keepRefTops_session, keyPanes_other _ _ _ hx, hpanes]
  · have hfollow := keepRefTops_refTopsFollow e.story move
      (keyPanes t cursor move (modStory e.story Story.textChanged s)) st.textChanged
      ((storyOf_of_stories (hkey .stories (by decide)) _).trans hentry) x
    have hrefs : (keyPanes t cursor move (modStory e.story Story.textChanged s)).panes[x].ref =
        s.panes[x].ref := by
      by_cases hx : x = t
      · rw [hx, href, hpanes]
      · rw [keyPanes_other _ _ _ hx, hpanes]
    rw [hrefs, textOf, hmem] at hfollow
    exact hfollow

/-! ### The text keys (R106, R113) -/

theorem storyOf_setText (id x : Nat) (st : Story) (m : Memory) (chain : List Nat) (s : State) :
    storyOf (setText id st m chain s) x = if x = id then some { st with chain := chain }
      else storyOf s x := storyOf_setStory _ _ _ _

theorem exec_textKey (t : Fin 32) (c : Byte) (s : State) :
    exec (.textKey t c) s = .next (settle (takeCode t c s)) := rfl

theorem exec_newParagraph (t : Fin 32) (s : State) :
    exec (.newParagraph t) s = .next (settle (takeCode t 0x0D#8 s)) := rfl

/-- A text key that replaces nothing, and the new paragraph key, insert their character. -/
theorem exec_insertKey {s : State} {t : Fin 32} {e : Session} {st : Story} {c : Byte} {i : Instr}
    (hfree : DecoderFree s t) (h : Edits s t e st)
    (hi : i = .textKey t c ∧ isText c = true ∧ replaces s e st = false ∨
      i = .newParagraph t ∧ c = 0x0D#8) : exec i s = .next (settle (insertKey t c e st s)) := by
  rcases hi with ⟨rfl, hc, hins⟩ | ⟨rfl, rfl⟩
  · rw [exec_textKey, takeCode_text hfree h hc, if_neg (by rw [hins]; decide)]
  · rw [exec_newParagraph, takeCode_paragraph hfree h]

theorem textKeysInsertAtTheCursor : Clause.TextKeysInsertAtTheCursor := by
  intro t c i s e st hfree h hi
  have hexec := exec_insertKey hfree h hi
  obtain ⟨-, hsession, -, hst⟩ := h
  refine ⟨fun m chain hmade => ?_, fun hcap => ?_, fun hempty => ?_⟩
  · have hkey : insertKey t c e st s = textEffects t e.story (e.cursor + 1)
        (fun top => topAfterInsert top e.cursor 1) (setText e.story st m chain s) := by
      simp only [insertKey, hmade]
    rw [hkey] at hexec
    have hentry : storyOf (setText e.story st m chain s) e.story = some { st with chain := chain } := by
      rw [storyOf_setText, if_pos rfl]
    obtain ⟨hmem, hstory, hothers, hown, hsessions, hrefs⟩ :=
      textEffects_keyEffects (t := t) (cursor := e.cursor + 1)
        (move := fun top => topAfterInsert top e.cursor 1) (s := setText e.story st m chain s)
        hsession hentry
    refine ⟨_, hexec, ?_, hmem, hstory, hown, hsessions, hrefs, fun id hid => ?_⟩
    · exact (textEffects_keeps _ _ _ _ _).step (by decide) ((setText_keeps _ _ _ _ _).mono (by decide))
    · rw [hothers id hid, storyOf_setText, if_neg hid]
  · have hkey : insertKey t c e st s = bell t s := by simp only [insertKey, hcap]
    rw [hkey] at hexec
    exact ⟨_, hexec, bell_keeps t s, rfl⟩
  · have hkey : insertKey t c e st s = poolPressed .empty (bell t s) := by
      simp only [insertKey, hempty]
    rw [hkey] at hexec
    refine ⟨_, hexec, ?_, rfl, rfl, Vector.getElem_set_self _, rfl⟩
    exact (poolPressed_keeps _ _).step (by decide) ((bell_keeps t s).mono (by decide))

theorem overtypeReplacesTheCharacter : Clause.OvertypeReplacesTheCharacter := by
  intro t c s e st hfree h hc hreplaces
  have hexec : exec (.textKey t c) s = .next (settle (textEffects t e.story (e.cursor + 1) id
      { s with memory := replaceChar s.memory st.chain e.cursor c })) := by
    rw [exec_textKey, takeCode_text hfree h hc, if_pos hreplaces]
  obtain ⟨-, hsession, -, hst⟩ := h
  obtain ⟨hmem, hstory, hothers, hown, hsessions, hrefs⟩ :=
    textEffects_keyEffects (t := t) (cursor := e.cursor + 1) (move := id)
      (s := { s with memory := replaceChar s.memory st.chain e.cursor c }) hsession hst
  refine ⟨_, hexec, ?_, hmem, hstory, ?_, hsessions, hothers⟩
  · exact (textEffects_keeps _ _ _ _ _).step (by decide) ((keeps_memory _ _).mono (by decide))
  · rintro text rfl
    rw [hmem]
    exact ⟨hown, hrefs⟩

/-- Settles O39, from a keystroke's effects on its story and the panes (KeyEffects) and the rising starts of display rows. -/
theorem textKeysInsertOrReplace : Obligations.TextKeysInsertOrReplace :=
  ⟨textKeysInsertAtTheCursor, overtypeReplacesTheCharacter, topOffsetsBeginRowsAndShowTheCursor⟩

/-! ### The delete keys (R107) -/

/-- The recovery test changes POOL's record of the notices only (R8). -/
theorem recoveryTest_notices (s : State) :
    (∀ i : Fin 48, i ≠ srcPool →
      (recoveryTest s).notices.pending[i] = s.notices.pending[i]) ∧
    { (recoveryTest s).notices with pending := s.notices.pending, pool := s.notices.pool } =
      s.notices := by
  unfold recoveryTest
  split
  · exact ⟨fun i hi => Vector.getElem_set_ne srcPool.isLt i.isLt fun he => hi (Fin.ext he.symm), rfl⟩
  · exact ⟨fun _ _ => rfl, rfl⟩

/-- A deletion tests for recovery exactly where it frees a block (R7, R8). -/
theorem deleteAt_poolTested {id k : Nat} {s : State} {st : Story} (hst : storyOf s id = some st) :
    PoolTested (deleteChar s.memory st.chain k).2.2 s (deleteAt id k s) ∧
    (∀ i : Fin 48, i ≠ srcPool →
      (deleteAt id k s).notices.pending[i] = s.notices.pending[i]) ∧
    { (deleteAt id k s).notices with pending := s.notices.pending, pool := s.notices.pool } =
      s.notices := by
  unfold deleteAt
  rw [hst]
  dsimp only
  cases hfreed : (deleteChar s.memory st.chain k).2.2 with
  | false =>
    exact ⟨PoolTested.of_keeps (setText_keeps _ _ _ _ _) (by decide) (by decide),
      fun _ _ => rfl, rfl⟩
  | true =>
    exact ⟨recoveryTest_poolTested (setText id st _ _ s), recoveryTest_notices (setText id st _ _ s)⟩

theorem exec_deleteKey {s : State} {t : Fin 32} {e : Session} {st : Story} {k : Nat} {i : Instr}
    (hfree : DecoderFree s t) (h : Edits s t e st)
    (hi : i = .deleteBack t ∧ e.cursor = k + 1 ∨
      i = .deleteForward t ∧ e.cursor = k ∧ k < lengthOf s st) :
    exec i s = .next (settle (deleteKey t e k s)) := by
  rcases hi with ⟨rfl, hk⟩ | ⟨rfl, hk, hlt⟩
  · refine congrArg (fun u => Host.Outcome.next (settle u)) ((takeCode_deleteBack hfree h).trans ?_)
    rw [if_neg (by omega), hk, Nat.add_sub_cancel]
  · refine congrArg (fun u => Host.Outcome.next (settle u)) ((takeCode_deleteForward hfree h).trans ?_)
    rw [hk, if_pos hlt]

/-- Settles O40, from a keystroke's effects on its story and the panes (KeyEffects) and what a deletion leaves of the pool's notice. -/
theorem deleteKeysTakeOneCharacter : Obligations.DeleteKeysTakeOneCharacter := by
  intro t s e st i k hfree h
  refine ⟨fun hzero => ?_, fun hend => ?_, fun hi => ?_⟩
  · exact ⟨bell t s, congrArg (fun u => Host.Outcome.next (settle u))
      ((takeCode_deleteBack hfree h).trans (if_pos hzero)), bell_keeps t s, rfl⟩
  · exact ⟨bell t s, congrArg (fun u => Host.Outcome.next (settle u))
      ((takeCode_deleteForward hfree h).trans (if_neg (Nat.not_lt.mpr hend))), bell_keeps t s, rfl⟩
  · have hexec := exec_deleteKey hfree h hi
    obtain ⟨-, hsession, -, hst⟩ := h
    obtain ⟨hstories, hmemory⟩ := deleteAt_store (k := k) hst
    obtain ⟨hpool, hpending, hnotices⟩ := deleteAt_poolTested (k := k) hst
    have hdel := deleteAt_keeps e.story k s
    have hpanes : (deleteAt e.story k s).panes = s.panes := hdel .panes (by decide)
    have hlines : (deleteAt e.story k s).lines = s.lines := hdel .lines (by decide)
    have hput : ∀ x, storyOf (deleteAt e.story k s) x = if x = e.story then
        some { st with chain := (deleteChar s.memory st.chain k).2.1 } else storyOf s x := fun x =>
      (storyOf_of_stories (u := deleteAt e.story k s)
        (s := setStory e.story { st with chain := (deleteChar s.memory st.chain k).2.1 } s)
        hstories x).trans (storyOf_setStory _ _ _ _)
    obtain ⟨hmem, hstory, hothers, hown, hsessions, hrefs⟩ :=
      textEffects_keyEffects (t := t) (cursor := k) (move := fun top => topAfterDelete top k 1)
        (hpanes ▸ hsession : (deleteAt e.story k s).panes[t].session = some e)
        ((hput e.story).trans (if_pos rfl))
    have hkeeps := textEffects_keeps t e.story k (fun top => topAfterDelete top k 1)
      (deleteAt e.story k s)
    have hn := hkeeps .notices (by decide)
    have hp := hkeeps .pressure (by decide)
    refine ⟨textEffects t e.story k (fun top => topAfterDelete top k 1) (deleteAt e.story k s), hexec,
      hkeeps.step (by decide) (hdel.mono (by decide)), hmem.trans hmemory, hstory, ?_,
      fun x hx => ?_, fun id hid => ?_, ?_, fun i hi => ?_, ?_⟩
    · rintro text rfl
      rw [hmem]
      refine ⟨?_, fun x => ?_⟩
      · rw [hown, hlines]
        rfl
      · rw [hrefs x, hpanes]
        rfl
    · rw [hsessions x hx, hpanes]
    · rw [hothers id hid, hput, if_neg hid]
    · exact hpool.congr hmem hp (hn ▸ ⟨rfl, rfl⟩)
    · exact (congrArg (·.pending[i]) hn).trans (hpending i hi)
    · exact (congrArg (fun n : Notices => { n with pending := s.notices.pending, pool := s.notices.pool })
        hn).trans hnotices

end Sys2Proof.Machine
end

section
/-! SUPPORT. What an automatic offer and the end of an edit session leave, and the orders OPEN WINDOW and CLOSE WINDOW (R14, R99 to R101, R116, R117, R134). -/

namespace Sys2Proof.Machine

/-! ### Automatic offers (R134) -/

theorem FitRecord.outdate_eq (f : FitRecord) :
    f.outdate = { f with status := if f.status = .pending then .pending else .unknown } := by
  unfold FitRecord.outdate
  split
  · next h => rw [← h]
  · rfl

section
variable {s : State} {id : Nat} {st : Story} (hst : storyOf s id = some st)
include hst

theorem autoOffer_unloaded (h : s.faces[st.setting.face].loaded = false) : autoOffer id s = s := by
  unfold autoOffer
  rw [hst]
  dsimp only
  rw [h]
  rfl

theorem autoOffer_listed (h : inFitQueue s id = true) : autoOffer id s = s := by
  unfold autoOffer
  rw [hst]
  dsimp only
  rw [if_pos h, ite_self]

theorem autoOffer_room (hl : s.faces[st.setting.face].loaded = true) (hq : inFitQueue s id = false)
    (h : s.fit.list.length < 8) : autoOffer id s = joinFitQueue id s := by
  unfold autoOffer
  rw [hst]
  dsimp only
  rw [hl, hq]
  exact if_pos h

theorem autoOffer_full (hl : s.faces[st.setting.face].loaded = true) (hq : inFitQueue s id = false)
    (h : 8 ≤ s.fit.list.length) :
    autoOffer id s = setStory id { st with fit := st.fit.outdate } s := by
  unfold autoOffer
  rw [hst]
  dsimp only
  rw [hl, hq]
  exact if_neg (Nat.not_lt.mpr h)

theorem storyOf_joinFitQueue : storyOf (joinFitQueue id s) id =
    some { st with fit := { st.fit with status := .pending } } := by
  unfold joinFitQueue setFitStatus
  rw [storyOf_modStory, if_pos rfl]
  exact congrArg (Option.map _) hst

/-- What an automatic offer leaves, in the words of the statements. -/
theorem autoOffer_offerTaken : OfferTaken s (autoOffer id s) id st := by
  refine ⟨fun h => ?_, fun hl hq => ⟨fun hroom => ?_, fun hfull => ?_⟩⟩
  · rcases h with h | h
    · rw [autoOffer_unloaded hst h]; exact ⟨rfl, hst⟩
    · rw [autoOffer_listed hst h]; exact ⟨rfl, hst⟩
  · rw [autoOffer_room hst hl hq hroom]
    refine ⟨?_, storyOf_joinFitQueue hst⟩
    exact modStory_keeps _ _ _ .fit (by decide)
  · rw [autoOffer_full hst hl hq hfull]
    refine ⟨rfl, ?_⟩
    rw [storyOf_setStory, if_pos rfl, FitRecord.outdate_eq]

end

/-- An offer changes its own story's entry only. -/
theorem autoOffer_others {id x : Nat} (s : State) (hx : x ≠ id) :
    storyOf (autoOffer id s) x = storyOf s x := by
  cases hst : storyOf s id with
  | none => unfold autoOffer; rw [hst]
  | some st =>
    unfold autoOffer joinFitQueue setFitStatus
    rw [hst]
    dsimp only
    split
    · rfl
    · split
      · rfl
      · split
        · rw [storyOf_modStory, if_neg hx]; rfl
        · rw [storyOf_setStory, if_neg hx]

/-- An offer is read from the Fit Queue and the faces before it, and from the Fit Queue and the story after it. -/
theorem OfferTaken.congr {s u s' u' : State} {id : Nat} {st : Story} (h : OfferTaken s u id st)
    (hfaces : s'.faces = s.faces) (hfit : s'.fit = s.fit) (hfit' : u'.fit = u.fit)
    (hst : storyOf u' id = storyOf u id) : OfferTaken s' u' id st := by
  unfold OfferTaken inFitQueue at h ⊢
  rw [hfaces, hfit, hfit', hst]
  exact h

theorem OfferTaken.entry {s u : State} {id : Nat} {st : Story} (h : OfferTaken s u id st) :
    ∃ f, storyOf u id = some { st with fit := f } := by
  obtain ⟨hnot, hoffer⟩ := h
  cases hl : s.faces[st.setting.face].loaded with
  | false => exact ⟨st.fit, (hnot (.inl hl)).2⟩
  | true =>
    cases hq : inFitQueue s id with
    | true => exact ⟨st.fit, (hnot (.inr hq)).2⟩
    | false =>
      obtain ⟨hroom, hfull⟩ := hoffer hl hq
      by_cases hlen : s.fit.list.length < 8
      · exact ⟨_, (hroom hlen).2⟩
      · exact ⟨_, (hfull (Nat.le_of_not_lt hlen)).2⟩

/-! ### The end of an edit session (R116) -/

theorem SessionEnded.congr {s u w : State} {e : Session} {st : Story} (h : SessionEnded s u e st)
    (hfit : w.fit = u.fit) (hst : storyOf w e.story = storyOf u e.story) : SessionEnded s w e st := by
  obtain ⟨hplain, hoffer⟩ := h
  refine ⟨fun hm => ?_, fun hm => (hoffer hm).congr rfl rfl hfit hst⟩
  rw [hfit, hst]
  exact hplain hm

/-- However a session ends, its story is IDLE and has all but its fit as before. -/
theorem SessionEnded.entry {s u : State} {e : Session} {st : Story} (h : SessionEnded s u e st) :
    ∃ f, storyOf u e.story = some { st with holding := .idle, fit := f } := by
  obtain ⟨hplain, hoffer⟩ := h
  cases hm : e.modified with
  | false => exact ⟨st.fit, (hplain hm).2⟩
  | true => exact (hoffer hm).entry

/-- The story of a session that ends is released, and offered where the session was modified (R116 steps 1 and 2). -/
def releasedSession (e : Session) (s : State) : State :=
  if e.modified then autoOffer e.story (release e.story s) else release e.story s

theorem releasedSession_keeps (e : Session) (s : State) :
    KeepsBut [.stories, .fit] s (releasedSession e s) :=
  KeepsBut.ite ((autoOffer_keeps e.story _).step (by decide)
    ((release_keeps e.story s).mono (by decide))) ((release_keeps e.story s).mono (by decide))

section
variable {s : State} {t : Fin 32} {e : Session} (he : s.panes[t].session = some e)
include he

theorem closeSession_open : closeSession t true s =
    modPanes t (fun p => { p with session := none }) (releasedSession e s) := by
  unfold closeSession
  rw [he]
  rfl

theorem closeSession_panes :
    (closeSession t true s).panes = s.panes.set t { s.panes[t] with session := none } := by
  rw [closeSession_open he, modPanes, releasedSession_keeps e s .panes (by decide)]

theorem closeSession_others {x : Nat} (hx : x ≠ e.story) :
    storyOf (closeSession t true s) x = storyOf s x := by
  have hrel : storyOf (release e.story s) x = storyOf s x := by
    rw [release, storyOf_modStory, if_neg hx]
  rw [closeSession_open he, releasedSession]
  split
  · exact (autoOffer_others _ hx).trans hrel
  · exact hrel

theorem closeSession_ended {st : Story} (hst : storyOf s e.story = some st) :
    SessionEnded s (closeSession t true s) e st := by
  have hrel : storyOf (release e.story s) e.story = some { st with holding := .idle } := by
    rw [release, storyOf_modStory, if_pos rfl, hst]
    rfl
  have hkeeps := release_keeps e.story s
  rw [closeSession_open he, releasedSession]
  refine ⟨fun hm => ?_, fun hm => ?_⟩
  · rw [hm]
    exact ⟨hkeeps .fit (by decide), hrel⟩
  · rw [hm]
    exact (autoOffer_offerTaken hrel).congr (hkeeps .faces (by decide)).symm
      (hkeeps .fit (by decide)).symm rfl rfl

end

theorem closeSession_closed {s : State} {t : Fin 32} (he : s.panes[t].session = none) :
    closeSession t true s = s := by
  unfold closeSession
  rw [he]

end Sys2Proof.Machine
end

section
/-! SUPPORT. The orders OPEN WINDOW and CLOSE WINDOW (R99 to R101, R116). -/

namespace Sys2Proof.Machine

/-! ### The edit pane opens (R100) -/

/-- Closing a session, or none, leaves no session and every other pane. -/
theorem panes_closeSession (t : Fin 32) (s : State) :
    (closeSession t true s).panes = s.panes.set t { s.panes[t] with session := none } := by
  cases he : s.panes[t].session with
  | some e => exact closeSession_panes he
  | none =>
    have hsame : ({ s.panes[t] with session := none } : Panes) = s.panes[t] := by rw [← he]
    rw [closeSession_closed he, hsame]
    exact (Vector.set_getElem_self t.isLt).symm

section
variable (t : Fin 32) (id off : Nat) (st : Story) (s : State)

/-- The story is claimed after the session open before has ended. -/
def claimed : State := claim id (.editing t) (closeSession t true s)

theorem claimed_keeps : KeepsBut [.stories, .fit, .panes] s (claimed t id s) :=
  (claim_keeps _ _ _).step (by decide) (closeSession_keeps t true s)

theorem openEdit_panes : (openEdit t id off st s).panes = s.panes.set t { s.panes[t] with
    session := some ⟨id, rowStart (displayRows (editWidth s.lines[t].layout) (textOf s st)) off, off,
      .insert, .edit, false⟩ } := by
  have hkeeps := claimed_keeps t id s
  have hpanes : (claimed t id s).panes = s.panes.set t { s.panes[t] with session := none } :=
    (claim_keeps id (.editing t) _ .panes (by decide)).trans (panes_closeSession t s)
  have hlines : (claimed t id s).lines = s.lines := hkeeps .lines (by decide)
  have hmem : (claimed t id s).memory = s.memory := hkeeps .memory (by decide)
  show (claimed t id s).panes.set t { (claimed t id s).panes[t] with session := some ⟨id,
    rowStart (displayRows (editWidth (claimed t id s).lines[t].layout)
      (chainText (claimed t id s).memory st.chain)) off, off, .insert, .edit, false⟩ } = _
  have hself : (s.panes.set t { s.panes[t] with session := none })[t] =
      { s.panes[t] with session := none } := Vector.getElem_set_self t.isLt
  rw [hlines, hmem, hpanes, Vector.set_set, hself]
  rfl

theorem storyOf_openEdit (x : Nat) : storyOf (openEdit t id off st s) x =
    if x = id then (storyOf (closeSession t true s) x).map fun st => { st with holding := .editing t }
    else storyOf (closeSession t true s) x := storyOf_modStory _ _ _ _

theorem openEdit_fit : (openEdit t id off st s).fit = (closeSession t true s).fit :=
  claim_keeps id (.editing t) _ .fit (by decide)

end

section
variable {t : Fin 32} {id off : Nat} {st : Story} {s : State}

/-- A story that no session of the terminal held is only claimed. -/
theorem openEdit_entry (hst : storyOf s id = some st)
    (h : ∀ e, s.panes[t].session = some e → e.story ≠ id) :
    storyOf (openEdit t id off st s) id = some { st with holding := .editing t } := by
  have hclosed : storyOf (closeSession t true s) id = some st := by
    cases he : s.panes[t].session with
    | none => rw [closeSession_closed he, hst]
    | some e => rw [closeSession_others he (h e he).symm, hst]
  rw [storyOf_openEdit, if_pos rfl, hclosed]
  rfl

/-- The story of the session open before is released and offered, and then claimed again. -/
theorem openEdit_reentry {e : Session} (he : s.panes[t].session = some e)
    (hst : storyOf s e.story = some st) :
    ∃ f, storyOf (openEdit t e.story off st s) e.story =
        some { st with holding := .editing t, fit := f } ∧
      SessionEnded s (setStory e.story { st with holding := .idle, fit := f }
        (openEdit t e.story off st s)) e st := by
  have hended := closeSession_ended he hst
  obtain ⟨f, hf⟩ := hended.entry
  refine ⟨f, ?_, hended.congr ?_ ?_⟩
  · rw [storyOf_openEdit, if_pos rfl, hf]
    rfl
  · exact openEdit_fit t e.story off st s
  · rw [storyOf_setStory, if_pos rfl, hf]

theorem openEdit_others {x : Nat} (hx : x ≠ id)
    (h : ∀ e, s.panes[t].session = some e → e.story ≠ x) :
    storyOf (openEdit t id off st s) x = storyOf s x := by
  rw [storyOf_openEdit, if_neg hx]
  cases he : s.panes[t].session with
  | none => rw [closeSession_closed he]
  | some e => exact closeSession_others he (h e he).symm

theorem openEdit_ended {e : Session} {old : Story} (he : s.panes[t].session = some e)
    (hne : e.story ≠ id) (hold : storyOf s e.story = some old) :
    SessionEnded s (openEdit t id off st s) e old :=
  (closeSession_ended he hold).congr (openEdit_fit _ _ _ _ _)
    ((storyOf_openEdit _ _ _ _ _ _).trans (if_neg hne))

end

/-- The claimed story, in the words of the statement. -/
theorem openEdit_claims {t : Fin 32} {id off : Nat} {st : Story} {s : State}
    (hst : storyOf s id = some st) :
    ∃ so, storyOf (openEdit t id off st s) id = some so ∧
      { so with fit := st.fit } = { st with holding := .editing t } ∧
      ((∀ e, s.panes[t].session = some e → e.story ≠ id) → so.fit = st.fit) ∧
      ∀ e, s.panes[t].session = some e → e.story = id →
        SessionEnded s (setStory e.story { so with holding := .idle } (openEdit t id off st s))
          e st := by
  by_cases h : ∀ e, s.panes[t].session = some e → e.story ≠ id
  · exact ⟨_, openEdit_entry hst h, rfl, fun _ => rfl, fun e he heq => absurd heq (h e he)⟩
  · push Not at h
    obtain ⟨e, he, rfl⟩ := h
    obtain ⟨f, hentry, hended⟩ := openEdit_reentry (off := off) he hst
    refine ⟨_, hentry, rfl, fun hnone => absurd rfl (hnone e he), fun e' he' _ => ?_⟩
    cases he.symm.trans he'
    exact hended

/-! ### The reference pane opens (R101) -/

theorem openRef_panes (t : Fin 32) (id off : Nat) (st : Story) (s : State) :
    (openRef t id off st s).panes = s.panes.set t
      ⟨if s.panes[t].ref = none then s.panes[t].session
        else s.panes[t].session.map fun e => { e with focus := .edit },
        some ⟨id, rowStart (displayRows 39 (textOf s st)) off⟩⟩ := by
  unfold openRef
  cases hr : s.panes[t].ref with
  | none =>
    rw [if_neg (by decide), if_pos rfl]
    rfl
  | some r =>
    rw [if_neg (Option.some_ne_none r)]
    show (s.panes.set t _).set t { (clearRef t s).panes[t] with
      ref := some ⟨id, rowStart (displayRows 39 (textOf s st)) off⟩ } = _
    rw [Vector.set_set, clearRef_self]

theorem refTop_openRef (t : Fin 32) (id off : Nat) (st : Story) (s : State) :
    refTop (openRef t id off st s) t = rowStart (displayRows 39 (textOf s st)) off := by
  unfold refTop
  rw [openRef_panes]
  have hself : (s.panes.set t ⟨if s.panes[t].ref = none then s.panes[t].session
      else s.panes[t].session.map fun e => { e with focus := .edit },
      some ⟨id, rowStart (displayRows 39 (textOf s st)) off⟩⟩)[t] = _ := Vector.getElem_set_self t.isLt
  rw [hself]

/-! ### OPEN WINDOW (R99) -/

theorem paneIsEdit_eq_none {n : Nat} (h : 2 ≤ n) : paneIsEdit n = none := by
  obtain ⟨k, rfl⟩ := Nat.exists_eq_add_of_le' h
  rfl

theorem ownOpenWindow_pane {body : List Byte} {s : State} (h : 32 ≤ u8 body 0 ∨ 2 ≤ u8 body 1) :
    ownOpenWindow body s = refuse .range s := by
  unfold ownOpenWindow
  rcases h with h | h
  · rw [inRange_eq_none h]
  · rw [paneIsEdit_eq_none h]
    split
    · next heq => cases heq
    · rfl

theorem ownOpenWindow_terminal {body : List Byte} {s : State} {t : Fin 32} {b : Bool}
    (h0 : u8 body 0 = t.val) (h1 : paneIsEdit (u8 body 1) = some b) :
    ∃ k, ownOpenWindow body s = withStory (u16 body 2) s k := by
  unfold ownOpenWindow
  rw [inRange_of_val h0, h1]
  exact ⟨_, rfl⟩

theorem paneIsEdit_of_lt {n : Nat} (h : n < 2) : ∃ b, paneIsEdit n = some b := by
  match n, h with
  | 0, _ => exact ⟨true, rfl⟩
  | 1, _ => exact ⟨false, rfl⟩

theorem openWindowChecksIdentities : Clause.OpenWindowChecksIdentities := by
  intro tag body s hn ht
  refine ⟨fun h => ?_, fun h0 h1 h2 h3 hnone => ?_⟩
  · refine refuses_of_own (own := ownOpenWindow) rfl ht hn ?_
    by_cases hpane : 32 ≤ u8 body 0 ∨ 2 ≤ u8 body 1
    · exact ownOpenWindow_pane hpane
    · obtain ⟨b, hb⟩ := paneIsEdit_of_lt (n := u8 body 1) (by omega)
      obtain ⟨k, hk⟩ := ownOpenWindow_terminal (s := dropHead s) (t := ⟨u8 body 0, by omega⟩) rfl hb
      rw [hk, withStory_range (by omega)]
  · refine refuses_of_own (own := ownOpenWindow) rfl ht hn ?_
    obtain ⟨b, hb⟩ := paneIsEdit_of_lt h1
    obtain ⟨k, hk⟩ := ownOpenWindow_terminal (s := dropHead s) (t := ⟨u8 body 0, h0⟩) rfl hb
    exact hk.trans (withStory_free h2 h3 hnone)

/-- What OPEN WINDOW answers once its terminal, its pane and its story are read. -/
theorem ownOpenWindow_read {body : List Byte} {s : State} {t : Fin 32} {st : Story} {isEdit : Bool}
    {off : Nat} (h0 : u8 body 0 = t.val) (hpane : paneIsEdit (u8 body 1) = some isEdit)
    (h1 : 1 ≤ u16 body 2) (h2 : u16 body 2 ≤ 1024) (hst : storyOf s (u16 body 2) = some st)
    (hoff : off = min (u16 body 4) (lengthOf s st)) :
    ownOpenWindow body s =
      if !s.lines[t].attached then refuse .noSuch s
      else if s.screens[t].mode ≠ .normal then refuse .busy s
      else if !maySee s t st then refuse .denied s
      else if isEdit then
        if !changeCheck s.lines[t].key st then refuse .denied s
        else if !mayHold t st then refuseWith .locked (eHolding st.holding) s
        else (openEdit t (u16 body 2) off st s,
          ⟨if off = u16 body 4 then .ok else .clamped,
            eWord st.version ++ e16 (lengthOf s st) ++ e16 off⟩)
      else if s.lines[t].layout = .full then refuse .range s
      else (openRef t (u16 body 2) off st s,
        ⟨if off = u16 body 4 then .ok else .clamped, eWord st.version ++ e16 (lengthOf s st) ++
          e16 (rowStart (displayRows 39 (textOf s st)) off)⟩) := by
  have hclamped : ∀ d, Reply.clampedIf (decide (off ≠ u16 body 4)) d =
      ⟨if off = u16 body 4 then .ok else .clamped, d⟩ := clampedIf_eq_not decide_eq_true_iff
  unfold ownOpenWindow
  rw [inRange_of_val h0, hpane]
  dsimp only
  rw [withStory_used h1 h2 hst, ← hoff, hclamped, hclamped, refTop_openRef]

theorem mayHold_iff (t : Fin 32) (st : Story) :
    mayHold t st = true ↔ st.holding = .idle ∨ st.holding = .editing t := by
  unfold mayHold
  rw [Bool.or_eq_true, decide_eq_true_iff, decide_eq_true_iff]

theorem paneIsEdit_some {n : Nat} (h : n ≤ 1) : paneIsEdit n = some (decide (n = 0)) := by
  match n, h with
  | 0, _ => rfl
  | 1, _ => rfl

section
variable {body : List Byte} {s : State} {t : Fin 32} {st : Story} {off : Nat}
  (h0 : u8 body 0 = t.val) (h1 : 1 ≤ u16 body 2) (h2 : u16 body 2 ≤ 1024)
  (hst : storyOf s (u16 body 2) = some st) (hoff : off = min (u16 body 4) (lengthOf s st))
include h0 h1 h2 hst hoff

theorem ownOpenWindow_detached (hpane : u8 body 1 ≤ 1) (ha : s.lines[t].attached = false) :
    ownOpenWindow body s = refuse .noSuch s := by
  rw [ownOpenWindow_read h0 (paneIsEdit_some hpane) h1 h2 hst hoff, ha]
  rfl

theorem ownOpenWindow_busy (hpane : u8 body 1 ≤ 1) (ha : s.lines[t].attached = true)
    (hmode : s.screens[t].mode ≠ .normal) : ownOpenWindow body s = refuse .busy s := by
  rw [ownOpenWindow_read h0 (paneIsEdit_some hpane) h1 h2 hst hoff, ha]
  exact if_pos hmode

section
variable (ha : s.lines[t].attached = true) (hmode : s.screens[t].mode = .normal)
include ha hmode

theorem ownOpenWindow_denied (hpane : u8 body 1 ≤ 1)
    (hdeny : maySee s t st = false ∨ (u8 body 1 = 0 ∧ changeCheck s.lines[t].key st = false)) :
    ownOpenWindow body s = refuse .denied s := by
  rw [ownOpenWindow_read h0 (paneIsEdit_some hpane) h1 h2 hst hoff, ha]
  refine (if_neg (not_not_intro hmode)).trans ?_
  cases hsee : maySee s t st with
  | false => rfl
  | true =>
    obtain ⟨hedit, hchange⟩ := hdeny.resolve_left (by rw [hsee]; decide)
    rw [hedit, hchange]
    rfl

theorem ownOpenWindow_ref (hsee : maySee s t st = true) (hpane : u8 body 1 = 1) :
    ownOpenWindow body s = if s.lines[t].layout = .full then refuse .range s
      else (openRef t (u16 body 2) off st s,
        ⟨if off = u16 body 4 then .ok else .clamped, eWord st.version ++ e16 (lengthOf s st) ++
          e16 (rowStart (displayRows 39 (textOf s st)) off)⟩) := by
  rw [ownOpenWindow_read h0 (paneIsEdit_some hpane.le) h1 h2 hst hoff, ha, hsee, hpane]
  exact if_neg (not_not_intro hmode)

theorem ownOpenWindow_edit (hsee : maySee s t st = true) (hpane : u8 body 1 = 0)
    (hchange : changeCheck s.lines[t].key st = true) :
    ownOpenWindow body s = if !mayHold t st then refuseWith .locked (eHolding st.holding) s
      else (openEdit t (u16 body 2) off st s,
        ⟨if off = u16 body 4 then .ok else .clamped,
          eWord st.version ++ e16 (lengthOf s st) ++ e16 off⟩) := by
  rw [ownOpenWindow_read h0 (paneIsEdit_some (by omega)) h1 h2 hst hoff, ha, hsee, hpane, hchange]
  exact if_neg (not_not_intro hmode)

end
end

theorem openWindowClaimsOrShows : Clause.OpenWindowClaimsOrShows := by
  intro tag body s t st off hn ht h0 h1 h2 hst hoff
  refine ⟨fun hpane => ?_, fun hpane ha => ?_, fun hpane ha hmode => ?_, fun hpane ha hmode =>
    ⟨fun hdeny => ?_, fun hsee href hfull => ?_, fun hsee href hsplit top htop => ?_,
      fun hsee hedit hchange => ⟨fun hidle hown => ?_, fun hfree => ?_⟩⟩⟩
  · exact refuses_of_own (own := ownOpenWindow) rfl ht hn (ownOpenWindow_pane (.inr hpane))
  · exact refuses_of_own (own := ownOpenWindow) rfl ht hn
      (ownOpenWindow_detached (s := dropHead s) h0 h1 h2 hst hoff hpane ha)
  · exact refuses_of_own (own := ownOpenWindow) rfl ht hn
      (ownOpenWindow_busy (s := dropHead s) h0 h1 h2 hst hoff hpane ha hmode)
  · exact refuses_of_own (own := ownOpenWindow) rfl ht hn
      (ownOpenWindow_denied (s := dropHead s) h0 h1 h2 hst hoff ha hmode hpane hdeny)
  · refine refuses_of_own (own := ownOpenWindow) rfl ht hn ?_
    exact (ownOpenWindow_ref (s := dropHead s) h0 h1 h2 hst hoff ha hmode hsee href).trans
      (if_pos hfull)
  · subst htop
    have hown := ownOpenWindow_ref (s := dropHead s) h0 h1 h2 hst hoff ha hmode hsee href
    rw [if_neg (show ¬ (dropHead s).lines[t].layout = .full by rw [dropHead_lines, hsplit]; decide)]
      at hown
    refine replies_of_own (own := ownOpenWindow) rfl ht hn (congrArg Prod.snd hown) ?_ (by decide) ?_
    · rw [hown]; exact openRef_keeps t (u16 body 2) off st (dropHead s)
    · rw [hown]; exact openRef_panes t (u16 body 2) off st (dropHead s)
  · have hlocked : mayHold t st = false :=
      Bool.eq_false_iff.mpr fun h => ((mayHold_iff t st).mp h).elim hidle hown
    refine reads_of_own (own := ownOpenWindow) rfl ht hn ?_
    rw [ownOpenWindow_edit (s := dropHead s) h0 h1 h2 hst hoff ha hmode hsee hedit hchange, hlocked]
    rfl
  · have hown := ownOpenWindow_edit (s := dropHead s) h0 h1 h2 hst hoff ha hmode hsee hedit hchange
    rw [(mayHold_iff t st).mpr hfree, if_neg (by decide)] at hown
    refine replies_of_own (own := ownOpenWindow) rfl ht hn (congrArg Prod.snd hown) ?_ (by decide) ?_
    · rw [hown]; exact openEdit_keeps t (u16 body 2) off st (dropHead s)
    · rw [hown]
      have hpanes := openEdit_panes t (u16 body 2) off st (dropHead s)
      have hclaims := openEdit_claims (t := t) (off := off) (s := dropHead s) hst
      have hclosed : s.panes[t].session = none →
          (openEdit t (u16 body 2) off st (dropHead s)).fit = (dropHead s).fit := fun he => by
        rw [openEdit_fit, closeSession_closed (s := dropHead s) he]
      have hended : ∀ e old, s.panes[t].session = some e → e.story ≠ u16 body 2 →
          storyOf s e.story = some old →
          SessionEnded s (openEdit t (u16 body 2) off st (dropHead s)) e old :=
        fun e old he hne hold => openEdit_ended (s := dropHead s) he hne hold
      have hothers : ∀ x, x ≠ u16 body 2 → (∀ e, s.panes[t].session = some e → e.story ≠ x) →
          storyOf (openEdit t (u16 body 2) off st (dropHead s)) x = storyOf s x :=
        fun x hx h => openEdit_others (s := dropHead s) hx h
      generalize openEdit t (u16 body 2) off st (dropHead s) = u at *
      exact ⟨hpanes, hclaims, hclosed, hended, hothers⟩

/-! ### CLOSE WINDOW (R116) -/

theorem ownCloseWindow_range {body : List Byte} {s : State} (h : 32 ≤ u8 body 0 ∨ 2 ≤ u8 body 1) :
    ownCloseWindow body s = refuse .range s := by
  unfold ownCloseWindow
  rcases h with h | h
  · rw [inRange_eq_none h]
  · rw [paneIsEdit_eq_none h]
    split
    · next heq => cases heq
    · next heq => cases heq
    · rfl

section
variable {body : List Byte} {s : State} {t : Fin 32} (h0 : u8 body 0 = t.val)
include h0

theorem ownCloseWindow_noSession (h1 : u8 body 1 = 0)
    (h : s.lines[t].attached = false ∨ s.panes[t].session = none) :
    ownCloseWindow body s = refuse .noSuch s := by
  unfold ownCloseWindow
  rw [inRange_of_val h0, show paneIsEdit (u8 body 1) = some true by rw [h1]; rfl]
  dsimp only
  rcases h with h | h
  · rw [h]
  · rw [h]
    split
    · next heq => cases heq
    · rfl

theorem ownCloseWindow_noRef (h1 : u8 body 1 = 1)
    (h : s.lines[t].attached = false ∨ s.panes[t].ref = none) :
    ownCloseWindow body s = refuse .noSuch s := by
  unfold ownCloseWindow
  rw [inRange_of_val h0, show paneIsEdit (u8 body 1) = some false by rw [h1]; rfl]
  dsimp only
  rcases h with h | h
  · rw [h]
  · rw [h]
    split
    · next heq => cases heq
    · rfl

theorem ownCloseWindow_session {e : Session} (h1 : u8 body 1 = 0) (ha : s.lines[t].attached = true)
    (he : s.panes[t].session = some e) : ownCloseWindow body s =
      (closeSession t true s,
        ⟨.ok, e16 e.story ++ eWord (versionNow s e.story) ++ eFlag e.modified⟩) := by
  unfold ownCloseWindow
  rw [inRange_of_val h0, show paneIsEdit (u8 body 1) = some true by rw [h1]; rfl]
  dsimp only
  rw [ha, he]

theorem ownCloseWindow_ref {r : RefPane} (h1 : u8 body 1 = 1) (ha : s.lines[t].attached = true)
    (hr : s.panes[t].ref = some r) : ownCloseWindow body s =
      (clearRef t s, ⟨.ok, e16 r.story⟩) := by
  unfold ownCloseWindow
  rw [inRange_of_val h0, show paneIsEdit (u8 body 1) = some false by rw [h1]; rfl]
  dsimp only
  rw [ha, hr]

end

theorem closeWindowReleasesTheStory : Clause.CloseWindowReleasesTheStory := by
  intro tag body s hn ht
  refine ⟨fun h => ?_, fun t h0 => ⟨fun h1 h => ?_, fun h1 h => ?_, fun e st h1 ha he hst => ?_,
    fun r h1 ha hr => ?_⟩⟩
  · exact refuses_of_own (own := ownCloseWindow) rfl ht hn (ownCloseWindow_range h)
  · exact refuses_of_own (own := ownCloseWindow) rfl ht hn
      (ownCloseWindow_noSession (s := dropHead s) h0 h1 h)
  · exact refuses_of_own (own := ownCloseWindow) rfl ht hn
      (ownCloseWindow_noRef (s := dropHead s) h0 h1 h)
  · have hown := ownCloseWindow_session (s := dropHead s) h0 h1 ha he
    have hversion : versionNow (dropHead s) e.story = st.version := by
      rw [versionNow, storyOf_dropHead, hst]
    rw [hversion] at hown
    refine replies_of_own (own := ownCloseWindow) rfl ht hn (congrArg Prod.snd hown) ?_ (by decide) ?_
    · rw [hown]; exact closeSession_keeps t true (dropHead s)
    · rw [hown]
      have hpanes := closeSession_panes (s := dropHead s) he
      have hended := closeSession_ended (s := dropHead s) he hst
      have hothers : ∀ id, id ≠ e.story → storyOf (closeSession t true (dropHead s)) id =
        storyOf s id := fun id hid => closeSession_others (s := dropHead s) he hid
      generalize closeSession t true (dropHead s) = u at *
      exact ⟨hpanes, hended, hothers⟩
  · have hown := ownCloseWindow_ref (s := dropHead s) h0 h1 ha hr
    refine replies_of_own (own := ownCloseWindow) rfl ht hn (congrArg Prod.snd hown) ?_ (by decide) ?_
    · rw [hown]; exact clearRef_keeps t (dropHead s)
    · rw [hown]
      have hself := clearRef_self t (dropHead s)
      have hothers : ∀ x : Fin 32, x ≠ t → (clearRef t (dropHead s)).panes[x] = s.panes[x] :=
        fun x hx => clearRef_other (dropHead s) hx
      generalize clearRef t (dropHead s) = u at *
      exact ⟨congrArg Panes.ref hself, congrArg Panes.session hself, hothers⟩

/-- Settles O42: both orders come to the end of an edit session (closeSession_ended) and a claim. -/
theorem windowsOpenAndClose : Obligations.WindowsOpenAndClose :=
  ⟨openWindowChecksIdentities, openWindowClaimsOrShows, closeWindowReleasesTheStory⟩

end Sys2Proof.Machine
end

section
/-! SUPPORT. What intake does with a wire line's character: a story's text grows by one character, or the story is filed and offered (R166, R172 to R178). -/

namespace Sys2Proof.Machine

/-! ### One wire line -/

theorem modWire_self (w : Fin 4) (f : Wire → Wire) (s : State) :
    (modWire w f s).wires[w] = f s.wires[w] := Vector.getElem_set_self w.isLt

theorem raiseWire_self (w : Fin 4) (f : WireSummary → WireSummary) (s : State) :
    (raiseWire w f s).notices.pending[srcWire w] = true ∧
      (raiseWire w f s).notices.wire[w] = f s.notices.wire[w] :=
  ⟨Vector.getElem_set_self _, Vector.getElem_set_self _⟩

/-- A wire line's source is not POOL. -/
theorem raiseWire_pool (w : Fin 4) (f : WireSummary → WireSummary) (s : State) :
    (raiseWire w f s).notices.pending[srcPool] = s.notices.pending[srcPool] ∧
      (raiseWire w f s).notices.pool = s.notices.pool :=
  ⟨Vector.getElem_set_ne (srcWire w).isLt srcPool.isLt fun he => by
      simp only [srcWire, srcPool] at he; omega, rfl⟩

/-! ### The head of the FIFO (R166) -/

/-- The characters behind the head are left in the FIFO. -/
def handed (w : Fin 4) (cs : List WireChar) (s : State) : State :=
  modWire w (fun l => { l with fifo := cs }) s

theorem handed_keeps (w : Fin 4) (cs : List WireChar) (s : State) :
    KeepsBut [.wires] s (handed w cs s) := modWire_keeps _ _ _

theorem handed_wires (w : Fin 4) (cs : List WireChar) (s : State) :
    (handed w cs s).wires = s.wires.set w { s.wires[w] with fifo := cs } := rfl

theorem handed_self (w : Fin 4) (cs : List WireChar) (s : State) :
    (handed w cs s).wires[w] = { s.wires[w] with fifo := cs } := modWire_self _ _ _

theorem handed_intake (w : Fin 4) (cs : List WireChar) (s : State) :
    (handed w cs s).wires[w].intake = s.wires[w].intake := by rw [handed_self]

/-- A character's loss mark is acted on after it (R166). -/
def lossTaken (w : Fin 4) (c : WireChar) (s : State) : State := if c.loss then intakeLoss w s else s

/-- A character's marks are acted on after it, its break mark last (R166). -/
def marksTaken (w : Fin 4) (c : WireChar) (s : State) : State :=
  if c.brk then intakeBreak w (lossTaken w c s) else lossTaken w c s

theorem takeIntake_cons {w : Fin 4} {s : State} {c : WireChar} {cs : List WireChar}
    (h : s.wires[w].fifo = c :: cs) :
    takeIntake w s = marksTaken w c (intakeChar w c (handed w cs s)) := by
  unfold takeIntake
  rw [h]
  rfl

theorem lossTaken_none {c : WireChar} (w : Fin 4) (s : State) (h : c.loss = false) :
    lossTaken w c s = s := by
  rw [lossTaken, h, if_neg Bool.false_ne_true]

theorem lossTaken_loss {c : WireChar} (w : Fin 4) (s : State) (h : c.loss = true) :
    lossTaken w c s = intakeLoss w s := if_pos h

theorem marksTaken_quiet {c : WireChar} (w : Fin 4) (s : State) (h : c.brk = false) :
    marksTaken w c s = lossTaken w c s := by
  rw [marksTaken, h, if_neg Bool.false_ne_true]

theorem marksTaken_break {c : WireChar} (w : Fin 4) (s : State) (h : c.brk = true) :
    marksTaken w c s = intakeBreak w (lossTaken w c s) := if_pos h

theorem exec_wireIntakeCharacter {w : Fin 4} {s : State} {c : WireChar} {cs : List WireChar}
    (h : s.wires[w].fifo = c :: cs) : exec (.wireIntakeCharacter w) s =
      .next (settle (marksTaken w c (intakeChar w c (handed w cs s)))) := by
  rw [← takeIntake_cons h]
  rfl

/-- An undamaged character with no marks. -/
theorem exec_wireIntakeCharacter_plain {w : Fin 4} {s : State} {code : Byte} {cs : List WireChar}
    (h : s.wires[w].fifo = ⟨code, false, false, false⟩ :: cs) : exec (.wireIntakeCharacter w) s =
      .next (settle (intakeChar w ⟨code, false, false, false⟩ (handed w cs s))) := by
  rw [exec_wireIntakeCharacter h, marksTaken_quiet _ _ rfl, lossTaken_none _ _ rfl]

section
variable {w : Fin 4} {s : State} {c : WireChar}

theorem intakeChar_text {id : Nat} (h : s.wires[w].intake = .text id) (hd : c.damaged = false) :
    intakeChar w c s = takeText w id c.code s := by
  unfold intakeChar
  rw [h]
  dsimp only
  rw [hd]
  rfl

theorem intakeChar_damaged {id : Nat} (h : s.wires[w].intake = .text id) (hd : c.damaged = true) :
    intakeChar w c s = storeDamaged w id s := by
  unfold intakeChar
  rw [h]
  dsimp only
  rw [hd]
  rfl

theorem intakeChar_header {got : List Byte} (h : s.wires[w].intake = .header got)
    (hd : c.damaged = false) : intakeChar w c s = takeHeading w got c.code s := by
  unfold intakeChar
  rw [h]
  dsimp only
  rw [hd]
  rfl

theorem intakeLoss_text {id : Nat} (h : s.wires[w].intake = .text id) :
    intakeLoss w s = garble id s := by
  unfold intakeLoss
  rw [h]

theorem intakeBreak_text {id : Nat} (h : s.wires[w].intake = .text id) :
    intakeBreak w s = fileStory w id true .hunt s := by
  unfold intakeBreak
  rw [h]

end

/-! ### The flash alert (R178) -/

/-- What a flash alert reads and changes of one terminal. -/
def alertView (s : State) (t : Fin 32) : Screen × Vector Line 32 × Vector Desk 16 × Nat :=
  (s.screens[t], s.lines, s.desks, s.now)

/-- A flash alert's change of one terminal. -/
def alertStep (st : Story) (t : Fin 32) (v : Screen × Vector Line 32 × Vector Desk 16 × Nat) :
    Screen × Vector Line 32 × Vector Desk 16 × Nat :=
  (if v.2.1[t].attached && (v.2.2.1[v.2.1[t].desk].row[st.basket]).take then
    { v.1 with flash := some ⟨st.slug.take 10, v.2.2.2⟩, bell := true } else v.1, v.2)

theorem modScreen_self (t : Fin 32) (f : Screen → Screen) (s : State) :
    (modScreen t f s).screens[t] = f s.screens[t] := Vector.getElem_set_self t.isLt

theorem modScreen_other {t x : Fin 32} (f : Screen → Screen) (s : State) (h : x ≠ t) :
    (modScreen t f s).screens[x] = s.screens[x] :=
  Vector.getElem_set_ne t.isLt x.isLt fun he => h (Fin.ext he.symm)

/-- The alert of a FLASH story at each terminal. -/
theorem alertView_forTerminals (st : Story) (s : State) (t : Fin 32) :
    alertView (forTerminals (fun t s =>
      if s.lines[t].attached && (rightsOver s t st.basket).take then flashAlert st.slug t s else s) s) t =
      alertStep st t (alertView s t) := by
  refine forTerminals_at alertView (alertStep st) (fun s t => ?_) (fun s t x hx => ?_) s t
  · unfold alertStep
    by_cases h : (s.lines[t].attached && (rightsOver s t st.basket).take) = true
    · rw [if_pos h, if_pos (show ((alertView s t).2.1[t].attached &&
        ((alertView s t).2.2.1[(alertView s t).2.1[t].desk].row[st.basket]).take) = true from h)]
      exact Prod.ext (modScreen_self t _ s) rfl
    · rw [if_neg h, if_neg (show ¬ ((alertView s t).2.1[t].attached &&
        ((alertView s t).2.2.1[(alertView s t).2.1[t].desk].row[st.basket]).take) = true from h)]
  · split
    · exact Prod.ext (modScreen_other _ s hx) rfl
    · rfl

/-- A terminal's screen after a story's alert. -/
def alertedScreen (st : Story) (t : Fin 32) (v : Screen × Vector Line 32 × Vector Desk 16 × Nat) :
    Screen :=
  if st.priority = .flash then (alertStep st t v).1 else v.1

theorem flashAlerts_screens (st : Story) (s : State) (t : Fin 32) :
    (flashAlerts st s).screens[t] = alertedScreen st t (alertView s t) := by
  unfold flashAlerts alertedScreen
  by_cases hf : st.priority = .flash
  · rw [if_pos hf, if_pos hf]
    have hview := congrArg Prod.fst (alertView_forTerminals st s t)
    exact hview
  · rw [if_neg hf, if_neg hf]
    rfl

/-- The alert in the words of the statements. -/
theorem alertedScreen_eq (st : Story) (s : State) (t : Fin 32) :
    alertedScreen st t (alertView s t) =
      if st.priority = .flash ∧ s.lines[t].attached = true ∧
        (s.desks[s.lines[t].desk].row[st.basket]).take = true then
        { s.screens[t] with flash := some ⟨st.slug.take 10, s.now⟩, bell := true }
      else s.screens[t] := by
  unfold alertedScreen
  by_cases hf : st.priority = .flash
  · rw [if_pos hf]
    unfold alertStep
    refine if_congr ?_ rfl rfl
    rw [Bool.and_eq_true]
    exact (and_iff_right hf).symm
  · rw [if_neg hf, if_neg fun h => hf h.1]
    rfl

/-! ### Filing (R174, R175) -/

/-- The summary of a line whose story is filed. -/
def WireSummary.filing (cut : Bool) (e : WireSummary) : WireSummary :=
  if cut then e.addFiled.addCut else e.addFiled

/-- A story that is filed, before it is offered: CUT where it is, released, and counted. -/
def beforeOffer (w : Fin 4) (id : Nat) (cut : Bool) (s : State) : State :=
  raiseWire w (WireSummary.filing cut)
    (release id (if cut then modStory id (fun st => { st with cut := true }) s else s))

theorem beforeOffer_keeps (w : Fin 4) (id : Nat) (cut : Bool) (s : State) :
    KeepsBut [.stories, .notices] s (beforeOffer w id cut s) :=
  (raiseWire_keeps _ _ _).step (by decide) ((release_keeps _ _).step (by decide)
    (KeepsBut.ite ((modStory_keeps _ _ _).mono (by decide)) (KeepsBut.refl _ _)))

theorem fileStory_eq (w : Fin 4) (id : Nat) (cut : Bool) (next : Intake) (s : State) :
    fileStory w id cut next s = setIntake w next
      (match storyOf (autoOffer id (beforeOffer w id cut s)) id with
      | none => autoOffer id (beforeOffer w id cut s)
      | some st => flashAlerts st (autoOffer id (beforeOffer w id cut s))) := rfl

theorem storyOf_beforeOffer {w : Fin 4} {id : Nat} {cut : Bool} {s : State} {st : Story}
    (hst : storyOf s id = some st) : storyOf (beforeOffer w id cut s) id =
      some { st with cut := st.cut || cut, holding := .idle } := by
  have hrelease : storyOf (beforeOffer w id cut s) id =
      storyOf (release id (if cut then modStory id (fun st => { st with cut := true }) s else s)) id :=
    rfl
  rw [hrelease, release, storyOf_modStory, if_pos rfl]
  cases cut with
  | false =>
    rw [if_neg Bool.false_ne_true, hst, Bool.or_false]
    rfl
  | true =>
    rw [if_pos rfl, storyOf_modStory, if_pos rfl, hst, Bool.or_true]
    rfl

/-- What filing a story leaves: s is the state before, st the story then. -/
structure Filed (w : Fin 4) (id : Nat) (cut : Bool) (next : Intake) (st : Story) (s u : State) :
    Prop where
  wires : u.wires = s.wires.set w { s.wires[w] with intake := next, silenceFrom := s.now }
  offer : OfferTaken s u id { st with cut := st.cut || cut, holding := .idle }
  pending : u.notices.pending[srcWire w] = true
  summary : u.notices.wire[w] = s.notices.wire[w].filing cut
  pool : u.notices.pending[srcPool] = s.notices.pending[srcPool] ∧
    u.notices.pool = s.notices.pool
  screens : ∀ t : Fin 32, u.screens[t] =
    if st.priority = .flash ∧ s.lines[t].attached = true ∧
      (s.desks[s.lines[t].desk].row[st.basket]).take = true then
      { s.screens[t] with flash := some ⟨st.slug.take 10, s.now⟩, bell := true }
    else s.screens[t]

theorem beforeOffer_notices (w : Fin 4) (id : Nat) (cut : Bool) (s : State) :
    (beforeOffer w id cut s).notices = (raiseWire w (WireSummary.filing cut) s).notices := by
  have hbase : (release id (if cut then modStory id (fun st => { st with cut := true }) s
      else s)).notices = s.notices :=
    (release_keeps id _ .notices (by decide)).trans
      (KeepsBut.ite (modStory_keeps id _ s) (KeepsBut.refl _ s) .notices (by decide))
  unfold beforeOffer raiseWire
  dsimp only
  rw [hbase]

theorem fileStory_filed {w : Fin 4} {id : Nat} {cut : Bool} {next : Intake} {s : State} {st : Story}
    (hst : storyOf s id = some st) : Filed w id cut next st s (fileStory w id cut next s) := by
  have hbefore := beforeOffer_keeps w id cut s
  have hoffer := autoOffer_offerTaken (storyOf_beforeOffer (w := w) (cut := cut) hst)
  obtain ⟨f, hf⟩ := hoffer.entry
  have hkeeps : KeepsBut [.stories, .notices, .fit] s (autoOffer id (beforeOffer w id cut s)) :=
    (autoOffer_keeps id _).step (by decide) (hbefore.mono (by decide))
  have hnotices : (autoOffer id (beforeOffer w id cut s)).notices =
      (raiseWire w (WireSummary.filing cut) s).notices :=
    (autoOffer_keeps id _ .notices (by decide)).trans (beforeOffer_notices w id cut s)
  rw [fileStory_eq, hf]
  dsimp only
  generalize autoOffer id (beforeOffer w id cut s) = o at *
  have halert := flashAlerts_keeps { st with cut := st.cut || cut, holding := .idle, fit := f } o
  have hscreens := flashAlerts_screens { st with cut := st.cut || cut, holding := .idle, fit := f } o
  generalize flashAlerts { st with cut := st.cut || cut, holding := .idle, fit := f } o = a at *
  have hnotices' : a.notices = (raiseWire w (WireSummary.filing cut) s).notices :=
    (halert .notices (by decide)).trans hnotices
  obtain ⟨hpending, hsummary⟩ := raiseWire_self w (WireSummary.filing cut) s
  obtain ⟨hpool, hpool'⟩ := raiseWire_pool w (WireSummary.filing cut) s
  rw [← hnotices'] at hpending hsummary hpool hpool'
  have hwires : a.wires = s.wires := (halert .wires (by decide)).trans (hkeeps .wires (by decide))
  have hnow : a.now = s.now := (halert .now (by decide)).trans (hkeeps .now (by decide))
  refine ⟨?_, ?_, hpending, hsummary, ⟨hpool, hpool'⟩, fun t => ?_⟩
  · rw [setIntake, modWire, hwires, hnow]
  · exact hoffer.congr (hbefore .faces (by decide)).symm (hbefore .fit (by decide)).symm
      (halert .fit (by decide)) (storyOf_of_stories (halert .stories (by decide)) id)
  · refine (hscreens t).trans ?_
    have hview : alertView o t = alertView s t := by
      unfold alertView
      rw [hkeeps .screens (by decide), hkeeps .lines (by decide), hkeeps .desks (by decide),
        hkeeps .now (by decide)]
    rw [hview]
    exact alertedScreen_eq st s t

end Sys2Proof.Machine
end

section
/-! SUPPORT. Wire intake: headings, storing and filing, damage and marks, silence (R13, R166 to R169, R171 to R176). -/

namespace Sys2Proof.Machine

/-! ### A character stored (R172, R173) -/

/-- What a store leaves: s is the state before, st the current story then. -/
structure Stored (id : Nat) (st : Story) (m : Memory) (chain : List Nat) (s u : State) : Prop where
  memory : u.memory = m
  entry : storyOf u id = some { st with
    chain := chain, version := st.version + 1
    fit := if st.fit.status = .pending then st.fit else { st.fit with status := .unknown } }
  refs : RefTopsFollow s u id (chainText m chain) fun top => topAfterInsert top (lengthOf s st) 1
  sessions : ∀ x : Fin 32, u.panes[x].session = s.panes[x].session

theorem stored_stored (id : Nat) (st : Story) (m : Memory) (chain : List Nat) (s : State) :
    Stored id st m chain s (stored id st m chain s) := by
  have hentry : storyOf (modStory id Story.textChanged (setText id st m chain s)) id =
      some { st with chain := chain }.textChanged := by
    rw [storyOf_modStory, if_pos rfl, storyOf_setText, if_pos rfl]
    rfl
  have hmod := modStory_keeps id Story.textChanged (setText id st m chain s)
  have hpanes : (modStory id Story.textChanged (setText id st m chain s)).panes = s.panes :=
    hmod .panes (by decide)
  refine ⟨memory_textChanged id _ _, ?_, fun x => ?_, fun x => ?_⟩
  · exact (storyOf_keepRefTops id _ _ id).trans hentry
  · have hfollow := keepRefTops_refTopsFollow id (fun top => topAfterInsert top (lengthOf s st) 1)
      (modStory id Story.textChanged (setText id st m chain s)) _ hentry x
    rw [hpanes, textOf, hmod .memory (by decide)] at hfollow
    exact hfollow
  · rw [stored, keepRefTops_session, hpanes]

section
variable {w : Fin 4} {s : State} {id : Nat} {st : Story} {code : Byte} (hst : storyOf s id = some st)
include hst

theorem storeChar_made {m : Memory} {chain : List Nat}
    (hroom : needsBlock s.memory st.chain (lengthOf s st) = true → s.reserve < Memory.freeCount s.memory)
    (hmade : insertChar s.memory st.chain (lengthOf s st) code = .made m chain) :
    storeChar w id code s = stored id st m chain s := by
  have hcap : ¬ atCap s.memory st.chain (lengthOf s st) = true := fun h => by
    rw [insertChar_atCap_iff.mpr h] at hmade
    cases hmade
  have hlow : ¬ (needsBlock s.memory st.chain (lengthOf s st) &&
      decide (Memory.freeCount s.memory ≤ s.reserve)) = true := fun h => by
    obtain ⟨hneed, hle⟩ := Bool.and_eq_true_iff.mp h
    have := of_decide_eq_true hle
    have := hroom hneed
    omega
  unfold storeChar
  rw [hst]
  dsimp only
  rw [if_neg hcap, if_neg hlow, hmade]

theorem storeChar_atCap (h : atCap s.memory st.chain (lengthOf s st) = true) :
    storeChar w id code s = fileStory w id true .skip s := by
  unfold storeChar
  rw [hst]
  dsimp only
  rw [if_pos h]

theorem storeChar_low (hcap : atCap s.memory st.chain (lengthOf s st) = false)
    (hneed : needsBlock s.memory st.chain (lengthOf s st) = true)
    (hfree : Memory.freeCount s.memory ≤ s.reserve) :
    storeChar w id code s = fileStory w id true .skip (poolPressed .low s) := by
  unfold storeChar
  rw [hst]
  dsimp only
  rw [hcap, if_neg Bool.false_ne_true, hneed, decide_eq_true hfree]
  rfl

end

theorem storyOf_garble {s : State} {id : Nat} {st : Story} (h : storyOf s id = some st) :
    storyOf (garble id s) id = some { st with garbled := true } := by
  rw [garble, storyOf_modStory, if_pos rfl, h]
  rfl

/-! ### Good characters in TEXT (R172) -/

theorem isText_or_mark {c : Byte} : (isText c || c = 0x0D#8) = true ↔ isText c = true ∨ c = 0x0D#8 := by
  rw [Bool.or_eq_true, decide_eq_true_iff]

section
variable {w : Fin 4} {id : Nat} {s : State} {c : Byte}

theorem takeText_store (h : isText c = true ∨ c = 0x0D#8) :
    takeText w id c s = storeChar w id c s := if_pos (isText_or_mark.mpr h)

theorem takeText_file {cut : Bool} (h : c = 0x03#8 ∧ cut = false ∨ c = 0x01#8 ∧ cut = true) :
    takeText w id c s = fileStory w id cut (if cut then .header [] else .hunt) s := by
  rcases h with ⟨rfl, rfl⟩ | ⟨rfl, rfl⟩
  · rfl
  · rfl

theorem takeText_other (h : isText c = false) (h1 : c ≠ 0x0D#8) (h2 : c ≠ 0x03#8) (h3 : c ≠ 0x01#8) :
    takeText w id c s = s := by
  unfold takeText
  rw [if_neg (fun hc => (isText_or_mark.mp hc).elim (by rw [h]; decide) h1)]
  exact (if_neg h2).trans (if_neg h3)

end

/-! ### Storing and filing (R172 to R175) -/

theorem filed_filing (cut : Bool) (e : WireSummary) : (e.filing cut).filed = min 255 (e.filed + 1) := by
  cases cut <;> rfl

/-- The line's record after a story is filed while the head of its FIFO is in hand. -/
theorem Filed.handed_wires {w : Fin 4} {id : Nat} {cut : Bool} {next : Intake} {st : Story}
    {s v u : State} {cs : List WireChar} (h : Filed w id cut next st v u)
    (hv : v.wires = (handed w cs s).wires) (hnow : v.now = s.now) :
    u.wires = s.wires.set w { s.wires[w] with fifo := cs, intake := next, silenceFrom := s.now } := by
  rw [h.wires, hv, hnow, handed_self, Machine.handed_wires, Vector.set_set]

theorem wire_of_set {u s : State} {w : Fin 4} {l : Wire} (h : u.wires = s.wires.set w l) :
    u.wires[w] = l ∧ ∀ x : Fin 4, x ≠ w → u.wires[x] = s.wires[x] := by
  rw [h]
  exact ⟨Vector.getElem_set_self w.isLt, fun x hx =>
    Vector.getElem_set_ne w.isLt x.isLt fun he => hx (Fin.ext he.symm)⟩

theorem intakeStoresAndFiles : Clause.IntakeStoresAndFiles := by
  intro w s id st code cs hfifo hintake hst
  have hexec : exec (.wireIntakeCharacter w) s =
      .next (settle (takeText w id code (handed w cs s))) := by
    rw [exec_wireIntakeCharacter_plain hfifo,
      intakeChar_text ((handed_intake w cs s).trans hintake) rfl]
  have hst' : storyOf (handed w cs s) id = some st := hst
  have hhand := handed_keeps w cs s
  refine ⟨fun m chain hc hroom hmade => ?_, fun hc hfull => ?_, fun cut hc => ?_,
    fun h0 h1 h2 h3 => ?_⟩
  · rw [takeText_store hc, storeChar_made hst' hroom hmade] at hexec
    have hkeeps := stored_keeps id st m chain (handed w cs s)
    obtain ⟨hmem, hentry, hrefs, hsessions⟩ := stored_stored id st m chain (handed w cs s)
    exact ⟨_, hexec, hkeeps.step (by decide) (hhand.mono (by decide)),
      hkeeps .wires (by decide), hmem, hentry, hrefs, hsessions⟩
  · rw [takeText_store hc] at hexec
    cases hcap : atCap s.memory st.chain (lengthOf s st) with
    | true =>
      rw [storeChar_atCap hst' hcap] at hexec
      have hfiled := fileStory_filed (w := w) (cut := true) (next := .skip) hst'
      have hkeeps := fileStory_keeps w id true .skip (handed w cs s)
      generalize fileStory w id true .skip (handed w cs s) = u at *
      obtain ⟨hself, hother⟩ := wire_of_set (hfiled.handed_wires (cs := cs) (s := s) rfl rfl)
      exact ⟨u, hexec, hkeeps.step (by decide) (hhand.mono (by decide)),
        congrArg Wire.intake hself, congrArg Wire.fifo hself,
        Bool.or_true st.cut ▸ hfiled.offer.congr rfl rfl rfl rfl, hother, hfiled.pending,
        hfiled.summary, fun h => by cases h⟩
    | false =>
      obtain ⟨hneed, hfree⟩ := hfull.resolve_left (by rw [hcap]; decide)
      rw [storeChar_low hst' hcap hneed hfree] at hexec
      have hfiled := fileStory_filed (w := w) (cut := true) (next := .skip)
        (s := poolPressed .low (handed w cs s)) hst'
      have hpressed := poolPressed_keeps (handed w cs s) .low
      have hkeeps := fileStory_keeps w id true .skip (poolPressed .low (handed w cs s))
      obtain ⟨hpend, hpool⟩ := hfiled.pool
      have hpool' : (poolPressed .low (handed w cs s)).notices.pending[srcPool] = true :=
        Vector.getElem_set_self _
      generalize fileStory w id true .skip (poolPressed .low (handed w cs s)) = u at *
      obtain ⟨hself, hother⟩ := wire_of_set (hfiled.handed_wires (cs := cs) (s := s) rfl rfl)
      exact ⟨u, hexec, hkeeps.step (by decide) (hpressed.step (by decide) (hhand.mono (by decide))),
        congrArg Wire.intake hself, congrArg Wire.fifo hself,
        Bool.or_true st.cut ▸ hfiled.offer.congr rfl rfl rfl rfl, hother, hfiled.pending,
        hfiled.summary, fun _ => ⟨hkeeps .pressure (by decide), hpend.trans hpool',
          congrArg PoolSummary.cond hpool⟩⟩
  · rw [takeText_file hc] at hexec
    have hfiled := fileStory_filed (w := w) (cut := cut)
      (next := if cut then .header [] else .hunt) hst'
    have hkeeps := fileStory_keeps w id cut (if cut then .header [] else .hunt) (handed w cs s)
    generalize fileStory w id cut (if cut then .header [] else .hunt) (handed w cs s) = u at *
    obtain ⟨hself, hother⟩ := wire_of_set (hfiled.handed_wires (cs := cs) (s := s) rfl rfl)
    exact ⟨u, hexec, hkeeps.step (by decide) (hhand.mono (by decide)),
      congrArg Wire.intake hself, congrArg Wire.fifo hself, hfiled.offer.congr rfl rfl rfl rfl, hother,
      hfiled.pending, (congrArg WireSummary.filed hfiled.summary).trans (filed_filing _ _),
      hfiled.screens⟩
  · rw [takeText_other h0 h1 h2 h3] at hexec
    exact ⟨_, hexec, hhand, rfl⟩

/-! ### Damage, loss and breaks in TEXT (R166, R172, R175) -/

/-- The state in which a damaged character's "?" is stored. -/
def damagedState (w : Fin 4) (id : Nat) (s : State) : State :=
  garble id (raiseWire w WireSummary.addCharacter s)

theorem damagedState_keeps (w : Fin 4) (id : Nat) (s : State) :
    KeepsBut [.stories, .notices] s (damagedState w id s) :=
  (garble_keeps _ _).step (by decide) ((raiseWire_keeps _ _ _).mono (by decide))

theorem damagedState_notices (w : Fin 4) (id : Nat) (s : State) :
    (damagedState w id s).notices.pending[srcWire w] = true ∧
      (damagedState w id s).notices.wire[w] = { s.notices.wire[w] with character := true } := by
  have hn : (damagedState w id s).notices = (raiseWire w WireSummary.addCharacter s).notices :=
    garble_keeps _ _ .notices (by decide)
  rw [hn]
  exact raiseWire_self w _ s

/-- A loss mark in TEXT. -/
theorem lossTaken_text {w : Fin 4} (c : WireChar) {id : Nat} {s : State} {st : Story}
    (hintake : s.wires[w].intake = .text id) (hst : storyOf s id = some st) :
    KeepsBut [.stories] s (lossTaken w c s) ∧
      storyOf (lossTaken w c s) id = some { st with garbled := st.garbled || c.loss } := by
  cases hl : c.loss with
  | false =>
    rw [lossTaken_none w s hl, Bool.or_false]
    exact ⟨KeepsBut.refl _ _, hst⟩
  | true =>
    rw [lossTaken_loss w s hl, intakeLoss_text hintake, Bool.or_true]
    exact ⟨garble_keeps id s, storyOf_garble hst⟩

theorem damageLossAndBreakInText : Clause.DamageLossAndBreakInText := by
  intro w s id st c cs hintake hst
  have hst' : storyOf (handed w cs s) id = some st := hst
  have hintake' := (handed_intake w cs s).trans hintake
  have hhand := handed_keeps w cs s
  refine ⟨fun m chain hfifo hd hb hroom hmade => ?_, fun m chain hfifo hd hl hb hc hroom hmade => ?_,
    fun hfifo hd hb h0 h1 h2 h3 => ?_, fun hfifo => ?_⟩
  · have hexec := exec_wireIntakeCharacter hfifo
    have hstd : storyOf (damagedState w id (handed w cs s)) id = some { st with garbled := true } :=
      storyOf_garble hst'
    have hdam := damagedState_keeps w id (handed w cs s)
    have hmem : (damagedState w id (handed w cs s)).memory = s.memory :=
      (hdam .memory (by decide)).trans (hhand .memory (by decide))
    have hchar : intakeChar w c (handed w cs s) =
        stored id { st with garbled := true } m chain (damagedState w id (handed w cs s)) := by
      rw [intakeChar_damaged hintake' hd]
      refine storeChar_made hstd ?_ ?_
      · rw [lengthOf, hmem, hdam .reserve (by decide)]; exact hroom
      · rw [lengthOf, hmem]; exact hmade
    rw [hchar] at hexec
    have hkeeps := stored_keeps id { st with garbled := true } m chain
      (damagedState w id (handed w cs s))
    obtain ⟨hmemory, hentry, -, -⟩ := stored_stored id { st with garbled := true } m chain
      (damagedState w id (handed w cs s))
    obtain ⟨hpending, hsummary⟩ := damagedState_notices w id (handed w cs s)
    generalize stored id { st with garbled := true } m chain
      (damagedState w id (handed w cs s)) = v at *
    have hwires : v.wires = (handed w cs s).wires :=
      (hkeeps .wires (by decide)).trans (hdam .wires (by decide))
    have hnotices : v.notices = (damagedState w id (handed w cs s)).notices :=
      hkeeps .notices (by decide)
    obtain ⟨hmarks, hlast⟩ := lossTaken_text (w := w) c (by rw [hwires]; exact hintake') hentry
    rw [marksTaken_quiet _ _ hb] at hexec
    rw [← hnotices, ← hmarks .notices (by decide)] at hpending hsummary
    exact ⟨_, hexec, hmarks.step (by decide) (hkeeps.step (by decide) (hdam.step (by decide)
      (hhand.mono (by decide)))), (hmarks .wires (by decide)).trans hwires,
      (hmarks .memory (by decide)).trans hmemory, hlast, hpending, hsummary⟩
  · have hexec := exec_wireIntakeCharacter hfifo
    rw [intakeChar_text hintake' hd, takeText_store hc, storeChar_made hst' hroom hmade] at hexec
    have hkeeps := stored_keeps id st m chain (handed w cs s)
    obtain ⟨hmemory, hentry, -, -⟩ := stored_stored id st m chain (handed w cs s)
    generalize stored id st m chain (handed w cs s) = v at *
    have hwires : v.wires = (handed w cs s).wires := hkeeps .wires (by decide)
    obtain ⟨hmarks, hlast⟩ := lossTaken_text (w := w) c (by rw [hwires]; exact hintake') hentry
    rw [marksTaken_quiet _ _ hb] at hexec
    rw [hl, Bool.or_true] at hlast
    exact ⟨_, hexec, hmarks.step (by decide) (hkeeps.step (by decide) (hhand.mono (by decide))),
      (hmarks .wires (by decide)).trans hwires, (hmarks .memory (by decide)).trans hmemory, hlast⟩
  · have hexec := exec_wireIntakeCharacter hfifo
    obtain ⟨hloss, hentry⟩ := lossTaken_text (w := w) c hintake' hst'
    have hwires : (lossTaken w c (handed w cs s)).wires = (handed w cs s).wires :=
      hloss .wires (by decide)
    have hnotices : (lossTaken w c (handed w cs s)).notices = s.notices := hloss .notices (by decide)
    rw [intakeChar_text hintake' hd, takeText_other h0 h1 h2 h3, marksTaken_break _ _ hb,
      intakeBreak_text (by rw [hwires]; exact hintake')] at hexec
    have hfiled := fileStory_filed (w := w) (cut := true) (next := .hunt) hentry
    have hkeeps := fileStory_keeps w id true .hunt (lossTaken w c (handed w cs s))
    have hsummary := hfiled.summary
    rw [hnotices] at hsummary
    generalize fileStory w id true .hunt (lossTaken w c (handed w cs s)) = u at *
    obtain ⟨hself, -⟩ := wire_of_set
      (hfiled.handed_wires (cs := cs) (s := s) hwires (hloss .now (by decide)))
    have hoffer := hfiled.offer.congr (hloss .faces (by decide)).symm (hloss .fit (by decide)).symm
      rfl rfl
    rw [Bool.or_true] at hoffer
    exact ⟨u, hexec, hkeeps.step (by decide) (hloss.step (by decide) (hhand.mono (by decide))),
      congrArg Wire.intake hself, congrArg Wire.fifo hself, hoffer, hfiled.pending, hsummary⟩
  · have hexec : exec (.wireBreak w) s = .next (settle (fileStory w id true .hunt s)) := by
      rw [← intakeBreak_text hintake]
      exact congrArg (fun u => Host.Outcome.next (settle u)) (if_pos hfifo)
    have hfiled := fileStory_filed (w := w) (cut := true) (next := .hunt) hst
    have hkeeps := fileStory_keeps w id true .hunt s
    generalize fileStory w id true .hunt s = u at *
    obtain ⟨hself, -⟩ := wire_of_set hfiled.wires
    have hoffer := hfiled.offer
    rw [Bool.or_true] at hoffer
    exact ⟨u, hexec, hkeeps.mono (by decide), congrArg Wire.intake hself,
      (congrArg Wire.fifo hself).trans hfifo, hoffer, hfiled.pending, hfiled.summary⟩

end Sys2Proof.Machine
end

section
/-! SUPPORT. Wire intake outside TEXT, the silence limit, and the heading that makes a story (R13, R31, R167 to R171, R176). -/

namespace Sys2Proof.Machine

/-! ### HEADER and SKIP (R167, R168) -/

theorem setIntake_self (w : Fin 4) (i : Intake) (s : State) :
    (setIntake w i s).wires[w] = { s.wires[w] with intake := i, silenceFrom := s.now } :=
  modWire_self _ _ _

theorem setIntake_wires (w : Fin 4) (i : Intake) (s : State) : (setIntake w i s).wires =
    s.wires.set w { s.wires[w] with intake := i, silenceFrom := s.now } := rfl

/-- A paragraph mark fits no position behind the sixth. -/
theorem headingFits_mark {n : Nat} (h : 6 ≤ n) : headingFits n 0x0D#8 = false := by
  obtain ⟨k, rfl⟩ := Nat.exists_eq_add_of_le' h
  rfl

section
variable {w : Fin 4} {s : State} {c : WireChar} {got : List Byte}

theorem takeHeading_fits {code : Byte} (hfit : headingFits got.length code = true)
    (hsoh : code ≠ 0x01#8) : takeHeading w got code s =
      modWire w (fun l =>
        { l with intake := .header (if got.length < 21 then got ++ [code] else got) }) s := by
  have hmark : ¬ (code = 0x0D#8 && decide (6 ≤ got.length)) = true := fun h => by
    obtain ⟨hcode, hlen⟩ := Bool.and_eq_true_iff.mp h
    rw [of_decide_eq_true hcode, headingFits_mark (of_decide_eq_true hlen)] at hfit
    cases hfit
  unfold takeHeading
  exact (if_neg hsoh).trans ((if_neg hmark).trans (if_pos hfit))

theorem intakeChar_skip (h : s.wires[w].intake = .skip) (hsoh : c.code ≠ 0x01#8) :
    intakeChar w c s = s := by
  have hnot : ¬ (c.code = sohCode && !c.damaged) = true := fun hc =>
    hsoh (of_decide_eq_true (Bool.and_eq_true_iff.mp hc).1)
  unfold intakeChar
  rw [h]
  exact if_neg hnot

theorem intakeLoss_header (h : s.wires[w].intake = .header got) :
    intakeLoss w s = setIntake w .skip s := by
  unfold intakeLoss
  rw [h]

theorem intakeLoss_skip (h : s.wires[w].intake = .skip) : intakeLoss w s = s := by
  unfold intakeLoss
  rw [h]

/-- A break outside TEXT ends a heading, and SKIP. -/
theorem intakeBreak_hunt (h : (∃ got, s.wires[w].intake = .header got) ∨ s.wires[w].intake = .skip) :
    intakeBreak w s = setIntake w .hunt s := by
  unfold intakeBreak
  rcases h with ⟨got, h⟩ | h
  · rw [h]
  · rw [h]

/-- A loss mark in HEADER leaves the FIFO, and HEADER or SKIP. -/
theorem lossTaken_header (c : WireChar) (h : s.wires[w].intake = .header got) :
    KeepsBut [.wires] s (lossTaken w c s) ∧ (lossTaken w c s).wires[w].fifo = s.wires[w].fifo ∧
      ((∃ got, (lossTaken w c s).wires[w].intake = .header got) ∨
        (lossTaken w c s).wires[w].intake = .skip) := by
  cases hl : c.loss with
  | false =>
    rw [lossTaken_none w s hl]
    exact ⟨KeepsBut.refl _ _, rfl, .inl ⟨got, h⟩⟩
  | true =>
    have hself := setIntake_self w .skip s
    rw [lossTaken_loss w s hl, intakeLoss_header h]
    exact ⟨setIntake_keeps w .skip s, by rw [hself], .inr (by rw [hself])⟩

end

/-- A heading in hand, its last character taken from the FIFO. -/
def headingGrown (w : Fin 4) (cs : List WireChar) (got : List Byte) (s : State) : State :=
  modWire w (fun l => { l with intake := .header got }) (handed w cs s)

theorem headingGrown_self (w : Fin 4) (cs : List WireChar) (got : List Byte) (s : State) :
    (headingGrown w cs got s).wires[w] = { s.wires[w] with fifo := cs, intake := .header got } := by
  rw [headingGrown, modWire_self, handed_self]

theorem headingGrown_keeps (w : Fin 4) (cs : List WireChar) (got : List Byte) (s : State) :
    KeepsBut [.wires] s (headingGrown w cs got s) :=
  (modWire_keeps _ w _).step (by decide) (handed_keeps w cs s)

theorem marksOutsideText : Clause.MarksOutsideText := by
  intro w s c cs hfifo hd
  have hexec := exec_wireIntakeCharacter hfifo
  have hhand := handed_keeps w cs s
  refine ⟨fun got hintake hsoh hl hb => ?_, fun got hintake hfit hsoh hl hb => ?_,
    fun got hintake hfit hsoh hb => ?_, fun hintake hsoh hb => ?_⟩
  · rw [intakeChar_header ((handed_intake w cs s).trans hintake) hd, marksTaken_quiet _ _ hb,
      lossTaken_none _ _ hl, hsoh] at hexec
    exact ⟨headingGrown w cs [] s, hexec, headingGrown_keeps w cs [] s,
      headingGrown_self w cs [] s⟩
  · rw [intakeChar_header ((handed_intake w cs s).trans hintake) hd, takeHeading_fits hfit hsoh,
      marksTaken_quiet _ _ hb, lossTaken_loss _ _ hl, ← headingGrown] at hexec
    have hgrown := headingGrown_self w cs (if got.length < 21 then got ++ [c.code] else got) s
    have hkeeps := headingGrown_keeps w cs (if got.length < 21 then got ++ [c.code] else got) s
    generalize headingGrown w cs (if got.length < 21 then got ++ [c.code] else got) s = v at *
    rw [intakeLoss_header (congrArg Wire.intake hgrown)] at hexec
    have hself := setIntake_self w .skip v
    exact ⟨_, hexec, (setIntake_keeps w .skip v).step (by decide) hkeeps, by rw [hself],
      by rw [hself, hgrown]⟩
  · rw [intakeChar_header ((handed_intake w cs s).trans hintake) hd, takeHeading_fits hfit hsoh,
      marksTaken_break _ _ hb, ← headingGrown] at hexec
    have hgrown := headingGrown_self w cs (if got.length < 21 then got ++ [c.code] else got) s
    have hkeeps := headingGrown_keeps w cs (if got.length < 21 then got ++ [c.code] else got) s
    generalize headingGrown w cs (if got.length < 21 then got ++ [c.code] else got) s = v at *
    obtain ⟨hloss, hkept, hstate⟩ := lossTaken_header c (congrArg Wire.intake hgrown)
    rw [intakeBreak_hunt hstate] at hexec
    have hself := setIntake_self w .hunt (lossTaken w c v)
    exact ⟨_, hexec, (setIntake_keeps w .hunt _).step (by decide) (hloss.step (by decide) hkeeps),
      by rw [hself], by rw [hself]; exact hkept.trans (by rw [hgrown])⟩
  · have hskip : (handed w cs s).wires[w].intake = .skip := (handed_intake w cs s).trans hintake
    have hloss : lossTaken w c (handed w cs s) = handed w cs s := by
      cases hl : c.loss with
      | false => exact lossTaken_none _ _ hl
      | true => rw [lossTaken_loss _ _ hl, intakeLoss_skip hskip]
    rw [intakeChar_skip hskip hsoh, marksTaken_break _ _ hb, hloss,
      intakeBreak_hunt (.inr hskip)] at hexec
    have hself := setIntake_self w .hunt (handed w cs s)
    exact ⟨_, hexec, (setIntake_keeps w .hunt _).step (by decide) hhand, by rw [hself],
      by rw [hself, handed_self]⟩

/-! ### Silence (R176) -/

theorem exec_wireSilenceExpiry (w : Fin 4) (s : State) :
    exec (.wireSilenceExpiry w) s = .next (settle (silenceExpires w s)) := rfl

/-- The state in which the silence limit is reached. -/
def silenceReached (w : Fin 4) (s : State) : State :=
  advanceTo (s.wires[w].silenceFrom + Config.silenceMs) s

theorem silenceReached_now (w : Fin 4) (s : State) :
    (silenceReached w s).now = max s.now (s.wires[w].silenceFrom + 90000) := rfl

section
variable {w : Fin 4} {s : State}

theorem silenceExpires_text {id : Nat} (hfifo : s.wires[w].fifo = [])
    (h : s.wires[w].intake = .text id) :
    silenceExpires w s = fileStory w id true .hunt (silenceReached w s) := by
  have hruns : s.wires[w].silenceRuns = true := by
    unfold Wire.silenceRuns
    rw [hfifo, h]
    rfl
  have h' : (silenceReached w s).wires[w].intake = .text id := h
  unfold silenceExpires
  rw [if_pos hruns, ← silenceReached]
  dsimp only
  rw [h']

theorem silenceExpires_header {got : List Byte} (hfifo : s.wires[w].fifo = [])
    (h : s.wires[w].intake = .header got) :
    silenceExpires w s = setIntake w .hunt (silenceReached w s) := by
  have hruns : s.wires[w].silenceRuns = true := by
    unfold Wire.silenceRuns
    rw [hfifo, h]
    rfl
  have h' : (silenceReached w s).wires[w].intake = .header got := h
  unfold silenceExpires
  rw [if_pos hruns, ← silenceReached]
  dsimp only
  rw [h']

theorem silenceExpires_idle (h : s.wires[w].fifo ≠ [] ∨ s.wires[w].intake = .off ∨
    s.wires[w].intake = .hunt ∨ s.wires[w].intake = .skip) : silenceExpires w s = s := by
  have hruns : s.wires[w].silenceRuns = false := by
    unfold Wire.silenceRuns
    rcases h with h | h | h | h
    · rw [List.isEmpty_eq_false_iff.mpr h, Bool.false_and]
    · rw [h, Bool.and_false]
    · rw [h, Bool.and_false]
    · rw [h, Bool.and_false]
  unfold silenceExpires
  rw [hruns, if_neg Bool.false_ne_true]

end

theorem silenceEndsAStory : Clause.SilenceEndsAStory := by
  intro w s
  refine ⟨fun id st hfifo hintake hst => ?_, fun got hfifo hintake => ?_, fun h => ?_⟩
  · have hexec := exec_wireSilenceExpiry w s
    rw [silenceExpires_text hfifo hintake] at hexec
    have hreached : KeepsBut [.now] s (silenceReached w s) := advanceTo_keeps s _
    have hfiled := fileStory_filed (w := w) (cut := true) (next := .hunt)
      (s := silenceReached w s) hst
    have hkeeps := fileStory_keeps w id true .hunt (silenceReached w s)
    have hoffer := hfiled.offer.congr (s' := s) rfl rfl rfl rfl
    rw [Bool.or_true] at hoffer
    generalize fileStory w id true .hunt (silenceReached w s) = u at *
    obtain ⟨hself, -⟩ := wire_of_set hfiled.wires
    exact ⟨u, hexec, hkeeps.step (by decide) (hreached.mono (by decide)),
      (hkeeps .now (by decide)).trans (silenceReached_now w s), congrArg Wire.intake hself, hoffer,
      hfiled.pending⟩
  · have hexec := exec_wireSilenceExpiry w s
    rw [silenceExpires_header hfifo hintake] at hexec
    have hreached : KeepsBut [.now] s (silenceReached w s) := advanceTo_keeps s _
    exact ⟨_, hexec, (setIntake_keeps w .hunt _).step (by decide) (hreached.mono (by decide)),
      silenceReached_now w s, by rw [setIntake_self]⟩
  · have hexec := exec_wireSilenceExpiry w s
    rw [silenceExpires_idle h] at hexec
    exact ⟨s, hexec, KeepsBut.refl _ _, trivial⟩

end Sys2Proof.Machine
end

section
/-! SUPPORT. A complete heading is looked up in the Selection Table (R13, R31, R169, R171). -/

namespace Sys2Proof.Machine

/-! ### The deciding entry (R169) -/

/-- The first entry in use that fits is the one at the lowest position. -/
theorem find?_filterMap_of_first {α : Type} {p : α → Bool} {l : List (Option α)} {i : Nat} {e : α}
    (hi : l[i]? = some (some e)) (hp : p e = true)
    (hfirst : ∀ j < i, ∀ x, l[j]? = some (some x) → p x = false) :
    (l.filterMap id).find? p = some e := by
  induction l generalizing i with
  | nil => cases hi
  | cons o l ih =>
    cases i with
    | zero =>
      cases hi
      exact List.find?_cons_of_pos hp
    | succ i =>
      have hrest := ih (i := i) hi fun j hj x hx => hfirst (j + 1) (by omega) x hx
      cases o with
      | none => exact hrest
      | some x =>
        have hx := hfirst 0 (Nat.succ_pos i) x rfl
        exact (List.find?_cons_of_neg (by rw [hx]; decide)).trans hrest

theorem selection_getElem? (s : State) (i : Fin 32) :
    s.selection.toList[i.val]? = some s.selection[i] := by
  rw [List.getElem?_eq_getElem (by simp)]
  simp

theorem decidingEntry_some {s : State} {code : List Byte} {i : Fin 32} {e : SelEntry}
    (hi : s.selection[i] = some e) (hfit : e.fits code = true)
    (hfirst : ∀ j : Fin 32, j < i → ∀ x, s.selection[j] = some x → x.fits code = false) :
    decidingEntry s code = some e := by
  refine find?_filterMap_of_first (i := i.val) ((selection_getElem? s i).trans (by rw [hi])) hfit
    fun j hj x hx => ?_
  have hlt : j < 32 := by omega
  rw [selection_getElem? s ⟨j, hlt⟩] at hx
  exact hfirst ⟨j, hlt⟩ hj x (Option.some.inj hx)

theorem decidingEntry_none {s : State} {code : List Byte}
    (h : ∀ i : Fin 32, ∀ e, s.selection[i] = some e → e.fits code = false) :
    decidingEntry s code = none := by
  refine List.find?_eq_none.mpr fun e he => ?_
  obtain ⟨o, ho, hoe⟩ := List.mem_filterMap.mp he
  obtain ⟨i, hi, hget⟩ := List.getElem_of_mem ho
  have hlt : i < 32 := by simpa using hi
  have hentry := selection_getElem? s ⟨i, hlt⟩
  rw [List.getElem?_eq_getElem hi, hget] at hentry
  rw [h ⟨i, hlt⟩ e ((Option.some.inj hentry).symm.trans hoe)]
  decide

/-! ### The outcome (R171) -/

section
variable {w : Fin 4} {got : List Byte} {s : State}

theorem takeHeading_done (h : 6 ≤ got.length) :
    takeHeading w got 0x0D#8 s = headingDone w got s := by
  unfold takeHeading
  exact (if_neg (by decide)).trans (if_pos (by simpa using h))

theorem headingDone_unlisted (h : decidingEntry s (got.take 3) = none) :
    headingDone w got s = setIntake w .skip s := by
  unfold headingDone
  rw [h]

section
variable {e : SelEntry} (h : decidingEntry s (got.take 3) = some e)
include h

theorem headingDone_reject (ha : e.action = .reject) :
    headingDone w got s = setIntake w .skip s := by
  unfold headingDone
  rw [h]
  dsimp only
  rw [ha]

theorem headingDone_full (ha : e.action = .take) (hfull : freeStory? s = none) :
    headingDone w got s = raiseWire w WireSummary.addDropped (setIntake w .skip s) := by
  unfold headingDone
  rw [h]
  dsimp only
  rw [ha]
  dsimp only
  rw [hfull]

theorem headingDone_take {id : Nat} (ha : e.action = .take) (hid : freeStory? s = some id) :
    headingDone w got s = setIntake w (.text id) (createStory id (wireStory w got e s) s) := by
  unfold headingDone
  rw [h]
  dsimp only
  rw [ha]
  dsimp only
  rw [hid]

end
end

theorem wireStory_priority {w : Fin 4} {got : List Byte} {e : SelEntry} {s : State} {p : Priority}
    (h : wirePriority (got.getD 3 0) = some p) : (wireStory w got e s).priority = p := by
  show (wirePriority (got.getD 3 0)).getD .routine = p
  rw [h]
  rfl

/-- The line of a heading that is complete, as its state then changes. -/
theorem handed_setIntake (w : Fin 4) (cs : List WireChar) (i : Intake) (s : State) :
    (setIntake w i (handed w cs s)).wires =
      s.wires.set w { s.wires[w] with fifo := cs, intake := i, silenceFrom := s.now } := by
  rw [setIntake_wires, handed_self, handed_wires, Vector.set_set]
  rfl

theorem completeHeadingIsLookedUp : Clause.CompleteHeadingIsLookedUp := by
  intro w s got cs hfifo hintake hlen
  have hexec : exec (.wireIntakeCharacter w) s =
      .next (settle (headingDone w got (handed w cs s))) := by
    rw [exec_wireIntakeCharacter_plain hfifo,
      intakeChar_header ((handed_intake w cs s).trans hintake) rfl, takeHeading_done hlen]
  have hhand := handed_keeps w cs s
  have hskip := handed_setIntake w cs .skip s
  have hskips := hhand.trans (setIntake_keeps w .skip (handed w cs s))
  refine ⟨fun hnone => ?_, fun i e hi hfit hfirst => ?_⟩
  · rw [headingDone_unlisted (decidingEntry_none (s := handed w cs s) hnone)] at hexec
    exact ⟨_, hexec, hskips, hskip⟩
  · have hentry : decidingEntry (handed w cs s) (got.take 3) = some e :=
      decidingEntry_some (s := handed w cs s) hi hfit hfirst
    refine ⟨fun ha => ?_, fun ha hfull => ?_, fun id ha hid => ?_⟩
    · rw [headingDone_reject hentry ha] at hexec
      exact ⟨_, hexec, hskips, hskip⟩
    · rw [headingDone_full hentry ha hfull] at hexec
      obtain ⟨hpending, hsummary⟩ := raiseWire_self w WireSummary.addDropped
        (setIntake w .skip (handed w cs s))
      exact ⟨_, hexec, (raiseWire_keeps _ w _).step (by decide) (hskips.mono (by decide)), hskip,
        hpending, hsummary⟩
    · rw [headingDone_take hentry ha hid] at hexec
      have hmade := createStory_keeps id (wireStory w got e (handed w cs s)) (handed w cs s)
      obtain ⟨hother, before, after, hold, hnew, hbefore, hafter⟩ :=
        createStory_baskets id (wireStory w got e (handed w cs s)) (handed w cs s)
      have hstories := createStory_stories id (wireStory w got e (handed w cs s)) (handed w cs s)
      generalize createStory id (wireStory w got e (handed w cs s)) (handed w cs s) = c at *
      have hwires : c.wires = (handed w cs s).wires := hmade .wires (by decide)
      have hnow : c.now = s.now := hmade .now (by decide)
      refine ⟨setIntake w (.text id) c, hexec, ?_, ?_, wireStory w got e (handed w cs s), hstories,
        fun p => wireStory_priority, rfl,
        ⟨before, after, hold, congrArg Basket.list hnew, hbefore, hafter⟩, ?_, hother⟩
      · exact (setIntake_keeps w _ c).step (by decide)
          (hmade.step (by decide) (hhand.mono (by decide)))
      · rw [setIntake_wires, hwires, hnow, ← handed_setIntake w cs (.text id) s]
        rfl
      · exact hnew.trans (congrArg (fun l => { s.baskets[e.basket] with list := l })
          (congrArg Basket.list hnew).symm)

/-- Settles O55: a character in TEXT is stored (Stored) or its story is filed (Filed), and the marks behind it act on what that leaves. -/
theorem headingsStoriesAndSilence : Obligations.HeadingsStoriesAndSilence :=
  ⟨freshIdentifierIsTheLowest, completeHeadingIsLookedUp, intakeStoresAndFiles,
    damageLossAndBreakInText, marksOutsideText, silenceEndsAStory⟩

end Sys2Proof.Machine
end

section
/-! SUPPORT. The checks of R33, and the pane re-check of one terminal: closing what fails only releases stories, so that no terminal's authority over a story changes by it (R33, R35, R116, R117). -/

namespace Sys2Proof.Machine

/-! ### The checks of a terminal key (R33) -/

/-- Settles O20: both checks are read off their definitions. -/
theorem viewAndChangeChecks : Obligations.ViewAndChangeChecks := by
  intro key st
  constructor
  · rw [viewCheck, Bool.or_eq_true, Bool.or_eq_true, decide_eq_true_iff, Bool.not_eq_true',
      decide_eq_true_iff, or_assoc]
    exact or_congr_left Fin.val_eq_zero_iff
  · rw [changeCheck, Bool.or_eq_true, Bool.or_eq_true, decide_eq_true_iff, decide_eq_true_iff,
      decide_eq_true_iff, or_assoc]
    exact or_congr Fin.val_eq_zero_iff (or_congr_left Fin.val_eq_zero_iff)

/-! ### Sessions that end (R116) -/

/-- Every story is as it was, or has been released, with whatever fit record an offer leaves (R116, R134). -/
def OnlyReleases (s u : State) : Prop :=
  ∀ id, storyOf u id = storyOf s id ∨
    ∃ st f, storyOf s id = some st ∧ storyOf u id = some { st with holding := .idle, fit := f }

theorem OnlyReleases.refl (s : State) : OnlyReleases s s := fun _ => .inl rfl

theorem OnlyReleases.of_stories {s u : State} (h : u.stories = s.stories) : OnlyReleases s u :=
  fun id => .inl (storyOf_of_stories h id)

theorem OnlyReleases.trans {s u w : State} (h : OnlyReleases s u) (k : OnlyReleases u w) :
    OnlyReleases s w := by
  intro id
  rcases k id with k | ⟨st, f, hu, hw⟩
  · rw [k]
    exact h id
  · rcases h id with h | ⟨st', f', hs, hu'⟩
    · exact .inr ⟨st, f, h ▸ hu, hw⟩
    · cases hu.symm.trans hu'
      exact .inr ⟨st', f, hs, hw⟩

/-- What does not look at the lock and the fit record of a story is the same of every story. -/
theorem OnlyReleases.map {s u : State} (h : OnlyReleases s u) {α : Type} {g : Story → α}
    (hg : ∀ st f, g { st with holding := .idle, fit := f } = g st) (id : Nat) :
    (storyOf u id).map g = (storyOf s id).map g := by
  rcases h id with h | ⟨st, f, hs, hu⟩
  · rw [h]
  · rw [hs, hu]
    exact congrArg some (hg st f)

theorem OnlyReleases.foldl {α : Type} (g : State → α → State) (h : ∀ s a, OnlyReleases s (g s a))
    (l : List α) (s : State) : OnlyReleases s (l.foldl g s) := by
  induction l generalizing s with
  | nil => exact .refl s
  | cons a l ih => exact (h s a).trans (ih _)

/-- A session whose story is not in use releases and offers nothing. -/
theorem releasedSession_free {s : State} {e : Session} (h : storyOf s e.story = none) :
    releasedSession e s = s := by
  have hrel : release e.story s = s := by
    unfold release modStory
    rw [h]
  unfold releasedSession
  rw [hrel]
  split
  · unfold autoOffer
    rw [h]
  · rfl

theorem closeSession_onlyReleases (t : Fin 32) (s : State) :
    OnlyReleases s (closeSession t true s) := by
  cases he : s.panes[t].session with
  | none => exact .of_stories (congrArg State.stories (closeSession_closed he))
  | some e =>
    intro id
    by_cases hid : id = e.story
    · subst hid
      cases hst : storyOf s e.story with
      | none =>
        rw [closeSession_open he, releasedSession_free hst]
        exact .inl hst
      | some st =>
        obtain ⟨f, hf⟩ := (closeSession_ended he hst).entry
        exact .inr ⟨st, f, rfl, hf⟩
    · exact .inl (closeSession_others he hid)

/-! ### What a terminal may show (R33, R35) -/

/-- The authority over stories is the same: terminals and desks are as they were, and stories have at most been released. -/
structure SameAuthority (s u : State) : Prop where
  lines : u.lines = s.lines
  desks : u.desks = s.desks
  entries : OnlyReleases s u

theorem SameAuthority.refl (s : State) : SameAuthority s s := ⟨rfl, rfl, .refl s⟩

theorem SameAuthority.trans {s u w : State} (h : SameAuthority s u) (k : SameAuthority u w) :
    SameAuthority s w :=
  ⟨k.lines.trans h.lines, k.desks.trans h.desks, h.entries.trans k.entries⟩

/-- What keeps lines, desks and stories keeps the authority. -/
theorem KeepsBut.sameAuthority {fs : List Field} {s u : State} (h : KeepsBut fs s u)
    (hf : Field.lines ∉ fs ∧ Field.desks ∉ fs ∧ Field.stories ∉ fs) : SameAuthority s u :=
  ⟨h .lines hf.1, h .desks hf.2.1, .of_stories (h .stories hf.2.2)⟩

/-- An edit pane of the terminal on this story fails the re-check. -/
def editBarred (s : State) (t : Fin 32) (only : Option Nat) (id : Nat) : Bool :=
  concerned only id &&
    ((storyOf s id).map fun st => !(maySee s t st && changeCheck s.lines[t].key st)).getD false

/-- A reference pane of the terminal on this story fails the re-check. -/
def refBarred (s : State) (t : Fin 32) (only : Option Nat) (id : Nat) : Bool :=
  concerned only id && ((storyOf s id).map fun st => !maySee s t st).getD false

theorem sessionFails_eq (s : State) (t : Fin 32) (only : Option Nat) :
    sessionFails s t only = s.panes[t].session.any fun e => editBarred s t only e.story := by
  unfold sessionFails editBarred
  cases s.panes[t].session with
  | none => rfl
  | some e =>
    dsimp only [Option.any_some]
    cases storyOf s e.story with
    | none => exact (Bool.and_false _).symm
    | some st => rfl

theorem refFails_eq (s : State) (t : Fin 32) (only : Option Nat) :
    refFails s t only = s.panes[t].ref.any fun r => refBarred s t only r.story := by
  unfold refFails refBarred
  cases s.panes[t].ref with
  | none => rfl
  | some r =>
    dsimp only [Option.any_some]
    cases storyOf s r.story with
    | none => exact (Bool.and_false _).symm
    | some st => rfl

section
variable {s u : State} (h : SameAuthority s u) (t : Fin 32) (only : Option Nat)
include h

theorem SameAuthority.maySee_same (st : Story) : maySee u t st = maySee s t st := by
  simp only [maySee, rightsOver, h.lines, h.desks]

theorem SameAuthority.editBarred_same : editBarred u t only = editBarred s t only := by
  funext id
  simp only [editBarred, h.maySee_same, h.lines]
  rw [h.entries.map (g := fun st => !(maySee s t st && changeCheck s.lines[t].key st))
    fun st f => rfl]

theorem SameAuthority.refBarred_same : refBarred u t only = refBarred s t only := by
  funext id
  simp only [refBarred, h.maySee_same]
  rw [h.entries.map (g := fun st => !maySee s t st) fun st f => rfl]

theorem SameAuthority.sessionFails_same (hp : u.panes[t].session = s.panes[t].session) :
    sessionFails u t only = sessionFails s t only := by
  rw [sessionFails_eq, sessionFails_eq, h.editBarred_same, hp]

theorem SameAuthority.refFails_same (hp : u.panes[t].ref = s.panes[t].ref) :
    refFails u t only = refFails s t only := by
  rw [refFails_eq, refFails_eq, h.refBarred_same, hp]

end

/-! ### The pane re-check of one terminal (R35) -/

/-- The first half of the pane re-check: the edit pane. -/
def sessionChecked (only : Option Nat) (t : Fin 32) (s : State) : State :=
  if sessionFails s t only then raiseTerminal t TermEvents.addWindowClosed (closeSession t true s)
  else s

theorem sessionChecked_fails {only : Option Nat} {t : Fin 32} {s : State}
    (h : sessionFails s t only = true) : sessionChecked only t s =
      raiseTerminal t TermEvents.addWindowClosed (closeSession t true s) := if_pos h

theorem sessionChecked_passes {only : Option Nat} {t : Fin 32} {s : State}
    (h : sessionFails s t only = false) : sessionChecked only t s = s :=
  if_neg (by rw [h]; decide)

theorem sessionChecked_keeps (only : Option Nat) (t : Fin 32) (s : State) :
    KeepsBut [.stories, .fit, .panes, .notices] s (sessionChecked only t s) :=
  KeepsBut.ite ((raiseTerminal_keeps _ _ _).step (by decide)
    ((closeSession_keeps t true s).mono (by decide))) (KeepsBut.refl _ _)

theorem sessionChecked_sameAuthority (only : Option Nat) (t : Fin 32) (s : State) :
    SameAuthority s (sessionChecked only t s) := by
  have hkeeps := sessionChecked_keeps only t s
  refine ⟨hkeeps .lines (by decide), hkeeps .desks (by decide), ?_⟩
  cases h : sessionFails s t only with
  | true =>
    rw [sessionChecked_fails h]
    exact (closeSession_onlyReleases t s).trans (.of_stories rfl)
  | false =>
    rw [sessionChecked_passes h]
    exact .refl s

/-- A terminal's panes after both tests: which pane failed is given. -/
def Panes.rechecked (edit ref : Bool) (p : Panes) : Panes where
  session := if edit then none
    else if ref then p.session.map fun e => { e with focus := .edit } else p.session
  ref := if ref then none else p.ref

/-- What the re-check leaves of one terminal: its panes, its pending bit and its event set. -/
def recheckedView (edit ref : Bool) (v : Panes × Bool × TermEvents) : Panes × Bool × TermEvents :=
  (v.1.rechecked edit ref,
    if edit || ref then (true, v.2.2.addWindowClosed) else v.2)

theorem paneView_raiseTerminal (t : Fin 32) (s : State) :
    paneView (raiseTerminal t TermEvents.addWindowClosed s) t =
      (s.panes[t], true, s.notices.terminal[t].addWindowClosed) := by
  obtain ⟨hpending, hevents⟩ := raiseTerminal_self t TermEvents.addWindowClosed s
  exact Prod.ext rfl (Prod.ext hpending hevents)

theorem paneView_sessionChecked (only : Option Nat) (t : Fin 32) (s : State) :
    paneView (sessionChecked only t s) t =
      recheckedView (sessionFails s t only) false (paneView s t) := by
  cases h : sessionFails s t only with
  | false =>
    rw [sessionChecked_passes h]
    rfl
  | true =>
    have hnotices : (closeSession t true s).notices = s.notices :=
      closeSession_keeps t true s .notices (by decide)
    have hpanes : (closeSession t true s).panes[t] = { s.panes[t] with session := none } := by
      rw [panes_closeSession]
      exact Vector.getElem_set_self t.isLt
    rw [sessionChecked_fails h, paneView_raiseTerminal, hpanes, hnotices]
    rfl

theorem paneView_sessionChecked_other (only : Option Nat) {t x : Fin 32} (s : State) (hx : x ≠ t) :
    paneView (sessionChecked only t s) x = paneView s x := by
  cases h : sessionFails s t only with
  | false => rw [sessionChecked_passes h]
  | true =>
    have hnotices : (closeSession t true s).notices = s.notices :=
      closeSession_keeps t true s .notices (by decide)
    have hpanes : (closeSession t true s).panes[x] = s.panes[x] := by
      rw [panes_closeSession]
      exact Vector.getElem_set_ne t.isLt x.isLt fun he => hx (Fin.ext he.symm)
    obtain ⟨hpending, hevents⟩ :=
      raiseTerminal_other TermEvents.addWindowClosed (closeSession t true s) hx
    rw [sessionChecked_fails h]
    rw [hnotices] at hpending hevents
    exact Prod.ext hpanes (Prod.ext hpending hevents)

theorem refFails_sessionChecked (only : Option Nat) (t : Fin 32) (s : State) :
    refFails (sessionChecked only t s) t only = refFails s t only :=
  (sessionChecked_sameAuthority only t s).refFails_same t only
    (congrArg (fun v => v.1.ref) (paneView_sessionChecked only t s))

theorem clearRef_notices (t : Fin 32) (s : State) : (clearRef t s).notices = s.notices := rfl

/-- The second half of the pane re-check, its test read in the state before the first half. -/
theorem recheck_eq (only : Option Nat) (t : Fin 32) (s : State) : recheck only t s =
    if refFails s t only then
      raiseTerminal t TermEvents.addWindowClosed (clearRef t (sessionChecked only t s))
    else sessionChecked only t s := by
  rw [← refFails_sessionChecked]
  rfl

theorem recheck_after_session (only : Option Nat) (t : Fin 32) (s : State) :
    KeepsBut [.panes, .notices] (sessionChecked only t s) (recheck only t s) :=
  recheck_eq only t s ▸ KeepsBut.ite ((raiseTerminal_keeps _ _ _).step (by decide)
    ((clearRef_keeps _ _).mono (by decide))) (KeepsBut.refl _ _)

theorem recheck_sameAuthority (only : Option Nat) (t : Fin 32) (s : State) :
    SameAuthority s (recheck only t s) :=
  (sessionChecked_sameAuthority only t s).trans
    ((recheck_after_session only t s).sameAuthority (by decide))

theorem paneView_recheck (only : Option Nat) (t : Fin 32) (s : State) :
    paneView (recheck only t s) t =
      recheckedView (sessionFails s t only) (refFails s t only) (paneView s t) := by
  have hview := paneView_sessionChecked only t s
  rw [recheck_eq]
  cases href : refFails s t only with
  | false => exact hview
  | true =>
    have hpanes : (sessionChecked only t s).panes[t] = _ := congrArg Prod.fst hview
    have hevents : (sessionChecked only t s).notices.terminal[t] = _ :=
      congrArg (fun v => v.2.2) hview
    rw [if_pos rfl, paneView_raiseTerminal, clearRef_self, clearRef_notices, hpanes, hevents]
    cases sessionFails s t only with
    | false => rfl
    | true => rfl

theorem paneView_recheck_other (only : Option Nat) {t x : Fin 32} (s : State) (hx : x ≠ t) :
    paneView (recheck only t s) x = paneView s x := by
  rw [recheck_eq, ← paneView_sessionChecked_other only s hx]
  split
  · obtain ⟨hpending, hevents⟩ :=
      raiseTerminal_other TermEvents.addWindowClosed (clearRef t (sessionChecked only t s)) hx
    exact Prod.ext (clearRef_other _ hx) (Prod.ext hpending hevents)
  · rfl

/-- Which panes are still tested against a story after the re-check. -/
theorem Panes.any_rechecked_session (edit ref : Bool) (p : Panes) (f : Nat → Bool) :
    ((p.rechecked edit ref).session.any fun e => f e.story) =
      (!edit && p.session.any fun e => f e.story) := by
  cases edit with
  | true => rfl
  | false =>
    cases ref with
    | false => rfl
    | true => exact Option.any_map

theorem Panes.any_rechecked_ref (edit ref : Bool) (p : Panes) (f : Nat → Bool) :
    ((p.rechecked edit ref).ref.any fun r => f r.story) = (!ref && p.ref.any fun r => f r.story) := by
  cases ref with
  | true => rfl
  | false => rfl

/-- The re-check of a terminal in the words of the statements: u has the authority of s, and at the terminal what the re-check of s leaves. -/
theorem panesRechecked_of_view {only : Option Nat} {t : Fin 32} {s u : State}
    (hsame : SameAuthority s u) (hview : paneView u t =
      recheckedView (sessionFails s t only) (refFails s t only) (paneView s t)) :
    PanesRechecked only t s u := by
  have hpanes : u.panes[t] = s.panes[t].rechecked (sessionFails s t only) (refFails s t only) :=
    congrArg Prod.fst hview
  have hnotices : (u.notices.pending[srcTerminal t], u.notices.terminal[t]) =
      if sessionFails s t only || refFails s t only then
        (true, s.notices.terminal[t].addWindowClosed)
      else (s.notices.pending[srcTerminal t], s.notices.terminal[t]) := congrArg Prod.snd hview
  refine ⟨?_, ?_, fun hs hr => ?_, fun hs => ?_, fun hr => ?_, fun _ hr => ?_, fun hr hs => ?_,
    fun h => ?_⟩
  · rw [sessionFails_eq, hsame.editBarred_same, hpanes,
      Panes.any_rechecked_session _ _ _ (editBarred s t only), ← sessionFails_eq]
    exact Bool.not_and_self _
  · rw [refFails_eq, hsame.refBarred_same, hpanes,
      Panes.any_rechecked_ref _ _ _ (refBarred s t only), ← refFails_eq]
    exact Bool.not_and_self _
  · rw [hs, hr] at hpanes hnotices
    obtain ⟨hpending, hevents⟩ := Prod.mk.inj hnotices
    exact ⟨hpanes, hevents, hpending⟩
  · rw [hpanes, hs]
    rfl
  · rw [hpanes, hr]
    rfl
  · rw [hpanes, hr]
    rfl
  · rw [hpanes, hr, hs]
    rfl
  · rw [if_pos (by rwa [Bool.or_eq_true])] at hnotices
    exact Prod.mk.inj hnotices

/-! ### What the re-check does to stories -/

theorem recheck_passes {only : Option Nat} {t : Fin 32} {s : State}
    (hs : sessionFails s t only = false) (hr : refFails s t only = false) :
    recheck only t s = s := by
  rw [recheck_eq, hr, sessionChecked_passes hs]
  rfl

theorem recheck_stories_fit {only : Option Nat} {t : Fin 32} {s : State}
    (h : sessionFails s t only = false) :
    (recheck only t s).stories = s.stories ∧ (recheck only t s).fit = s.fit := by
  have hkeeps := recheck_after_session only t s
  rw [sessionChecked_passes h] at hkeeps
  exact ⟨hkeeps .stories (by decide), hkeeps .fit (by decide)⟩

theorem recheck_ended {only : Option Nat} {t : Fin 32} {s : State} {e : Session} {st : Story}
    (he : s.panes[t].session = some e) (hst : storyOf s e.story = some st)
    (h : sessionFails s t only = true) : SessionEnded s (recheck only t s) e st := by
  have hkeeps := recheck_after_session only t s
  rw [sessionChecked_fails h] at hkeeps
  exact (closeSession_ended he hst).congr (hkeeps .fit (by decide))
    (storyOf_of_stories (hkeeps .stories (by decide)) _)

/-- Settles O21: the two tests of the re-check are read in the state before it, since closing the edit pane only releases its story. -/
theorem paneRecheckClosesWhatFails : Obligations.PaneRecheckClosesWhatFails := by
  intro only t s
  refine ⟨recheck_keeps only t s,
    panesRechecked_of_view (recheck_sameAuthority only t s) (paneView_recheck only t s),
    recheck_passes, fun e st he hst hfails => recheck_ended he hst hfails, recheck_stories_fit,
    fun x hx => ?_⟩
  have hview := paneView_recheck_other only s hx
  exact ⟨congrArg Prod.fst hview, congrArg (fun v => v.2.2) hview⟩

end Sys2Proof.Machine
end

section
/-! SUPPORT. The pane re-check at every attached terminal that a test of its line chooses: each terminal's turn is the re-check of the state before all turns, since no turn changes any terminal's authority or another terminal's panes (R35, log entry 39). -/

namespace Sys2Proof.Machine

/-! ### One terminal's turn -/

/-- A terminal has its turn in the re-check: it is attached and its line is chosen. -/
def hasTurn (q : Line → Bool) (s : State) (t : Fin 32) : Bool := s.lines[t].attached && q s.lines[t]

/-- A terminal's turn. -/
def recheckTurn (q : Line → Bool) (only : Option Nat) (t : Fin 32) (s : State) : State :=
  if hasTurn q s t then recheck only t s else s

/-- The re-check at the chosen terminals, as its turns. -/
theorem recheckWhere_eq (q : Line → Bool) (only : Option Nat) (s : State) :
    recheckWhere (fun s t => q s.lines[t]) only s = forTerminals (recheckTurn q only) s := rfl

section
variable (q : Line → Bool) (only : Option Nat)

theorem recheckTurn_sameAuthority (t : Fin 32) (s : State) :
    SameAuthority s (recheckTurn q only t s) := by
  unfold recheckTurn
  split
  · exact recheck_sameAuthority only t s
  · exact .refl s

theorem SameAuthority.hasTurn_same {s u : State} (h : SameAuthority s u) (t : Fin 32) :
    hasTurn q u t = hasTurn q s t := by
  unfold hasTurn
  simp only [h.lines]

theorem paneView_recheckTurn_other {t x : Fin 32} (s : State) (hx : x ≠ t) :
    paneView (recheckTurn q only t s) x = paneView s x := by
  unfold recheckTurn
  split
  · exact paneView_recheck_other only s hx
  · rfl

/-! ### All turns, terminal by terminal -/

/-- What the re-check reads and changes of one terminal. -/
structure TurnView where
  pane : Panes × Bool × TermEvents
  line : Line
  edit : Nat → Bool
  ref : Nat → Bool

def turnView (s : State) (t : Fin 32) : TurnView :=
  ⟨paneView s t, s.lines[t], editBarred s t only, refBarred s t only⟩

/-- A turn's change of its terminal. -/
def TurnView.turned (v : TurnView) : TurnView :=
  if v.line.attached && q v.line then
    ⟨recheckedView (v.pane.1.session.any fun e => v.edit e.story)
      (v.pane.1.ref.any fun r => v.ref r.story) v.pane, v.line, v.edit, v.ref⟩
  else v

theorem turnView_of_sameAuthority {s u : State} (h : SameAuthority s u) (t : Fin 32) :
    turnView only u t = { turnView only s t with pane := paneView u t } := by
  unfold turnView
  rw [h.editBarred_same, h.refBarred_same]
  simp only [h.lines]

theorem turnView_recheckTurn (t : Fin 32) (s : State) :
    turnView only (recheckTurn q only t s) t = (turnView only s t).turned q := by
  rw [turnView_of_sameAuthority only (recheckTurn_sameAuthority q only t s)]
  unfold recheckTurn TurnView.turned
  by_cases h : hasTurn q s t = true
  · rw [if_pos h, if_pos (by exact h), paneView_recheck, sessionFails_eq, refFails_eq]
    rfl
  · rw [if_neg h, if_neg (by exact h)]
    rfl

/-- The re-check of a terminal that has its turn is that of the state before all turns. -/
theorem paneView_recheckWhere (s : State) (t : Fin 32) :
    paneView (recheckWhere (fun s t => q s.lines[t]) only s) t =
      if hasTurn q s t then
        recheckedView (sessionFails s t only) (refFails s t only) (paneView s t)
      else paneView s t := by
  have hturns : turnView only (forTerminals (recheckTurn q only) s) t =
      (turnView only s t).turned q :=
    forTerminals_at (turnView only) (fun _ => TurnView.turned q)
      (fun s t => turnView_recheckTurn q only t s)
      (fun s t x hx => by
        rw [turnView_of_sameAuthority only (recheckTurn_sameAuthority q only t s),
          paneView_recheckTurn_other q only s hx]
        rfl) s t
  rw [recheckWhere_eq, sessionFails_eq, refFails_eq]
  refine (congrArg TurnView.pane hturns).trans ?_
  unfold TurnView.turned
  exact apply_ite TurnView.pane _ _ _

theorem recheckWhere_sameAuthority (s : State) :
    SameAuthority s (recheckWhere (fun s t => q s.lines[t]) only s) := by
  have hkeeps := recheckWhere_keeps (fun s t => q s.lines[t]) only s
  exact ⟨hkeeps .lines (by decide), hkeeps .desks (by decide),
    OnlyReleases.foldl _ (fun s t => (recheckTurn_sameAuthority q only t s).entries) _ s⟩

/-- The re-check at a terminal that has its turn, read from any state s that has the authority and the terminal's panes of the state m that is re-checked. -/
theorem recheckWhere_panesRechecked {s m : State} {t : Fin 32} (hsame : SameAuthority s m)
    (hview : paneView m t = paneView s t) (hturn : hasTurn q s t = true) :
    PanesRechecked only t s (recheckWhere (fun s t => q s.lines[t]) only m) := by
  have hpanes : m.panes[t] = s.panes[t] := congrArg Prod.fst hview
  have hturn' : hasTurn q m t = true := (hsame.hasTurn_same q t).trans hturn
  refine panesRechecked_of_view (hsame.trans (recheckWhere_sameAuthority q only m)) ?_
  rw [paneView_recheckWhere, if_pos hturn', hview, hsame.sessionFails_same t only (by rw [hpanes]),
    hsame.refFails_same t only (by rw [hpanes])]

theorem recheckWhere_noTurn {s : State} {t : Fin 32} (h : hasTurn q s t = false) :
    paneView (recheckWhere (fun s t => q s.lines[t]) only s) t = paneView s t := by
  rw [paneView_recheckWhere, if_neg (by rw [h]; decide)]

/-- A terminal's panes and event set, from its view. -/
theorem panes_of_view {s u : State} {t : Fin 32} (h : paneView u t = paneView s t) :
    u.panes[t] = s.panes[t] ∧ u.notices.terminal[t] = s.notices.terminal[t] :=
  ⟨congrArg Prod.fst h, congrArg (fun v => v.2.2) h⟩

/-! ### What the turns do to stories -/

theorem sessionFails_recheckTurn {s : State} {x : Fin 32} (t : Fin 32)
    (h : hasTurn q s x = true → sessionFails s x only = false) :
    hasTurn q (recheckTurn q only t s) x = true →
      sessionFails (recheckTurn q only t s) x only = false := by
  rw [(recheckTurn_sameAuthority q only t s).hasTurn_same]
  intro hturn
  by_cases hx : x = t
  · subst hx
    rw [recheckTurn, if_pos hturn]
    exact (paneRecheckClosesWhatFails only x s).2.1.1
  · rw [(recheckTurn_sameAuthority q only t s).sessionFails_same x only
      (congrArg (fun v => v.1.session) (paneView_recheckTurn_other q only s hx))]
    exact h hturn

/-- Where no edit pane fails, no story and no offer changes. -/
theorem recheckWhere_stories_fit {s : State}
    (h : ∀ t, hasTurn q s t = true → sessionFails s t only = false) :
    (recheckWhere (fun s t => q s.lines[t]) only s).stories = s.stories ∧
      (recheckWhere (fun s t => q s.lines[t]) only s).fit = s.fit := by
  rw [recheckWhere_eq, forTerminals]
  induction List.finRange 32 generalizing s with
  | nil => exact ⟨rfl, rfl⟩
  | cons x xs ih =>
    have hone : (recheckTurn q only x s).stories = s.stories ∧
        (recheckTurn q only x s).fit = s.fit := by
      unfold recheckTurn
      split
      · next hturn => exact recheck_stories_fit (h x hturn)
      · exact ⟨rfl, rfl⟩
    obtain ⟨hstories, hfit⟩ := ih fun t => sessionFails_recheckTurn q only x (h t)
    exact ⟨hstories.trans hone.1, hfit.trans hone.2⟩

/-- Where no pane fails, nothing changes. -/
theorem recheckWhere_passes {s : State} (h : ∀ t, hasTurn q s t = true →
      sessionFails s t only = false ∧ refFails s t only = false) :
    recheckWhere (fun s t => q s.lines[t]) only s = s := by
  rw [recheckWhere_eq, forTerminals]
  induction List.finRange 32 with
  | nil => rfl
  | cons x xs ih =>
    have hone : recheckTurn q only x s = s := by
      unfold recheckTurn
      split
      · next hturn =>
        obtain ⟨hs, hr⟩ := h x hturn
        exact recheck_passes hs hr
      · rfl
    rw [List.foldl_cons, hone, ih]

/-- A story that is IDLE stays so while sessions end. -/
theorem OnlyReleases.idle {s u : State} (h : OnlyReleases s u) {id : Nat} {st so : Story}
    (hs : storyOf s id = some st) (hidle : st.holding = .idle) (hu : storyOf u id = some so) :
    so.holding = .idle := by
  rcases h id with h | ⟨st', f, -, hu'⟩
  · cases hs.symm.trans (h.symm.trans hu)
    exact hidle
  · cases hu.symm.trans hu'
    rfl

theorem foldl_recheckTurn_idle {l : List (Fin 32)} {s : State} {t : Fin 32} {e : Session}
    {st so : Story} (hl : t ∈ l) (hturn : hasTurn q s t = true)
    (he : s.panes[t].session = some e) (h : sessionFails s t only = true)
    (hst : storyOf s e.story = some st)
    (hso : storyOf (l.foldl (fun s t => recheckTurn q only t s) s) e.story = some so) :
    so.holding = .idle := by
  induction l generalizing s st with
  | nil => cases hl
  | cons x xs ih =>
    rw [List.foldl_cons] at hso
    have hsame := recheckTurn_sameAuthority q only x s
    by_cases hx : t = x
    · subst hx
      obtain ⟨f, hf⟩ := (recheck_ended he hst h).entry
      rw [recheckTurn, if_pos hturn] at hso
      exact OnlyReleases.idle (OnlyReleases.foldl _
        (fun s t => (recheckTurn_sameAuthority q only t s).entries) xs _) hf rfl hso
    · have hsession : (recheckTurn q only x s).panes[t].session = s.panes[t].session :=
        congrArg (fun v => v.1.session) (paneView_recheckTurn_other q only s hx)
      obtain ⟨st', hst'⟩ : ∃ st', storyOf (recheckTurn q only x s) e.story = some st' := by
        rcases hsame.entries e.story with hkept | ⟨_, _, -, hreleased⟩
        · exact ⟨st, hkept.trans hst⟩
        · exact ⟨_, hreleased⟩
      exact ih (List.mem_of_ne_of_mem hx hl) ((hsame.hasTurn_same q t).trans hturn)
        (hsession.trans he) ((hsame.sessionFails_same t only hsession).trans h) hst' hso

/-- The story of an edit pane that fails at its terminal's turn is IDLE afterwards. -/
theorem recheckWhere_idle {s : State} {t : Fin 32} {e : Session} {st so : Story}
    (hturn : hasTurn q s t = true) (he : s.panes[t].session = some e)
    (h : sessionFails s t only = true) (hst : storyOf s e.story = some st)
    (hso : storyOf (recheckWhere (fun s t => q s.lines[t]) only s) e.story = some so) :
    so.holding = .idle :=
  foldl_recheckTurn_idle q only (List.mem_finRange t) hturn he h hst hso

end

/-! ### The panes that show one story -/

/-- A re-check for one story fails no edit pane on another. -/
theorem story_of_sessionFails {s : State} {t : Fin 32} {id : Nat}
    (h : sessionFails s t (some id) = true) :
    ∃ e, s.panes[t].session = some e ∧ e.story = id ∧ ∃ st, storyOf s id = some st := by
  rw [sessionFails_eq, Option.any_eq_true] at h
  obtain ⟨e, he, hbarred⟩ := h
  rw [editBarred, Bool.and_eq_true] at hbarred
  obtain ⟨hconcerned, hstory⟩ := hbarred
  obtain rfl : id = e.story := of_decide_eq_true hconcerned
  cases hst : storyOf s e.story with
  | none =>
    rw [hst] at hstory
    cases hstory
  | some st => exact ⟨e, he, rfl, st, rfl⟩

theorem refFails_elsewhere {s : State} {t : Fin 32} {id : Nat}
    (h : ∀ r, s.panes[t].ref = some r → r.story ≠ id) : refFails s t (some id) = false := by
  rw [refFails_eq, Option.any_eq_false]
  intro r hr
  rw [refBarred, concerned, decide_eq_false (h r hr).symm]
  exact Bool.false_and _

theorem sessionFails_elsewhere {s : State} {t : Fin 32} {id : Nat}
    (h : ∀ e, s.panes[t].session = some e → e.story ≠ id) :
    sessionFails s t (some id) = false := by
  refine Bool.eq_false_iff.mpr fun hfails => ?_
  obtain ⟨e, he, hid, -⟩ := story_of_sessionFails hfails
  exact h e he hid

theorem recheck_others {id x : Nat} (hx : x ≠ id) (t : Fin 32) (s : State) :
    storyOf (recheck (some id) t s) x = storyOf s x := by
  cases h : sessionFails s t (some id) with
  | false => exact storyOf_of_stories (recheck_stories_fit h).1 x
  | true =>
    obtain ⟨e, he, rfl, -⟩ := story_of_sessionFails h
    have hkeeps := recheck_after_session (some e.story) t s
    rw [sessionChecked_fails h] at hkeeps
    exact (storyOf_of_stories (hkeeps .stories (by decide)) x).trans (closeSession_others he hx)

/-- A re-check for one story changes no other story's entry. -/
theorem recheckWhere_others (q : Line → Bool) {id x : Nat} (hx : x ≠ id) (s : State) :
    storyOf (recheckWhere (fun s t => q s.lines[t]) (some id) s) x = storyOf s x := by
  rw [recheckWhere_eq]
  refine forTerminals_same (fun s => storyOf s x) (fun s t => ?_) s
  unfold recheckTurn
  split
  · exact recheck_others hx t s
  · rfl

end Sys2Proof.Machine
end

section
/-! SUPPORT. The orders SET DESK and SET BASKET: how many panes a re-check closes, and what each order writes (R27, R30, R35). -/

namespace Sys2Proof.Machine

/-! ### Texts of an order -/

theorem textAt_of_le {b : List Byte} {i n : Nat} (h : i + n ≤ b.length) :
    textAt b i n = some ((b.drop i).take n) := if_pos h

theorem textAt_eq_none {b : List Byte} {i n : Nat} (h : b.length < i + n) : textAt b i n = none :=
  if_neg (Nat.not_le.mpr h)

/-- A short text is taken as it is exactly where it is neither cut nor substituted. -/
theorem cleanText_clamped_iff_not (text : List Byte) (n : Nat) : (cleanText n text).2 = true ↔
    ¬ (text.length ≤ n ∧ ∀ c ∈ text.take n, isText c = true) := by
  rw [cleanText_clamped]
  simp only [not_and_or, Nat.not_le, not_forall, Bool.not_eq_true, exists_prop]

theorem flagAt_eq_true {b : List Byte} {i : Nat} : flagAt b i = true ↔ u8 b i ≠ 0 :=
  decide_eq_true_iff

/-! ### How many panes a re-check closes (R27) -/

theorem countP_sub_of_split {α : Type} {p after gone : α → Bool} (l : List α)
    (hafter : ∀ x, after x = (p x && !gone x)) (hgone : ∀ x, gone x = true → p x = true) :
    l.countP p - l.countP after = l.countP gone := by
  have hsplit := List.countP_eq_countP_filter_add l p gone
  have hout : (fun x => p x && gone x) = gone := funext fun x => by
    cases h : gone x with
    | false => exact Bool.and_false _
    | true => rw [hgone x h]; rfl
  rw [List.countP_filter, List.countP_filter, hout] at hsplit
  rw [show after = fun x => p x && !gone x from funext hafter, hsplit, Nat.add_sub_cancel]

theorem isSome_of_sessionFails {s : State} {t : Fin 32} {only : Option Nat}
    (h : sessionFails s t only = true) : s.panes[t].session.isSome = true := by
  rw [sessionFails_eq, Option.any_eq_true] at h
  obtain ⟨e, he, -⟩ := h
  rw [he]
  rfl

theorem isSome_of_refFails {s : State} {t : Fin 32} {only : Option Nat}
    (h : refFails s t only = true) : s.panes[t].ref.isSome = true := by
  rw [refFails_eq, Option.any_eq_true] at h
  obtain ⟨r, hr, -⟩ := h
  rw [hr]
  rfl

theorem Panes.rechecked_open (edit ref : Bool) (p : Panes) :
    (p.rechecked edit ref).session.isSome = (p.session.isSome && !edit) ∧
      (p.rechecked edit ref).ref.isSome = (p.ref.isSome && !ref) := by
  constructor
  · cases edit with
    | true => exact (Bool.and_false _).symm
    | false =>
      cases ref with
      | true => exact Option.isSome_map.trans (Bool.and_true _).symm
      | false => exact (Bool.and_true _).symm
  · cases ref with
    | true => exact (Bool.and_false _).symm
    | false => exact (Bool.and_true _).symm

/-- Which panes are open after a re-check. -/
theorem recheckWhere_open (q : Line → Bool) (only : Option Nat) (s : State) (t : Fin 32) :
    (recheckWhere (fun s t => q s.lines[t]) only s).panes[t].session.isSome =
        (s.panes[t].session.isSome && !(hasTurn q s t && sessionFails s t only)) ∧
      (recheckWhere (fun s t => q s.lines[t]) only s).panes[t].ref.isSome =
        (s.panes[t].ref.isSome && !(hasTurn q s t && refFails s t only)) := by
  have hview := paneView_recheckWhere q only s t
  generalize recheckWhere (fun s t => q s.lines[t]) only s = u at hview ⊢
  have hpanes : u.panes[t] = _ := congrArg Prod.fst hview
  rw [hpanes]
  cases hasTurn q s t with
  | true => exact Panes.rechecked_open _ _ _
  | false => exact ⟨(Bool.and_true _).symm, (Bool.and_true _).symm⟩

/-- The reply counts the panes that fail before the re-check, at the terminals that have their turn (R27). -/
theorem eClosed_recheckWhere (q : Line → Bool) (only : Option Nat) (s : State) :
    eClosed s (recheckWhere (fun s t => q s.lines[t]) only s) =
      e16 ((List.finRange 32).countP fun t => hasTurn q s t && sessionFails s t only) ++
      e16 ((List.finRange 32).countP fun t => hasTurn q s t && refFails s t only) := by
  unfold eClosed panesOpen
  simp only [← List.countP_eq_length_filter]
  rw [countP_sub_of_split _ (fun t => (recheckWhere_open q only s t).1)
      fun t h => isSome_of_sessionFails (Bool.and_eq_true_iff.mp h).2,
    countP_sub_of_split _ (fun t => (recheckWhere_open q only s t).2)
      fun t h => isSome_of_refFails (Bool.and_eq_true_iff.mp h).2]

/-! ### SET DESK (R27) -/

/-- The state in which the panes are re-checked: the desk has its new name and rights. -/
def deskWritten (d : Fin 16) (body : List Byte) (s : State) : State :=
  { s with desks := s.desks.set d ⟨(cleanText 12 ((body.drop 2).take (u8 body 1))).1,
      rowOf ((body.drop (2 + u8 body 1)).take 64)⟩ }

/-- The lines of one desk. -/
def ofDesk (d : Fin 16) (l : Line) : Bool := decide (l.desk = d)

/-- The state that SET DESK leaves before the end of its event. -/
def deskSet (d : Fin 16) (body : List Byte) (s : State) : State :=
  recheckWhere (fun s t => ofDesk d s.lines[t]) none (deskWritten d body s)

theorem rowOf_getElem (rights : List Byte) (b : Fin 64) :
    (rowOf rights)[b] = rightsOf (rights.getD b 0) := Vector.getElem_ofFn _

theorem getD_rights {body : List Byte} {n : Nat} (b : Fin 64) :
    ((body.drop n).take 64).getD b 0 = body.getD (n + b) 0 := by
  rw [List.getD_eq_getElem?_getD, List.getElem?_take_of_lt b.isLt, List.getElem?_drop,
    List.getD_eq_getElem?_getD]

section
variable (d : Fin 16) (body : List Byte) (s : State)

theorem deskWritten_self :
    (deskWritten d body s).desks[d].name =
        (((body.drop 2).take (u8 body 1)).take 12).map plainByte ∧
      ∀ b : Fin 64, (deskWritten d body s).desks[d].row[b] =
        rightsOf (body.getD (2 + u8 body 1 + b) 0) := by
  have hself : (deskWritten d body s).desks[d] =
      ⟨(cleanText 12 ((body.drop 2).take (u8 body 1))).1,
        rowOf ((body.drop (2 + u8 body 1)).take 64)⟩ := Vector.getElem_set_self d.isLt
  rw [hself]
  exact ⟨rfl, fun b => by rw [rowOf_getElem, getD_rights]⟩

theorem deskWritten_other {x : Fin 16} (hx : x ≠ d) :
    (deskWritten d body s).desks[x] = s.desks[x] :=
  Vector.getElem_set_ne d.isLt x.isLt fun he => hx (Fin.ext he.symm)

theorem deskSet_keeps :
    KeepsBut [.desks, .stories, .fit, .panes, .notices] s (deskSet d body s) :=
  (recheckWhere_keeps _ none _).step (by decide) ((keeps_desks s _).mono (by decide))

theorem deskSet_desks : (deskSet d body s).desks = (deskWritten d body s).desks :=
  recheckWhere_keeps _ none _ .desks (by decide)

theorem eClosed_deskSet : eClosed s (deskSet d body s) =
    e16 ((List.finRange 32).countP fun t => s.lines[t].attached && decide (s.lines[t].desk = d) &&
        sessionFails (deskWritten d body s) t none) ++
      e16 ((List.finRange 32).countP fun t => s.lines[t].attached &&
        decide (s.lines[t].desk = d) && refFails (deskWritten d body s) t none) :=
  eClosed_recheckWhere (ofDesk d) none (deskWritten d body s)

/-- The panes of the desk's attached terminals are re-checked under the new rights, and no others (R27, R35). -/
theorem deskSet_terminal (t : Fin 32) :
    (s.lines[t].attached = true → s.lines[t].desk = d →
      PanesRechecked none t (deskWritten d body s) (deskSet d body s)) ∧
    (¬ (s.lines[t].attached = true ∧ s.lines[t].desk = d) →
      paneView (deskSet d body s) t = paneView s t) := by
  have hturn : hasTurn (ofDesk d) (deskWritten d body s) t = true ↔
      s.lines[t].attached = true ∧ s.lines[t].desk = d := by
    rw [hasTurn, ofDesk, Bool.and_eq_true, decide_eq_true_iff]
    rfl
  exact ⟨fun hattached hdesk => recheckWhere_panesRechecked (ofDesk d) none
      (.refl (deskWritten d body s)) rfl (hturn.mpr ⟨hattached, hdesk⟩),
    fun h => recheckWhere_noTurn (ofDesk d) none (s := deskWritten d body s)
      (Bool.eq_false_iff.mpr fun hdesk => h (hturn.mp hdesk))⟩

end

theorem ownSetDesk_range {body : List Byte} {s : State} (h : 16 ≤ u8 body 0) :
    ownSetDesk body s = refuse .range s := by
  unfold ownSetDesk
  rw [inRange_eq_none h]

section
variable {body : List Byte} {s : State} {d : Fin 16} (hd : u8 body 0 = d.val)
include hd

theorem ownSetDesk_malformed (h : body.length < 2 + u8 body 1 + 64) :
    ownSetDesk body s = refuse .malformed s := by
  unfold ownSetDesk
  rw [inRange_of_val hd]
  dsimp only
  rw [textAt_eq_none (by omega)]

theorem ownSetDesk_written (h : 2 + u8 body 1 + 64 ≤ body.length) : ownSetDesk body s =
    (deskSet d body s, Reply.clampedIf (cleanText 12 ((body.drop 2).take (u8 body 1))).2
      (eClosed s (deskSet d body s))) := by
  unfold ownSetDesk
  rw [inRange_of_val hd]
  dsimp only
  rw [textAt_of_le (by omega)]
  dsimp only
  rw [List.take_take, Nat.min_eq_left (Nat.le_add_right _ _), List.drop_take, List.drop_drop,
    Nat.add_sub_cancel_left]
  rfl

end

theorem setDeskReplacesNameAndRights : Clause.SetDeskReplacesNameAndRights := by
  intro tag body s hn ht
  refine ⟨fun h => ?_, fun hd h => ?_, fun d hd h => ?_⟩
  · exact refuses_of_own (own := ownSetDesk) rfl ht hn (ownSetDesk_range h)
  · exact refuses_of_own (own := ownSetDesk) rfl ht hn
      (ownSetDesk_malformed (d := ⟨u8 body 0, hd⟩) rfl h)
  · have hown := ownSetDesk_written (s := dropHead s) hd h
    have hclamped := cleanText_clamped_iff_not ((body.drop 2).take (u8 body 1)) 12
    rw [List.length_take, List.length_drop, Nat.min_eq_left (by omega)] at hclamped
    refine ⟨_, deskWritten d body s,
      replies_of_own (own := ownSetDesk) rfl ht hn (congrArg Prod.snd hown) ?_ (by decide) ?_⟩
    · rw [hown]
      dsimp only
      exact deskSet_keeps d body (dropHead s)
    · rw [hown]
      have hdesks := deskSet_desks d body (dropHead s)
      have hclosed := eClosed_deskSet d body (dropHead s)
      have hterminal := deskSet_terminal d body (dropHead s)
      obtain ⟨hname, hrow⟩ := deskWritten_self d body s
      generalize deskSet d body (dropHead s) = u at *
      refine ⟨?_, ?_, ?_, ?_, ?_, ?_, ?_, ?_⟩
      · exact congrArg (fun x => { s with desks := x }) hdesks.symm
      · exact congrArg Reply.result (clampedIf_eq_not hclamped _)
      · exact (congrArg (fun x => x[d].name) hdesks).trans hname
      · exact fun b => (congrArg (fun x => x[d].row[b]) hdesks).trans (hrow b)
      · exact fun x hx => (congrArg (·[x]) hdesks).trans (deskWritten_other d body s hx)
      · exact hclosed
      · exact fun t => (hterminal t).1
      · exact fun t hno => panes_of_view ((hterminal t).2 hno)

/-! ### SET BASKET (R30) -/

theorem settingAt_eq_none_iff {b : List Byte} {i : Nat} : settingAt b i = none ↔ 8 ≤ u8 b i := by
  rw [settingAt, Option.map_eq_none_iff, inRange, dite_eq_right_iff]
  simp

theorem defaultAt_eq_none {body : List Byte} (h2 : u8 body 2 ≠ 0) (h3 : 8 ≤ u8 body 3) :
    defaultAt body = none := by
  rw [defaultAt, if_pos (flagAt_eq_true.mpr h2), settingAt_eq_none_iff.mpr h3]
  rfl

theorem defaultAt_eq_some {body : List Byte} {d : Option Setting}
    (h : u8 body 2 = 0 ∧ d = none ∨ u8 body 2 ≠ 0 ∧ ∃ x, settingAt body 3 = some x ∧
      d = some (clampSetting x)) : defaultAt body = some d := by
  rcases h with ⟨h2, rfl⟩ | ⟨h2, x, hx, rfl⟩
  · rw [defaultAt, if_neg fun hflag => flagAt_eq_true.mp hflag h2]
  · rw [defaultAt, if_pos (flagAt_eq_true.mpr h2), hx]
    rfl

theorem defaultClamped_iff {body : List Byte} {d : Option Setting}
    (h : u8 body 2 = 0 ∧ d = none ∨ u8 body 2 ≠ 0 ∧ ∃ x, settingAt body 3 = some x ∧
      d = some (clampSetting x)) : defaultClamped body = true ↔
      ¬ (u8 body 2 = 0 ∨ ∃ x, settingAt body 3 = some x ∧ clampSetting x = x) := by
  unfold defaultClamped
  rcases h with ⟨h2, -⟩ | ⟨h2, x, hx, -⟩
  · have hflag : flagAt body 2 = false := Bool.eq_false_iff.mpr fun h => flagAt_eq_true.mp h h2
    simp [hflag, h2]
  · simp [flagAt_eq_true.mpr h2, hx, h2]

theorem ownSetBasket_range {body name : List Byte} {s : State}
    (htext : textAt body 15 (u8 body 14) = some name)
    (h : 64 ≤ u8 body 0 ∨ 5 ≤ u8 body 1 ∨ (u8 body 2 ≠ 0 ∧ 8 ≤ u8 body 3)) :
    ownSetBasket body s = refuse .range s := by
  unfold ownSetBasket
  rw [withText_some htext]
  rcases h with h | h | ⟨h2, h3⟩
  · rw [inRange_eq_none h]
  · rw [inRange_eq_none h]
    split
    · next heq _ => cases heq
    · rfl
  · rw [defaultAt_eq_none h2 h3]
    split
    · next heq => cases heq
    · rfl

theorem ownSetBasket_written {body name : List Byte} {s : State} {b : Fin 64} {e : Fin 5}
    {d : Option Setting} (htext : textAt body 15 (u8 body 14) = some name)
    (hb : u8 body 0 = b.val) (he : u8 body 1 = e.val) (hd : defaultAt body = some d) :
    ownSetBasket body s = (modBasket b (fun k => ⟨(name.take 12).map plainByte, e, d, k.list⟩) s,
      Reply.clampedIf ((cleanText 12 name).2 || defaultClamped body) []) := by
  unfold ownSetBasket
  rw [withText_some htext, inRange_of_val hb, inRange_of_val he, hd]
  rfl

theorem setBasketKeepsTheList : Clause.SetBasketKeepsTheList := by
  intro tag body name s hn htext ht
  refine ⟨fun h => ?_, fun b e d hb he hd => ⟨_, rfl, ?_⟩⟩
  · exact refuses_of_own (own := ownSetBasket) rfl ht hn (ownSetBasket_range htext h)
  · have hown := ownSetBasket_written (s := dropHead s) htext hb he (defaultAt_eq_some hd)
    refine replies_of_own (own := ownSetBasket) rfl ht hn ?_ ?_ (by decide) ?_
    · rw [hown]
      refine clampedIf_eq_not ?_ _
      rw [Bool.or_eq_true, cleanText_clamped_iff_not, defaultClamped_iff hd]
      rw [← not_and_or, and_assoc]
    · rw [hown]
      exact modBasket_keeps _ _ _
    · rw [hown]
      have hself := modBasket_self b (fun k => ⟨(name.take 12).map plainByte, e, d, k.list⟩)
        (dropHead s)
      have hothers := fun x (hx : x ≠ b) => modBasket_other
        (fun k => ⟨(name.take 12).map plainByte, e, d, k.list⟩) (dropHead s) hx
      exact ⟨hself, hothers⟩

/-- Settles O22: SET DESK writes the desk and re-checks the panes of its terminals; SET BASKET writes one basket. -/
theorem desksAndBasketsAreReplaced : Obligations.DesksAndBasketsAreReplaced :=
  ⟨setDeskReplacesNameAndRights, setBasketKeepsTheList⟩

end Sys2Proof.Machine
end

section
/-! SUPPORT. The order SET STORY KEY, and the re-check of the panes that show one story (R35, R39, R40). -/

namespace Sys2Proof.Machine

/-! ### The panes that show a story are re-checked -/

/-- Every line. -/
def everyLine (_ : Line) : Bool := true

/-- The panes that show a story are re-checked at every attached terminal (R35). -/
def storyRechecked (id : Nat) (s : State) : State :=
  recheckWhere (fun s t => everyLine s.lines[t]) (some id) s

theorem hasTurn_everyLine (s : State) (t : Fin 32) :
    hasTurn everyLine s t = s.lines[t].attached := Bool.and_true _

section
variable (id : Nat) (s : State)

theorem storyRechecked_keeps :
    KeepsBut [.stories, .fit, .panes, .notices] s (storyRechecked id s) :=
  recheckWhere_keeps _ (some id) s

theorem storyRechecked_sameAuthority : SameAuthority s (storyRechecked id s) :=
  recheckWhere_sameAuthority everyLine (some id) s

theorem storyRechecked_others {x : Nat} (hx : x ≠ id) :
    storyOf (storyRechecked id s) x = storyOf s x := recheckWhere_others everyLine hx s

theorem storyRechecked_detached {t : Fin 32} (h : s.lines[t].attached = false) :
    paneView (storyRechecked id s) t = paneView s t :=
  recheckWhere_noTurn everyLine (some id) ((hasTurn_everyLine s t).trans h)

/-- The re-check at an attached terminal, read from any state s with the authority and the terminal's panes of the state m that is re-checked. -/
theorem storyRechecked_panes {m : State} {t : Fin 32} (hsame : SameAuthority s m)
    (hview : paneView m t = paneView s t) (h : s.lines[t].attached = true) :
    PanesRechecked (some id) t s (storyRechecked id m) :=
  recheckWhere_panesRechecked everyLine (some id) hsame hview ((hasTurn_everyLine s t).trans h)

theorem storyRechecked_stories_fit
    (h : ∀ t : Fin 32, s.lines[t].attached = true → sessionFails s t (some id) = false) :
    (storyRechecked id s).stories = s.stories ∧ (storyRechecked id s).fit = s.fit :=
  recheckWhere_stories_fit everyLine (some id) fun t hturn =>
    h t ((hasTurn_everyLine s t).symm.trans hturn)

/-- The story of a session that fails is IDLE afterwards. -/
theorem storyRechecked_idle {t : Fin 32} {so : Story} (ha : s.lines[t].attached = true)
    (h : sessionFails s t (some id) = true) (hso : storyOf (storyRechecked id s) id = some so) :
    so.holding = .idle := by
  obtain ⟨e, he, rfl, st, hst⟩ := story_of_sessionFails h
  exact recheckWhere_idle everyLine (some e.story) ((hasTurn_everyLine s t).trans ha) he h hst hso

end

/-! ### SET STORY KEY (R39, R40) -/

theorem expectedKeyBad_iff {body : List Byte} :
    expectedKeyBad body = true ↔ u8 body 4 ≠ 0 ∧ 16 ≤ u8 body 5 := by
  rw [expectedKeyBad, Bool.and_eq_true, flagAt_eq_true, decide_eq_true_iff]

theorem keyStale_iff {body : List Byte} {st : Story} : keyStale body st = true ↔
    u8 body 4 ≠ 0 ∧ (u8 body 5 ≠ st.key.val ∨ decide (u8 body 6 ≠ 0) ≠ st.embargo) := by
  rw [keyStale, Bool.and_eq_true, flagAt_eq_true, Bool.or_eq_true, decide_eq_true_iff, bne_iff_ne]
  rfl

/-- The reply about a key out of range carries what the story holds, where there is one (log entry 37). -/
theorem ownSetStoryKey_range {body : List Byte} {s : State}
    (h : 16 ≤ u8 body 2 ∨ (u8 body 4 ≠ 0 ∧ 16 ≤ u8 body 5)) : ownSetStoryKey body s =
      ((storyOf s (u16 body 0)).map fun st => refuseWith .range (eKey st) s).getD
        (refuse .range s) := by
  unfold ownSetStoryKey
  rcases h with h | h
  · rw [inRange_eq_none h]
    dsimp only
    cases storyOf s (u16 body 0) with
    | none => rfl
    | some st => rfl
  · rw [expectedKeyBad_iff.mpr h]
    dsimp only
    split
    · next heq => cases heq
    · cases storyOf s (u16 body 0) with
      | none => rfl
      | some st => rfl

/-- The state that SET STORY KEY leaves before the end of its event. -/
def keySet (id : Nat) (st : Story) (s : State) : State := storyRechecked id (setStory id st s)

theorem keySet_keeps (id : Nat) (st : Story) (s : State) :
    KeepsBut [.stories, .fit, .panes, .notices] s (keySet id st s) :=
  (storyRechecked_keeps id _).step (by decide) ((setStory_keeps s id st).mono (by decide))

/-- The entry with the new pair, released where a session on it failed. -/
theorem keySet_entry (id : Nat) (st : Story) (s : State) :
    ∃ so, storyOf (keySet id st s) id = some so ∧
      (so = st ∨ ∃ f, so = { st with holding := .idle, fit := f }) := by
  have hput : storyOf (setStory id st s) id = some st := by
    rw [storyOf_setStory, if_pos rfl]
  rcases (storyRechecked_sameAuthority id (setStory id st s)).entries id with h | ⟨st', f, hst', h⟩
  · exact ⟨st, h.trans hput, .inl rfl⟩
  · cases hput.symm.trans hst'
    exact ⟨_, h, .inr ⟨f, rfl⟩⟩

theorem keySet_others (id : Nat) (st : Story) (s : State) {x : Nat} (hx : x ≠ id) :
    storyOf (keySet id st s) x = storyOf s x := by
  rw [keySet, storyRechecked_others id _ hx, storyOf_setStory, if_neg hx]

/-- The re-check at the attached terminals, read from the state with the new pair before the order leaves the inbound queue. -/
theorem keySet_panes (id : Nat) (st : Story) (s : State) {t : Fin 32}
    (ha : s.lines[t].attached = true) :
    PanesRechecked (some id) t (setStory id st s) (keySet id st (dropHead s)) :=
  storyRechecked_panes id (setStory id st s) (m := setStory id st (dropHead s))
    ⟨rfl, rfl, .of_stories rfl⟩ rfl ha

theorem ownSetStoryKey_known {body : List Byte} {s : State} {key : Fin 16}
    (hkey : u8 body 2 = key.val) (h : u8 body 4 = 0 ∨ u8 body 5 < 16) : ownSetStoryKey body s =
      withStory (u16 body 0) s fun st =>
        if keyStale body st then refuseWith .stale (eKey st) s
        else (keySet (u16 body 0) { st with key := key, embargo := decide (u8 body 3 ≠ 0) } s,
          ⟨.ok, eKey st⟩) := by
  have hgood : expectedKeyBad body = false := by
    rw [Bool.eq_false_iff, Ne, expectedKeyBad_iff]
    omega
  unfold ownSetStoryKey
  rw [inRange_of_val hkey, hgood]
  rfl

/-- Settles O24: the re-check is made at each attached terminal of the state with the new pair, and only releases this story. -/
theorem setStoryKeyWritesThePair : Obligations.SetStoryKeyWritesThePair := by
  intro tag body s hn ht
  refine ⟨fun st hst h => ?_, fun hnone h => ?_, fun key hkey hexpected =>
    ⟨refusesStory_of_own rfl ht hn (ownSetStoryKey_known hkey hexpected),
      fun st h1 h2 hst => ?_⟩⟩
  · refine reads_of_own (own := ownSetStoryKey) rfl ht hn ((ownSetStoryKey_range h).trans ?_)
    rw [storyOf_dropHead, hst]
    rfl
  · refine refuses_of_own (own := ownSetStoryKey) rfl ht hn ((ownSetStoryKey_range h).trans ?_)
    rw [storyOf_dropHead, hnone]
    rfl
  have hown := (ownSetStoryKey_known (s := dropHead s) hkey hexpected).trans
    (withStory_used h1 h2 hst)
  refine ⟨fun hpresent hdiffers => ?_, fun hsame => ?_⟩
  · refine reads_of_own (own := ownSetStoryKey) rfl ht hn (hown.trans ?_)
    rw [if_pos (keyStale_iff.mpr ⟨hpresent, hdiffers⟩)]
    rfl
  · rw [if_neg fun hstale => by
      obtain ⟨hpresent, hdiffers⟩ := keyStale_iff.mp hstale
      rcases hsame with h | ⟨h5, h6⟩
      · exact hpresent h
      · exact hdiffers.elim (· h5) (· h6)] at hown
    refine replies_of_own (own := ownSetStoryKey) rfl ht hn (congrArg Prod.snd hown) ?_
      (by decide) ?_
    · rw [hown]
      dsimp only
      exact keySet_keeps _ _ _
    · rw [hown]
      generalize hnew : ({ st with key := key, embargo := decide (u8 body 3 ≠ 0) } : Story) = st'
      obtain ⟨so, hso, hreleased⟩ := keySet_entry (u16 body 0) st' (dropHead s)
      have hothers := fun x (hx : x ≠ u16 body 0) => keySet_others (u16 body 0) st' (dropHead s) hx
      have hpanes := fun (t : Fin 32) (ha : s.lines[t].attached = true) =>
        keySet_panes (u16 body 0) st' s ha
      have hkept := fun t => storyRechecked_detached (t := t) (u16 body 0)
        (setStory (u16 body 0) st' (dropHead s))
      have hpass := storyRechecked_stories_fit (u16 body 0)
        (setStory (u16 body 0) st' (dropHead s))
      have hidle := fun t => storyRechecked_idle (t := t) (so := so) (u16 body 0)
        (setStory (u16 body 0) st' (dropHead s))
      unfold keySet at *
      generalize storyRechecked (u16 body 0) (setStory (u16 body 0) st' (dropHead s)) = u at *
      refine ⟨⟨so, hso, ?_, ?_, ?_⟩, fun t ha => panes_of_view (hkept t ha), hothers⟩
      · rcases hreleased with rfl | ⟨f, rfl⟩
        · rw [← hnew]
        · rw [← hnew]
      · rcases hreleased with rfl | ⟨f, rfl⟩
        · exact .inl (by rw [← hnew])
        · exact .inr rfl
      · rintro s1 rfl
        exact ⟨fun t ha => ⟨hpanes t ha, fun hfails => hidle t ha hfails hso⟩, hpass⟩

end Sys2Proof.Machine
end

section
/-! SUPPORT. The order SEND MESSAGE: a message to a terminal and to a desk's terminals (R42, R43). -/

namespace Sys2Proof.Machine

/-! ### The checks (R42) -/

/-- The message that a body's text and sender give. -/
def messageOf (text : List Byte) (sender : Fin 16) : Message :=
  ⟨(text.take 60).map plainByte, sender⟩

section
variable {body text : List Byte} {s : State} (htext : textAt body 4 (u8 body 3) = some text)
include htext

theorem ownSendMessage_empty (h : text = []) : ownSendMessage body s = refuse .malformed s := by
  unfold ownSendMessage
  rw [withText_some htext, if_pos h]

section
variable (hne : text ≠ [])
include hne

theorem ownSendMessage_sender (h : 16 ≤ u8 body 2) : ownSendMessage body s = refuse .range s := by
  unfold ownSendMessage
  rw [withText_some htext, if_neg hne, inRange_eq_none h]

variable {sender : Fin 16} (hsender : u8 body 2 = sender.val)
include hsender

theorem ownSendMessage_kind (h : 2 ≤ u8 body 0) : ownSendMessage body s = refuse .range s := by
  unfold ownSendMessage
  rw [withText_some htext, if_neg hne, inRange_of_val hsender]
  dsimp only
  rw [if_neg (by omega), if_neg (by omega)]

theorem ownSendMessage_noTerminal (h0 : u8 body 0 = 0) (h1 : 32 ≤ u8 body 1) :
    ownSendMessage body s = refuse .range s := by
  unfold ownSendMessage
  rw [withText_some htext, if_neg hne, inRange_of_val hsender]
  dsimp only
  rw [if_pos h0, inRange_eq_none h1]

theorem ownSendMessage_noDesk (h0 : u8 body 0 = 1) (h1 : 16 ≤ u8 body 1) :
    ownSendMessage body s = refuse .range s := by
  unfold ownSendMessage
  rw [withText_some htext, if_neg hne, inRange_of_val hsender]
  dsimp only
  rw [if_neg (by omega), if_pos h0, inRange_eq_none h1]

theorem ownSendMessage_terminal {t : Fin 32} (h0 : u8 body 0 = 0) (h1 : u8 body 1 = t.val) :
    ownSendMessage body s =
      if !s.lines[t].attached then refuse .noSuch s
      else if s.slots[t].isSome then refuse .full s
      else (setSlot t (some (messageOf text sender)) s,
        Reply.clampedIf (cleanText 60 text).2 []) := by
  unfold ownSendMessage
  rw [withText_some htext, if_neg hne, inRange_of_val hsender]
  dsimp only
  rw [if_pos h0, inRange_of_val h1]
  rfl

theorem ownSendMessage_desk {d : Fin 16} (h0 : u8 body 0 = 1) (h1 : u8 body 1 = d.val) :
    ownSendMessage body s = (deliver d (messageOf text sender) s,
      Reply.clampedIf (cleanText 60 text).2 (eDelivered s d)) := by
  unfold ownSendMessage
  rw [withText_some htext, if_neg hne, inRange_of_val hsender]
  dsimp only
  rw [if_neg (by omega), if_pos h0, inRange_of_val h1]
  rfl

end

theorem ownSendMessage_range (hne : text ≠ []) (h : 16 ≤ u8 body 2 ∨
      (u8 body 0 = 0 ∧ 32 ≤ u8 body 1) ∨ (u8 body 0 = 1 ∧ 16 ≤ u8 body 1) ∨ 2 ≤ u8 body 0) :
    ownSendMessage body s = refuse .range s := by
  by_cases hsender : 16 ≤ u8 body 2
  · exact ownSendMessage_sender htext hne hsender
  have hval : u8 body 2 = (⟨u8 body 2, by omega⟩ : Fin 16).val := rfl
  rcases h with h | ⟨h0, h1⟩ | ⟨h0, h1⟩ | h
  · exact absurd h hsender
  · exact ownSendMessage_noTerminal htext hne hval h0 h1
  · exact ownSendMessage_noDesk htext hne hval h0 h1
  · exact ownSendMessage_kind htext hne hval h

end

/-! ### A message to a terminal (R42) -/

theorem messageToATerminal : Clause.MessageToATerminal := by
  intro tag body text s hn htext ht
  refine ⟨fun hnil => ?_, fun hne h => ?_, fun t d hne h0 h1 h2 => ?_⟩
  · exact refuses_of_own (own := ownSendMessage) rfl ht hn (ownSendMessage_empty htext hnil)
  · exact refuses_of_own (own := ownSendMessage) rfl ht hn (ownSendMessage_range htext hne h)
  have hown := ownSendMessage_terminal (s := dropHead s) htext hne h2 h0 h1
  rw [dropHead_lines, dropHead_slots] at hown
  refine ⟨fun ha => ?_, fun ha hfull => ?_, fun ha hempty => ?_⟩
  · rw [ha] at hown
    exact refuses_of_own (own := ownSendMessage) rfl ht hn hown
  · rw [ha, hfull] at hown
    exact refuses_of_own (own := ownSendMessage) rfl ht hn hown
  · rw [ha, hempty] at hown
    refine replies_of_own (own := ownSendMessage) rfl ht hn ?_ ?_ (by decide) ?_
    · rw [hown]
      exact clampedIf_eq_not (cleanText_clamped_iff_not text 60) []
    · rw [hown]
      exact setSlot_keeps _ _ _
    · rw [hown]
      rfl

/-! ### A message to a desk (R43) -/

theorem deliver_slots (d : Fin 16) (m : Message) (s : State) (t : Fin 32) :
    (deliver d m s).slots[t] =
      if s.lines[t].attached = true ∧ s.lines[t].desk = d ∧ s.slots[t] = none then some m
      else s.slots[t] := by
  refine (Vector.getElem_ofFn t.isLt).trans (if_congr ?_ rfl rfl)
  rw [Bool.and_eq_true, Bool.and_eq_true, decide_eq_true_iff, Option.isNone_iff_eq_none, and_assoc]

theorem countP_deskTerminals (s : State) (d : Fin 16) (p : Fin 32 → Bool) :
    ((deskTerminals s d).filter p).length = (List.finRange 32).countP fun t =>
      s.lines[t].attached && decide (s.lines[t].desk = d) && p t := by
  rw [← List.countP_eq_length_filter, deskTerminals, List.countP_filter]
  simp only [Bool.and_comm]

theorem messageToADesk : Clause.MessageToADesk := by
  intro tag body text s d sender hn htext ht hne h0 h1 h2
  refine ⟨_, _, rfl, rfl, ?_⟩
  have hown := ownSendMessage_desk (s := dropHead s) htext hne h2 h0 h1
  rw [eDelivered, countP_deskTerminals, countP_deskTerminals, dropHead_lines, dropHead_slots] at hown
  refine replies_of_own (own := ownSendMessage) rfl ht hn ?_ ?_ (by decide) ?_
  · rw [hown]
    exact clampedIf_eq_not (cleanText_clamped_iff_not text 60) _
  · rw [hown]
    exact deliver_keeps _ _ _
  · rw [hown]
    exact deliver_slots d (messageOf text sender) (dropHead s)

/-- Settles O25: the owner's checks in their order, and one slot or the desk's slots filled. -/
theorem messagesFillEmptySlots : Obligations.MessagesFillEmptySlots :=
  ⟨messageToATerminal, messageToADesk⟩

end Sys2Proof.Machine
end

section
/-! SUPPORT. Keys with no edit session to act on: each key comes to its block at once, and an edit key without a session with focus EDIT gives the bell (R44, R68, R91, R105). -/

namespace Sys2Proof.Machine

/-! ### Each key's code (R67) -/

/-- The command is the key's: with nothing before it, the key is handed to its block and the event ends. -/
def Strikes (t : Fin 32) (i : Instr) (k : Key) : Prop :=
  ∀ s, DecoderFree s t → exec i s = .next (settle (handKey t k s))

/-- A command whose code the decoder takes strikes the code's key. -/
theorem strikes_of_code {t : Fin 32} {i : Instr} {c : Byte} {k : Key}
    (hi : ∀ s, exec i s = .next (settle (takeCode t c s))) (hprefix : c ≠ prefixCode)
    (hkey : plainKey c = some k) : Strikes t i k := fun s hfree => by
  rw [hi, takeCode_free hfree hprefix hkey]

section
variable (t : Fin 32)

theorem strikes_text {c : Byte} (h : isText c = true) : Strikes t (.textKey t c) (.text c) :=
  strikes_of_code (exec_textKey t c) (ne_prefixCode_of_isText h) (plainKey_text h)
theorem strikes_paragraph : Strikes t (.newParagraph t) .paragraph :=
  strikes_of_code (exec_newParagraph t) (by decide) (by decide)
theorem strikes_deleteBack : Strikes t (.deleteBack t) .deleteBack :=
  strikes_of_code (c := 0x08#8) (fun _ => rfl) (by decide) (by decide)
theorem strikes_deleteForward : Strikes t (.deleteForward t) .deleteForward :=
  strikes_of_code (c := 0x7F#8) (fun _ => rfl) (by decide) (by decide)
theorem strikes_toggle : Strikes t (.insertOvertypeToggle t) .toggle :=
  strikes_of_code (c := 0x0F#8) (fun _ => rfl) (by decide) (by decide)
theorem strikes_left : Strikes t (.cursorLeft t) .left :=
  strikes_of_code (c := 0x1C#8) (fun _ => rfl) (by decide) (by decide)
theorem strikes_right : Strikes t (.cursorRight t) .right :=
  strikes_of_code (c := 0x1D#8) (fun _ => rfl) (by decide) (by decide)
theorem strikes_up : Strikes t (.cursorUp t) .up :=
  strikes_of_code (c := 0x1E#8) (fun _ => rfl) (by decide) (by decide)
theorem strikes_down : Strikes t (.cursorDown t) .down :=
  strikes_of_code (c := 0x1F#8) (fun _ => rfl) (by decide) (by decide)
theorem strikes_switch : Strikes t (.paneSwitch t) .switch :=
  strikes_of_code (c := 0x09#8) (fun _ => rfl) (by decide) (by decide)
theorem strikes_clearMessage : Strikes t (.clearMessage t) .clearMessage :=
  strikes_of_code (c := 0x0B#8) (fun _ => rfl) (by decide) (by decide)
theorem strikes_repaint : Strikes t (.repaintKey t) .repaint :=
  strikes_of_code (c := 0x18#8) (fun _ => rfl) (by decide) (by decide)

end

/-! ### The keys that give the bell (R68, R105) -/

/-- A text or edit key (R68). -/
def Key.edits : Key → Bool
  | .clearMessage | .repaint | .function _ => false
  | _ => true

/-- A key that acts on an edit session with focus EDIT only: the text, delete, toggle and sideways keys (R105). -/
def Key.needsEdit (k : Key) : Bool := k.edits && decide (k ∉ [.up, .down, .switch])

theorem Key.edits_of_needsEdit {k : Key} (h : k.needsEdit = true) : k.edits = true :=
  (Bool.and_eq_true_iff.mp h).1

section
variable {t : Fin 32} {s : State} {k : Key}

/-- The text and edit keys go to the Edit Session Unit in NORMAL only (R68). -/
theorem handKey_edits (h : k.edits = true) : ∃ act, handKey t k s = editKey t act s := by
  cases k
  case clearMessage | repaint | function => cases h
  all_goals exact ⟨_, rfl⟩

theorem handKey_otherMode (h : k.edits = true) (hmode : s.screens[t].mode ≠ .normal) :
    handKey t k s = bell t s := by
  obtain ⟨act, hact⟩ := handKey_edits (t := t) (s := s) h
  rw [hact]
  exact if_neg hmode

theorem editKey_normal (hmode : s.screens[t].mode = .normal) (act : State → State) :
    editKey t act s = act s := if_pos hmode

/-- In NORMAL the keys that need an edit session look for it. -/
theorem handKey_needsEdit (h : k.needsEdit = true) (hmode : s.screens[t].mode = .normal) :
    ∃ act, handKey t k s = withEdit t s act := by
  cases k
  case clearMessage | repaint | function | up | down | switch => cases h
  all_goals exact ⟨_, editKey_normal hmode _⟩

theorem withEdit_closed (h : s.panes[t].session = none) (act : Session → Story → State) :
    withEdit t s act = bell t s := by
  unfold withEdit
  rw [h]

theorem withEdit_reference {e : Session} (he : s.panes[t].session = some e)
    (hfocus : e.focus = .reference) (act : Session → Story → State) :
    withEdit t s act = bell t s := by
  unfold withEdit
  rw [he]
  dsimp only
  rw [hfocus]

/-- With no edit session that has focus EDIT, the keys that need one give the bell (R105). -/
theorem handKey_outside (h : k.needsEdit = true) (hmode : s.screens[t].mode = .normal)
    (hout : ∀ act, withEdit t s act = bell t s) : handKey t k s = bell t s := by
  obtain ⟨act, hact⟩ := handKey_needsEdit h hmode
  rw [hact, hout]

theorem handKey_switch_closed (hmode : s.screens[t].mode = .normal)
    (h : s.panes[t].session = none) : handKey t .switch s = bell t s := by
  refine (editKey_normal hmode _).trans ?_
  unfold editSwitch
  rw [h]

/-- With both panes closed no pane is scrolled (R105). -/
theorem scrollsRef_closed (h : s.panes[t].session = none) (hr : s.panes[t].ref = none) :
    scrollsRef s.panes[t] = false := by
  unfold scrollsRef
  rw [h, hr]
  rfl

theorem handKey_up_closed (hmode : s.screens[t].mode = .normal) (h : s.panes[t].session = none)
    (hr : s.panes[t].ref = none) : handKey t .up s = bell t s := by
  refine (editKey_normal hmode _).trans ?_
  rw [editUp, if_neg (by rw [scrollsRef_closed h hr]; decide), withEdit_closed h]

theorem handKey_down_closed (hmode : s.screens[t].mode = .normal) (h : s.panes[t].session = none)
    (hr : s.panes[t].ref = none) : handKey t .down s = bell t s := by
  refine (editKey_normal hmode _).trans ?_
  rw [editDown, if_neg (by rw [scrollsRef_closed h hr]; decide), withEdit_closed h]

/-- A key that gives the bell changes its terminal's bell and nothing else (R90). -/
theorem Strikes.gives_bell {i : Instr} (h : Strikes t i k) (hfree : DecoderFree s t)
    (hbell : handKey t k s = bell t s) : Completes i [.screens] s fun u =>
      u.screens = s.screens.set t { s.screens[t] with bell := true } :=
  ⟨bell t s, by rw [h s hfree, hbell], bell_keeps t s, rfl⟩

end

/-! ### The commands of the keys -/

section
variable (t : Fin 32) (c : Byte)

/-- The commands of the keys that need a session with focus EDIT. -/
def editOnlyKeys : List Instr :=
  [.textKey t c, .newParagraph t, .deleteBack t, .deleteForward t, .insertOvertypeToggle t,
    .cursorLeft t, .cursorRight t]

theorem strikes_editOnlyKeys (h : isText c = true) :
    ∀ i ∈ editOnlyKeys t c, ∃ k, Strikes t i k ∧ k.needsEdit = true := by
  simp only [editOnlyKeys, List.forall_mem_cons]
  exact ⟨⟨_, strikes_text t h, rfl⟩, ⟨_, strikes_paragraph t, rfl⟩, ⟨_, strikes_deleteBack t, rfl⟩,
    ⟨_, strikes_deleteForward t, rfl⟩, ⟨_, strikes_toggle t, rfl⟩, ⟨_, strikes_left t, rfl⟩,
    ⟨_, strikes_right t, rfl⟩, List.forall_mem_nil _⟩

theorem strikes_editKeys (h : isText c = true) :
    ∀ i ∈ editOnlyKeys t c ++ [.cursorUp t, .cursorDown t, .paneSwitch t],
      ∃ k, Strikes t i k ∧ k.edits = true := by
  refine List.forall_mem_append.mpr ⟨fun i hi => ?_, ?_⟩
  · obtain ⟨k, hk, hneeds⟩ := strikes_editOnlyKeys t c h i hi
    exact ⟨k, hk, Key.edits_of_needsEdit hneeds⟩
  · simp only [List.forall_mem_cons]
    exact ⟨⟨_, strikes_up t, rfl⟩, ⟨_, strikes_down t, rfl⟩, ⟨_, strikes_switch t, rfl⟩,
      List.forall_mem_nil _⟩

end

/-! ### The statements -/

theorem clearMessageAndRepaintKeys : Clause.ClearMessageAndRepaintKeys := by
  intro t s hfree
  refine ⟨fun m hm => ?_, fun hm => ?_, ?_⟩
  · obtain ⟨hpending, hevents⟩ :=
      raiseTerminal_self t TermEvents.addMessageCleared (setSlot t none s)
    have hclear : handKey t .clearMessage s =
        raiseTerminal t TermEvents.addMessageCleared (setSlot t none s) :=
      if_pos (by rw [hm]; rfl)
    have hexec := strikes_clearMessage t s hfree
    rw [hclear] at hexec
    exact ⟨_, hexec, (raiseTerminal_keeps _ _ _).step (by decide)
      ((setSlot_keeps _ _ _).mono (by decide)), rfl, hpending, hevents⟩
  · have hclear : handKey t .clearMessage s = s := if_neg (by rw [hm]; decide)
    exact ⟨s, by rw [strikes_clearMessage t s hfree, hclear], KeepsBut.refl _ _, trivial⟩
  · exact ⟨_, strikes_repaint t s hfree, repaint_keeps t s, rfl⟩

theorem keysWithoutASessionGiveTheBell : Clause.KeysWithoutASessionGiveTheBell := by
  intro t c s hfree hc
  refine ⟨fun i hi hmode => ?_, fun i hi hmode hsession => ?_⟩
  · obtain ⟨k, hk, hedits⟩ := strikes_editKeys t c hc i hi
    exact hk.gives_bell hfree (handKey_otherMode hedits hmode)
  · rcases List.mem_append.mp (show i ∈ editOnlyKeys t c ++ [.paneSwitch t] from hi) with hi | hi
    · obtain ⟨k, hk, hneeds⟩ := strikes_editOnlyKeys t c hc i hi
      exact hk.gives_bell hfree (handKey_outside hneeds hmode (withEdit_closed hsession))
    · obtain rfl := List.mem_singleton.mp hi
      exact (strikes_switch t).gives_bell hfree (handKey_switch_closed hmode hsession)

theorem keysOutsideTheFocusGiveTheBell : Clause.KeysOutsideTheFocusGiveTheBell := by
  intro t c s hfree hc hmode
  refine ⟨fun e he hfocus i hi => ?_, fun hsession href i hi => ?_, fun hsession => ?_⟩
  · obtain ⟨k, hk, hneeds⟩ := strikes_editOnlyKeys t c hc i hi
    exact hk.gives_bell hfree (handKey_outside hneeds hmode (withEdit_reference he hfocus))
  · rcases List.mem_pair.mp hi with rfl | rfl
    · exact (strikes_up t).gives_bell hfree (handKey_up_closed hmode hsession href)
    · exact (strikes_down t).gives_bell hfree (handKey_down_closed hmode hsession href)
  · exact (strikes_switch t).gives_bell hfree (handKey_switch_closed hmode hsession)

/-- Settles O34: each key's command hands the key to its block, and an edit key that finds no session with focus EDIT gives the bell. -/
theorem keysOutsideAnEditSession : Obligations.KeysOutsideAnEditSession :=
  ⟨clearMessageAndRepaintKeys, keysWithoutASessionGiveTheBell, keysOutsideTheFocusGiveTheBell⟩

end Sys2Proof.Machine
end

section
/-! SUPPORT. The order MOVE STORY: its checks in their order, and the move as a change of two basket lists and of one entry, followed by the re-check of the panes that show the story (R31, R35 to R38, R116, R134). -/

namespace Sys2Proof.Machine

/-! ### The checks (R36) -/

theorem optByte_none {b : List Byte} {i : Nat} (h : u8 b i = 0xFF) : optByte b i = none := if_pos h

theorem optByte_some {b : List Byte} {i : Nat} (h : u8 b i ≠ 0xFF) : optByte b i = some (u8 b i) :=
  if_neg h

/-- The acting terminal that a body gives: none for the host, or an attached terminal (R34). -/
def ActsAs (b : List Byte) (i : Nat) (s : State) (acting : Option (Fin 32)) : Prop :=
  acting = none ∧ u8 b i = 0xFF ∨
    ∃ t : Fin 32, acting = some t ∧ u8 b i = t.val ∧ s.lines[t].attached = true

theorem withActing_known {b : List Byte} {i : Nat} {s : State} {acting : Option (Fin 32)}
    (h : ActsAs b i s acting) (k : Option (Fin 32) → Answer) : withActing b i s k = k acting := by
  unfold withActing
  rcases h with ⟨rfl, hi⟩ | ⟨t, rfl, hi, ha⟩
  · rw [optByte_none hi]
  · rw [optByte_some (by omega)]
    dsimp only
    rw [inRange_of_val hi]
    exact if_pos ha

theorem withActing_range {b : List Byte} {i : Nat} {s : State} (h : u8 b i ≠ 0xFF)
    (h32 : 32 ≤ u8 b i) (k : Option (Fin 32) → Answer) : withActing b i s k = refuse .range s := by
  unfold withActing
  rw [optByte_some h]
  dsimp only
  rw [inRange_eq_none h32]

theorem withActing_detached {b : List Byte} {i : Nat} {s : State} {t : Fin 32}
    (h : u8 b i = t.val) (ha : s.lines[t].attached = false) (k : Option (Fin 32) → Answer) :
    withActing b i s k = refuse .noSuch s := by
  unfold withActing
  rw [optByte_some (by omega)]
  dsimp only
  rw [inRange_of_val h]
  exact if_neg (by rw [ha]; decide)

theorem expectedBasketBad_iff {body : List Byte} :
    expectedBasketBad body = true ↔ u8 body 4 ≠ 0xFF ∧ 64 ≤ u8 body 4 := by
  unfold expectedBasketBad
  by_cases h : u8 body 4 = 0xFF
  · rw [optByte_none h]
    simp [h]
  · rw [optByte_some h]
    simp [h]

/-- What MOVE STORY answers once its checks are passed, by the story's state (R37, R38). -/
def moveAnswer (body : List Byte) (target : Fin 64) (acting : Option (Fin 32)) (st : Story)
    (s : State) : Answer :=
  match st.holding with
  | .idle =>
    (moveTo (u16 body 0) st.basket target s,
      ⟨.ok, eMoved (moveTo (u16 body 0) st.basket target s) (u16 body 0) target⟩)
  | .editing t =>
    if flagAt body 8 && decide (acting = some t) then
      (moveTo (u16 body 0) st.basket target (closeSession t true s),
        ⟨.ok, eMoved (moveTo (u16 body 0) st.basket target (closeSession t true s))
          (u16 body 0) target ++ eFlag true⟩)
    else refuseWith .locked (eHolding st.holding) s
  | .filing _ => refuseWith .locked (eHolding st.holding) s
  | .setting _ => refuseWith .locked (eHolding st.holding) s

theorem ownMoveStory_identity {body : List Byte} {s : State}
    (h : 64 ≤ u8 body 2 ∨ expectedBasketBad body = true) :
    ownMoveStory body s = refuse .range s := by
  unfold ownMoveStory
  rcases h with h | h
  · rw [inRange_eq_none h]
  · rw [h]
    dsimp only
    split
    · next heq => cases heq
    · rfl

theorem ownMoveStory_story {body : List Byte} {s : State} {target : Fin 64}
    (htarget : u8 body 2 = target.val) (hexpected : expectedBasketBad body = false) :
    ownMoveStory body s = withStory (u16 body 0) s fun st => withActing body 3 s fun acting =>
      if moveStale body st then refuseWith .stale (e8 st.basket ++ eWord st.version) s
      else if !mayMove s acting st target then refuse .denied s
      else moveAnswer body target acting st s := by
  unfold ownMoveStory
  rw [inRange_of_val htarget, hexpected]
  rfl

theorem moveStoryChecksIdentities : Clause.MoveStoryChecksIdentities := by
  intro tag body s hn ht
  refine ⟨fun h => ?_, fun h1 h2 htarget hexpected hnone => ?_⟩
  · refine refuses_of_own (own := ownMoveStory) rfl ht hn ?_
    by_cases hbad : 64 ≤ u8 body 2 ∨ expectedBasketBad body = true
    · exact ownMoveStory_identity hbad
    · obtain ⟨htarget, hexpected⟩ := not_or.mp hbad
      rw [ownMoveStory_story (target := ⟨u8 body 2, by omega⟩) rfl (Bool.eq_false_iff.mpr hexpected)]
      rw [expectedBasketBad_iff] at hexpected
      exact withStory_range (by tauto)
  · refine refuses_of_own (own := ownMoveStory) rfl ht hn ?_
    rw [ownMoveStory_story (target := ⟨u8 body 2, htarget⟩) rfl
      (Bool.eq_false_iff.mpr fun hbad => by have := expectedBasketBad_iff.mp hbad; omega)]
    exact withStory_free h1 h2 hnone

section
variable {body : List Byte} {s : State} {target : Fin 64} {st : Story}
  {acting : Option (Fin 32)} (htarget : u8 body 2 = target.val)
  (hexpected : expectedBasketBad body = false) (h1 : 1 ≤ u16 body 0) (h2 : u16 body 0 ≤ 1024)
  (hst : storyOf s (u16 body 0) = some st)
include htarget hexpected h1 h2 hst

theorem ownMoveStory_used : ownMoveStory body s = withActing body 3 s fun acting =>
      if moveStale body st then refuseWith .stale (e8 st.basket ++ eWord st.version) s
      else if !mayMove s acting st target then refuse .denied s
      else moveAnswer body target acting st s :=
  (ownMoveStory_story htarget hexpected).trans (withStory_used h1 h2 hst)

variable (hacting : ActsAs body 3 s acting)
include hacting

theorem ownMoveStory_stale (hstale : moveStale body st = true) :
    ownMoveStory body s = refuseWith .stale (e8 st.basket ++ eWord st.version) s := by
  rw [ownMoveStory_used htarget hexpected h1 h2 hst, withActing_known hacting, if_pos hstale]

theorem ownMoveStory_denied (hfresh : moveStale body st = false)
    (hmay : mayMove s acting st target = false) : ownMoveStory body s = refuse .denied s := by
  rw [ownMoveStory_used htarget hexpected h1 h2 hst, withActing_known hacting, hfresh, hmay]
  rfl

theorem ownMoveStory_granted (hfresh : moveStale body st = false)
    (hmay : mayMove s acting st target = true) :
    ownMoveStory body s = moveAnswer body target acting st s := by
  rw [ownMoveStory_used htarget hexpected h1 h2 hst, withActing_known hacting, hfresh, hmay]
  rfl

end

theorem moveAnswer_locked {body : List Byte} {target : Fin 64} {acting : Option (Fin 32)}
    {st : Story} {s : State} (h : (∃ w, st.holding = .filing w) ∨ (∃ c, st.holding = .setting c) ∨
      ∃ t, st.holding = .editing t ∧ ¬ (u8 body 8 ≠ 0 ∧ acting = some t)) :
    moveAnswer body target acting st s = refuseWith .locked (eHolding st.holding) s := by
  unfold moveAnswer
  rcases h with ⟨w, hw⟩ | ⟨c, hc⟩ | ⟨t, ht, hno⟩
  · rw [hw]
  · rw [hc]
  · rw [ht]
    dsimp only
    exact if_neg fun hyes => hno (by
      rwa [Bool.and_eq_true, flagAt_eq_true, decide_eq_true_iff] at hyes)

theorem moveStoryRefusals : Clause.MoveStoryRefusals := by
  intro tag body s st target hn ht htarget hexpected h1 h2 hst
  have hused := ownMoveStory_used (s := dropHead s) htarget hexpected h1 h2 hst
  refine ⟨fun hpresent h32 => ?_, fun t h3 ha => ?_, fun acting hacting =>
    ⟨fun hstale => ?_, fun hfresh hmay => ?_, fun hfresh hmay hheld => ?_⟩⟩
  · exact refuses_of_own (own := ownMoveStory) rfl ht hn
      (hused.trans (withActing_range hpresent h32 _))
  · exact refuses_of_own (own := ownMoveStory) rfl ht hn
      (hused.trans (withActing_detached (s := dropHead s) h3 ha _))
  · exact reads_of_own (own := ownMoveStory) rfl ht hn
      (ownMoveStory_stale (s := dropHead s) htarget hexpected h1 h2 hst hacting hstale)
  · exact refuses_of_own (own := ownMoveStory) rfl ht hn
      (ownMoveStory_denied (s := dropHead s) htarget hexpected h1 h2 hst hacting hfresh hmay)
  · exact reads_of_own (own := ownMoveStory) rfl ht hn
      ((ownMoveStory_granted (s := dropHead s) htarget hexpected h1 h2 hst hacting hfresh hmay).trans
        (moveAnswer_locked hheld))

/-! ### Classes in lists (R31) -/

theorem classOf_eq (s : State) (x : Nat) :
    classOf s x = ((storyOf s x).map fun st => st.priority.rank).getD 2 := by
  unfold classOf
  cases storyOf s x with
  | none => rfl
  | some st => rfl

theorem classOf_of_priority {s u : State} {x : Nat}
    (h : (storyOf u x).map (fun st => st.priority.rank) =
      (storyOf s x).map fun st => st.priority.rank) : classOf u x = classOf s x := by
  rw [classOf_eq, classOf_eq, h]

theorem OnlyReleases.classOf_same {s u : State} (h : OnlyReleases s u) (x : Nat) :
    classOf u x = classOf s x := classOf_of_priority (h.map (fun _ _ => rfl) x)

theorem JoinsTail.of_classes {s u : State} {rank id : Nat} {old new : List Nat}
    (h : JoinsTail s rank id old new) (hc : ∀ x, classOf u x = classOf s x) :
    JoinsTail u rank id old new := by
  unfold JoinsTail at h ⊢
  simpa only [hc] using h

/-! ### The move of one entry between two lists (R31, R37) -/

/-- The state with the story's entry moved, before it stands in a list. -/
def entryMoved (id : Nat) (source target : Fin 64) (s : State) : State :=
  modStory id (fun st => { st with basket := target, moved := stamp s }) (leaveBasket source id s)

/-- The state of a move before the panes are re-checked. -/
def storyMoved (id : Nat) (source target : Fin 64) (s : State) : State :=
  joinBasket target id (entryMoved id source target s)

theorem moveTo_eq (id : Nat) (source target : Fin 64) (s : State) :
    moveTo id source target s = storyRechecked id (storyMoved id source target s) := rfl

section
variable (id : Nat) (source target : Fin 64) (s : State)

theorem storyMoved_keeps : KeepsBut [.stories, .baskets] s (storyMoved id source target s) :=
  (joinBasket_keeps _ _ _).step (by decide) ((modStory_keeps _ _ _).step (by decide)
    ((leaveBasket_keeps _ _ _).mono (by decide)))

theorem storyOf_storyMoved (x : Nat) : storyOf (storyMoved id source target s) x =
    if x = id then
      (storyOf s x).map fun st => { st with basket := target, moved := stamp s }
    else storyOf s x := storyOf_modStory id x _ (leaveBasket source id s)

theorem classOf_entryMoved (x : Nat) : classOf (entryMoved id source target s) x = classOf s x := by
  refine classOf_of_priority (Eq.trans (congrArg _ (storyOf_storyMoved id source target s x)) ?_)
  split
  · rw [Option.map_map]
    rfl
  · rfl

theorem entryMoved_baskets (x : Fin 64) : (entryMoved id source target s).baskets[x] =
    { s.baskets[x] with
      list := if x = source then s.baskets[x].list.erase id else s.baskets[x].list } := by
  have hbaskets : (entryMoved id source target s).baskets = (leaveBasket source id s).baskets :=
    modStory_keeps _ _ _ .baskets (by decide)
  rw [hbaskets, leaveBasket_baskets]

/-- The target's list after a move (R31). -/
theorem storyMoved_target : JoinsTail (storyMoved id source target s) (classOf s id) id
    (if source = target then s.baskets[target].list.erase id else s.baskets[target].list)
    (storyMoved id source target s).baskets[target].list := by
  have hself : (storyMoved id source target s).baskets[target].list =
      joinList (entryMoved id source target s) (classOf (entryMoved id source target s) id) id
        (entryMoved id source target s).baskets[target].list :=
    congrArg Basket.list (modBasket_self target _ (entryMoved id source target s))
  rw [hself, classOf_entryMoved, entryMoved_baskets]
  dsimp only
  rw [if_congr eq_comm rfl rfl]
  exact (joinList_joinsTail _ _ _ _).of_classes fun x => rfl

theorem storyMoved_source (h : source ≠ target) :
    (storyMoved id source target s).baskets[source].list = s.baskets[source].list.erase id := by
  rw [show (storyMoved id source target s).baskets[source] = _ from modBasket_other _ _ h,
    entryMoved_baskets, if_pos rfl]

theorem storyMoved_elsewhere {x : Fin 64} (hs : x ≠ source) (ht : x ≠ target) :
    (storyMoved id source target s).baskets[x] = s.baskets[x] := by
  rw [show (storyMoved id source target s).baskets[x] = _ from modBasket_other _ _ ht,
    entryMoved_baskets, if_neg hs]

end

/-- What a move makes of the basket lists: s the state before, u the state after it (R31, R37). -/
structure ListsMoved (id rank : Nat) (source target : Fin 64) (s u : State) : Prop where
  others : ∀ x : Fin 64, x ≠ source → x ≠ target → u.baskets[x] = s.baskets[x]
  left : source ≠ target → u.baskets[source].list = s.baskets[source].list.erase id
  joined : JoinsTail u rank id
    (if source = target then s.baskets[target].list.erase id else s.baskets[target].list)
    u.baskets[target].list

/-- The re-check of panes leaves the lists and the classes of stories as the move made them. -/
theorem moveTo_listsMoved {id : Nat} {source target : Fin 64} {s : State} {st : Story}
    (hst : storyOf s id = some st) :
    ListsMoved id st.priority.rank source target s (moveTo id source target s) := by
  have hrank : classOf s id = st.priority.rank := by
    unfold classOf
    rw [hst]
  have hbaskets : (moveTo id source target s).baskets = (storyMoved id source target s).baskets :=
    storyRechecked_keeps id _ .baskets (by decide)
  have hjoins := storyMoved_target id source target s
  have hsource := storyMoved_source id source target s
  have helse := fun x => storyMoved_elsewhere id source target s (x := x)
  have hclass := (storyRechecked_sameAuthority id (storyMoved id source target s)).entries.classOf_same
  rw [hrank] at hjoins
  rw [← moveTo_eq] at hclass
  generalize moveTo id source target s = u at *
  refine ⟨?_, ?_, ?_⟩
  · rw [hbaskets]
    exact fun x hs ht => helse x hs ht
  · rw [hbaskets]
    exact hsource
  · rw [hbaskets]
    exact hjoins.of_classes hclass

/-! ### The reply (R37) -/

theorem eMoved_used {u : State} {id : Nat} {so : Story} (target : Fin 64)
    (h : storyOf u id = some so) : eMoved u id target =
      e8 target ++ e16 (u.baskets[target].list.idxOf id) ++ eWord so.version ++ eTime so.moved := by
  unfold eMoved
  rw [h, List.append_assoc _ (eWord so.version)]

/-- A frame loses a field that turns out to be as it was. -/
theorem KeepsBut.without {f : Field} {fs : List Field} {s u : State} (h : KeepsBut (f :: fs) s u)
    (hf : f.same s u) : KeepsBut fs s u := by
  intro g hg
  by_cases hgf : g = f
  · exact hgf ▸ hf
  · exact h g fun hmem => (List.mem_cons.mp hmem).elim hgf hg

/-! ### The move of an IDLE story (R37) -/

/-- A move that finds no session on its story closes none: stories and offers stay as the move makes them. -/
theorem moveTo_stories_fit {id : Nat} {source target : Fin 64} {s : State}
    (h : ∀ t : Fin 32, ∀ e, s.panes[t].session = some e → e.story ≠ id) :
    (∀ x, storyOf (moveTo id source target s) x = if x = id then
      (storyOf s x).map fun st => { st with basket := target, moved := stamp s }
      else storyOf s x) ∧ (moveTo id source target s).fit = s.fit := by
  have hpanes : (storyMoved id source target s).panes = s.panes :=
    storyMoved_keeps id source target s .panes (by decide)
  obtain ⟨hstories, hfit⟩ := storyRechecked_stories_fit id (storyMoved id source target s)
    fun t _ => sessionFails_elsewhere (by rw [hpanes]; exact h t)
  exact ⟨fun x => (storyOf_of_stories hstories x).trans (storyOf_storyMoved id source target s x),
    hfit.trans (storyMoved_keeps id source target s .fit (by decide))⟩

theorem KeepsBut.paneView {fs : List Field} {s u : State} (h : KeepsBut fs s u)
    (hf : Field.panes ∉ fs ∧ Field.notices ∉ fs) (t : Fin 32) : paneView u t = paneView s t := by
  have hpanes : u.panes = s.panes := h .panes hf.1
  have hnotices : u.notices = s.notices := h .notices hf.2
  unfold Machine.paneView
  rw [hpanes, hnotices]

/-- The re-check that follows a move, read from any state s1 with the authority and the panes that the move leaves (R35). -/
theorem moveTo_panes {id : Nat} {source target : Fin 64} {s s1 : State}
    (hsame : SameAuthority s1 (storyMoved id source target s)) {t : Fin 32}
    (hview : paneView s t = paneView s1 t) :
    (s1.lines[t].attached = true → PanesRechecked (some id) t s1 (moveTo id source target s)) ∧
      (s1.lines[t].attached = false → paneView (moveTo id source target s) t = paneView s1 t) := by
  have hmoved := ((storyMoved_keeps id source target s).paneView (by decide) t).trans hview
  refine ⟨fun ha => storyRechecked_panes id s1 hsame hmoved ha, fun ha => ?_⟩
  refine (storyRechecked_detached id (storyMoved id source target s) ?_).trans hmoved
  simp only [hsame.lines]
  exact ha

theorem moveStoryMovesAnIdleStory : Clause.MoveStoryMovesAnIdleStory := by
  intro tag body s st target acting hn ht htarget hexpected h1 h2 hst hacting hfresh hmay hidle
    hnone
  have hown := ownMoveStory_granted (s := dropHead s) htarget hexpected h1 h2 hst hacting hfresh hmay
  have hanswer : moveAnswer body target acting st (dropHead s) =
      (moveTo (u16 body 0) st.basket target (dropHead s), ⟨.ok, eMoved
        (moveTo (u16 body 0) st.basket target (dropHead s)) (u16 body 0) target⟩) := by
    unfold moveAnswer
    rw [hidle]
  rw [hanswer] at hown
  obtain ⟨hstories, hfit⟩ := moveTo_stories_fit (source := st.basket) (target := target)
    (s := dropHead s) hnone
  have hentry : storyOf (moveTo (u16 body 0) st.basket target (dropHead s)) (u16 body 0) =
      some { st with basket := target, moved := stamp s } := by
    rw [hstories, if_pos rfl, storyOf_dropHead, hst]
    rfl
  have hkeeps : KeepsBut [.stories, .baskets, .panes, .notices] (dropHead s)
      (moveTo (u16 body 0) st.basket target (dropHead s)) :=
    ((moveTo_keeps _ _ _ _).mono (by decide)).without (f := .fit) hfit
  rw [eMoved_used target hentry] at hown
  refine ⟨_, replies_of_own (own := ownMoveStory) rfl ht hn (congrArg Prod.snd hown) ?_ (by decide)
    ?_⟩
  · rw [hown]
    dsimp only
    exact hkeeps
  · rw [hown]
    have hsame : SameAuthority
        (setStory (u16 body 0) { st with basket := target, moved := stamp s } s)
        (storyMoved (u16 body 0) st.basket target (dropHead s)) := by
      have hmoved := storyMoved_keeps (u16 body 0) st.basket target (dropHead s)
      refine ⟨hmoved .lines (by decide), hmoved .desks (by decide), fun x => .inl ?_⟩
      rw [storyOf_storyMoved, storyOf_setStory]
      split
      · next hx => rw [hx, storyOf_dropHead, hst]; rfl
      · rfl
    have hpanes := fun t => moveTo_panes (t := t) hsame rfl
    obtain ⟨hothers, hleft, hjoined⟩ := moveTo_listsMoved (source := st.basket) (target := target)
      (s := dropHead s) hst
    generalize moveTo (u16 body 0) st.basket target (dropHead s) = u at *
    refine ⟨rfl, hentry, fun x hx => ?_, ?_, hothers, hleft, hjoined⟩
    · exact (hstories x).trans (if_neg hx)
    · rintro s1 rfl t
      exact ⟨fun ha => (hpanes t).1 ha, fun ha => panes_of_view ((hpanes t).2 ha)⟩

/-! ### The move with the holder's session closed (R38) -/

theorem stamp_of_clock {s u : State} (h : u.clock = s.clock) : stamp u = stamp s := by
  unfold stamp
  rw [h]

/-- The end of a session and a move of its story commute: what is left of the entry is moved. -/
theorem SessionEnded.moved {s c u : State} {e : Session} {st : Story} {target : Fin 64}
    {time : Option Nat} (h : SessionEnded s c e st) (hfit : u.fit = c.fit)
    (hst : storyOf u e.story =
      (storyOf c e.story).map fun st => { st with basket := target, moved := time }) :
    SessionEnded s u e { st with basket := target, moved := time } := by
  obtain ⟨hplain, hoffer⟩ := h
  refine ⟨fun hm => ?_, fun hm => ?_⟩
  · obtain ⟨hcfit, hc⟩ := hplain hm
    exact ⟨hfit.trans hcfit, by rw [hst, hc]; rfl⟩
  · obtain ⟨hnot, hyes⟩ := hoffer hm
    refine ⟨fun hno => ?_, fun hl hq => ⟨fun hroom => ?_, fun hfull => ?_⟩⟩
    · obtain ⟨hcfit, hc⟩ := hnot hno
      exact ⟨hfit.trans hcfit, by rw [hst, hc]; rfl⟩
    · obtain ⟨hcfit, hc⟩ := (hyes hl hq).1 hroom
      exact ⟨hfit.trans hcfit, by rw [hst, hc]; rfl⟩
    · obtain ⟨hcfit, hc⟩ := (hyes hl hq).2 hfull
      exact ⟨hfit.trans hcfit, by rw [hst, hc]; rfl⟩

theorem PanesRechecked.session_none {only : Option Nat} {t : Fin 32} {s u : State}
    (h : PanesRechecked only t s u) (hs : s.panes[t].session = none) :
    u.panes[t].session = none := by
  obtain ⟨-, -, hpass, -, -, -, hcleared, -⟩ := h
  have hfails : sessionFails s t only = false := by
    rw [sessionFails_eq, hs]
    rfl
  cases hr : refFails s t only with
  | false => rw [(hpass hfails hr).1, hs]
  | true => rw [hcleared hr hfails, hs]; rfl

/-- Where no pane shows the story, a move leaves the notices alone. -/
theorem moveTo_notices {id : Nat} {source target : Fin 64} {s : State}
    (hs : ∀ t : Fin 32, ∀ e, s.panes[t].session = some e → e.story ≠ id)
    (hr : ∀ t : Fin 32, ∀ r, s.panes[t].ref = some r → r.story ≠ id) :
    (moveTo id source target s).notices = s.notices := by
  have hkeeps := storyMoved_keeps id source target s
  have hpanes : (storyMoved id source target s).panes = s.panes := hkeeps .panes (by decide)
  have hpass : storyRechecked id (storyMoved id source target s) = storyMoved id source target s :=
    recheckWhere_passes everyLine (some id) fun t _ =>
      ⟨sessionFails_elsewhere (by rw [hpanes]; exact hs t),
        refFails_elsewhere (by rw [hpanes]; exact hr t)⟩
  rw [moveTo_eq, hpass]
  exact hkeeps .notices (by decide)

/-- The state that the statement re-checks: the entry moved and released, and the holder's pane closed. -/
def movedAndClosed (id : Nat) (st : Story) (target : Fin 64) (t : Fin 32) (s : State) : State :=
  { setStory id { st with basket := target, moved := stamp s, holding := .idle } s with
    panes := s.panes.set t { s.panes[t] with session := none } }

theorem movedAndClosed_self (id : Nat) (st : Story) (target : Fin 64) (t : Fin 32) (s : State) :
    (movedAndClosed id st target t s).panes[t].session = none :=
  congrArg Panes.session (Vector.getElem_set_self t.isLt)

theorem movedAndClosed_other (id : Nat) (st : Story) (target : Fin 64) {t x : Fin 32} (s : State)
    (hx : x ≠ t) : paneView (movedAndClosed id st target t s) x = paneView s x :=
  Prod.ext (Vector.getElem_set_ne t.isLt x.isLt fun he => hx (Fin.ext he.symm)) rfl

section
variable {s : State} {t : Fin 32} {e : Session} {st : Story} {target : Fin 64}
  (he : s.panes[t].session = some e) (hst : storyOf s e.story = some st)
include he

/-- One state for the statement, one for the machine: before the lists change they show the same panes. -/
theorem paneView_movedAndClosed (x : Fin 32) :
    paneView (closeSession t true s) x = paneView (movedAndClosed e.story st target t s) x := by
  unfold paneView
  rw [closeSession_panes he, closeSession_keeps t true s .notices (by decide)]
  rfl

/-- After the holder's session is closed no session is on the story. -/
theorem noSession_closeSession
    (hothers : ∀ x : Fin 32, x ≠ t → ∀ e', s.panes[x].session = some e' → e'.story ≠ e.story)
    (x : Fin 32) (e' : Session) (h : (closeSession t true s).panes[x].session = some e') :
    e'.story ≠ e.story := by
  rw [closeSession_panes he] at h
  by_cases hx : x = t
  · subst hx
    rw [show (s.panes.set x { s.panes[x] with session := none })[x] = _ from
      Vector.getElem_set_self x.isLt] at h
    cases h
  · rw [show (s.panes.set t { s.panes[t] with session := none })[x] = s.panes[x] from
      Vector.getElem_set_ne t.isLt x.isLt fun h => hx (Fin.ext h.symm)] at h
    exact hothers x hx e' h

theorem closeSession_ref (x : Fin 32) :
    (closeSession t true s).panes[x].ref = s.panes[x].ref := by
  rw [closeSession_panes he]
  by_cases hx : x = t
  · subst hx
    rw [show (s.panes.set x { s.panes[x] with session := none })[x] = _ from
      Vector.getElem_set_self x.isLt]
  · rw [show (s.panes.set t { s.panes[t] with session := none })[x] = s.panes[x] from
      Vector.getElem_set_ne t.isLt x.isLt fun h => hx (Fin.ext h.symm)]

include hst

theorem movedAndClosed_sameAuthority : SameAuthority (movedAndClosed e.story st target t s)
    (storyMoved e.story st.basket target (closeSession t true s)) := by
  have hmoved := storyMoved_keeps e.story st.basket target (closeSession t true s)
  have hclosed := closeSession_keeps t true s
  have hstamp : stamp (closeSession t true s) = stamp s :=
    stamp_of_clock (hclosed .clock (by decide))
  refine ⟨(hmoved .lines (by decide)).trans (hclosed .lines (by decide)),
    (hmoved .desks (by decide)).trans (hclosed .desks (by decide)), fun x => ?_⟩
  have hput : storyOf (movedAndClosed e.story st target t s) x = if x = e.story then
      some { st with basket := target, moved := stamp s, holding := .idle } else storyOf s x :=
    storyOf_setStory e.story x _ s
  rw [storyOf_storyMoved, hput, hstamp]
  by_cases hx : x = e.story
  · subst hx
    obtain ⟨f, hf⟩ := (closeSession_ended he hst).entry
    rw [if_pos rfl, if_pos rfl, hf]
    exact .inr ⟨_, f, rfl, rfl⟩
  · rw [if_neg hx, if_neg hx]
    exact .inl (closeSession_others he hx)

end

theorem moveStoryClosesTheHoldersSession : Clause.MoveStoryClosesTheHoldersSession := by
  intro tag body s st target t e hn ht htarget hexpected h1 h2 hst hacting ha hfresh hmay hheld
    hclose he hid hothers
  have hown := ownMoveStory_granted (s := dropHead s) htarget hexpected h1 h2 hst
    (.inr ⟨t, rfl, hacting, ha⟩) hfresh hmay
  have hanswer : moveAnswer body target (some t) st (dropHead s) =
      (moveTo (u16 body 0) st.basket target (closeSession t true (dropHead s)),
        ⟨.ok, eMoved (moveTo (u16 body 0) st.basket target (closeSession t true (dropHead s)))
          (u16 body 0) target ++ eFlag true⟩) := by
    unfold moveAnswer
    rw [hheld]
    exact if_pos (Bool.and_eq_true_iff.mpr ⟨flagAt_eq_true.mpr hclose, decide_eq_true rfl⟩)
  rw [hanswer] at hown
  rw [← hid] at hst hown hothers ⊢
  have hclosed := closeSession_keeps t true (dropHead s)
  have hended := closeSession_ended (s := dropHead s) he hst
  have hnone := noSession_closeSession (s := dropHead s) he hothers
  have hstamp : stamp (closeSession t true (dropHead s)) = stamp s :=
    stamp_of_clock (hclosed .clock (by decide))
  have hbaskets : (closeSession t true (dropHead s)).baskets = s.baskets :=
    hclosed .baskets (by decide)
  obtain ⟨f, hf⟩ := hended.entry
  obtain ⟨hstories, hfit⟩ := moveTo_stories_fit (source := st.basket) (target := target) hnone
  rw [hstamp] at hstories
  have hentry := hstories e.story
  rw [if_pos rfl] at hentry
  have hkeeps : KeepsBut [.stories, .baskets, .fit, .panes, .notices] (dropHead s)
      (moveTo e.story st.basket target (closeSession t true (dropHead s))) :=
    (moveTo_keeps _ _ _ _).step (by decide) (hclosed.mono (by decide))
  rw [eMoved_used target (hentry.trans (congrArg _ hf))] at hown
  refine ⟨_, replies_of_own (own := ownMoveStory) rfl ht hn (congrArg Prod.snd hown) ?_ (by decide)
    ?_⟩
  · rw [hown]
    dsimp only
    exact hkeeps
  · rw [hown]
    have hsame := movedAndClosed_sameAuthority (s := dropHead s) (target := target) he hst
    have hpanes := fun x => moveTo_panes (t := x) hsame
      (paneView_movedAndClosed (s := dropHead s) (st := st) (target := target) he x)
    have hnotices := fun href => (moveTo_notices (source := st.basket) (target := target) hnone
      href).trans (hclosed .notices (by decide))
    have hrefs := closeSession_ref (s := dropHead s) he
    obtain ⟨helse, hleft, hjoined⟩ := moveTo_listsMoved (source := st.basket) (target := target) hf
    rw [hbaskets] at hleft hjoined
    have hmoved : ∀ x, x ≠ e.story → storyOf (closeSession t true (dropHead s)) x = storyOf s x :=
      fun x hx => closeSession_others (s := dropHead s) he hx
    generalize closeSession t true (dropHead s) = c at *
    generalize moveTo e.story st.basket target c = u at *
    refine ⟨rfl, hended.moved hfit hentry, fun x hx => ?_, ?_, ?_, fun href => ?_, fun x hs ht => ?_,
      hleft, hjoined⟩
    · exact ((hstories x).trans (if_neg hx)).trans (hmoved x hx)
    · exact ((hpanes t).1 ha).session_none (movedAndClosed_self _ _ _ _ _)
    · rintro s1 rfl x
      refine ⟨fun hx => (hpanes x).1 hx, fun hx => panes_of_view (((hpanes x).2 hx).trans ?_)⟩
      exact movedAndClosed_other e.story st target (dropHead s) fun h => by
        rw [h, ha] at hx
        cases hx
    · exact hnotices fun x r hr => href x r ((hrefs x).symm.trans hr)
    · exact (helse x hs ht).trans (congrArg (·[x]) hbaskets)

/-- Settles O23: a move changes two lists and one entry, which the re-check only releases; the holder's session is closed before it. -/
theorem moveStoryChecksAndMoves : Obligations.MoveStoryChecksAndMoves :=
  ⟨moveStoryChecksIdentities, moveStoryRefusals, moveStoryMovesAnIdleStory,
    moveStoryClosesTheHoldersSession⟩

end Sys2Proof.Machine
end

section
/-! SUPPORT. Which fields of State each command may change before the end of its event: one frame for every command, from the frames of the operations it is made of. A statement about every step looks only at the commands that touch its fields. -/

namespace Sys2Proof.Machine

/-! ### What an owner's answer leaves -/

/-- An owner's answer leaves a state to which a relation leads from the state it found. -/
def Leads (R : State → State → Prop) (s : State) (a : Answer) : Prop := R s a.1

theorem Leads.of {R : State → State → Prop} {s u : State} {r : Reply} (h : R s u) :
    Leads R s (u, r) := h

theorem Leads.ite {R : State → State → Prop} {c : Prop} [Decidable c] {s : State} {a b : Answer}
    (ha : Leads R s a) (hb : Leads R s b) : Leads R s (if c then a else b) := by
  split
  · exact ha
  · exact hb

theorem Leads.mono {R R' : State → State → Prop} {s : State} {a : Answer} (h : Leads R s a)
    (hR : ∀ {s u}, R s u → R' s u) : Leads R' s a := hR h

section
variable {R : State → State → Prop} {s : State} (hR : R s s)
include hR

/-- An answer that changes nothing. -/
theorem Leads.unchanged (r : Reply) : Leads R s (s, r) := hR

theorem Leads.refuse (r : ResultCode) : Leads R s (refuse r s) := hR

theorem withStory_leads {id : Nat} {k : Story → Answer} (h : ∀ st, Leads R s (k st)) :
    Leads R s (withStory id s k) := by
  unfold withStory
  refine .ite (.refuse hR _) ?_
  split
  · exact .refuse hR _
  · exact h _

theorem withText_leads {b : List Byte} {i n : Nat} {k : List Byte → Answer}
    (h : ∀ text, Leads R s (k text)) : Leads R s (withText b i n s k) := by
  unfold withText
  split
  · exact .refuse hR _
  · exact h _

theorem withActing_leads {b : List Byte} {i : Nat} {k : Option (Fin 32) → Answer}
    (h : ∀ t, Leads R s (k t)) : Leads R s (withActing b i s k) := by
  unfold withActing
  split
  · exact h _
  · split
    · exact .refuse hR _
    · exact .ite (h _) (.refuse hR _)

theorem withTerminal_leads {b : List Byte} {i : Nat} {k : Fin 32 → Answer}
    (h : ∀ t, Leads R s (k t)) : Leads R s (withTerminal b i s k) := by
  unfold withTerminal
  split
  · exact .refuse hR _
  · exact h _

theorem withChannel_leads {b : List Byte} {k : Fin 4 → Answer} (h : ∀ c, Leads R s (k c)) :
    Leads R s (withChannel b s k) := by
  unfold withChannel
  split
  · exact .refuse hR _
  · exact h _

end

/-! ### The end of an event -/

/-- A state is the end of an event that begins where a relation leads. -/
def Ends (R : State → State → Prop) (s t : State) : Prop := ∃ u, t = settle u ∧ R s u

theorem Ends.mono {R R' : State → State → Prop} {s t : State} (h : Ends R s t)
    (hR : ∀ {u}, R s u → R' s u) : Ends R' s t := by
  obtain ⟨u, ht, hu⟩ := h
  exact ⟨u, ht, hR hu⟩

theorem event_ends {R : State → State → Prop} {s u t : State} (k : R s u)
    (h : Host.Outcome.next (settle u) = (.next t : Host.Outcome State Fault Refusal)) :
    Ends R s t := by
  cases h
  exact ⟨u, rfl, k⟩

/-- A relation that the link's part of an order follows: the frame leaves its queue, the reply joins its own, or the frame joins the inbound queue or is lost with OVERRUN (R183 to R185). -/
structure FollowsLink (R : State → State → Prop) : Prop where
  trans : ∀ {s t u}, R s t → R t u → R s u
  link : ∀ {s t}, KeepsBut [.link, .notices] s t → R s t

section
variable {R : State → State → Prop} (hR : FollowsLink R)
include hR

theorem FollowsLink.refl (s : State) : R s s := hR.link (KeepsBut.refl _ s)

theorem withOrder_leads {f : Frame} {act : State → State} {s : State} (h : R s (act s)) :
    R s (withOrder f act s) := by
  unfold withOrder
  split
  · exact h
  · split
    · exact hR.refl s
    · exact hR.link (offerFrame_keeps f s)

theorem answer_leads {kind tag : Byte} {s : State} {a : Answer} (h : Leads R (dropHead s) a) :
    R s (answer kind tag a) :=
  hR.trans (hR.link ((dropHead_keeps s).mono (by decide)))
    (hR.trans h (hR.link ((keeps_link a.1 _).mono (by decide))))

/-- An order's event begins where its owner's answer leads. -/
theorem order_ends {kind tag : Byte} {need : Nat} {body : List Byte} {s t : State}
    {own : List Byte → State → Answer} (k : ∀ b s, Leads R s (own b s))
    (h : Host.Outcome.next (takeOrder kind need own tag body s) =
      (.next t : Host.Outcome State Fault Refusal)) : Ends R s t :=
  event_ends (withOrder_leads hR (answer_leads hR (.ite (.refuse (hR.refl _) _) (k _ _)))) h

end

/-- The fields an order may change: the link's, and its owner's. -/
def orderFields (fs : List Field) : List Field := .link :: .notices :: fs

theorem followsLink_keepsBut (fs : List Field) : FollowsLink (KeepsBut (orderFields fs)) :=
  ⟨fun h k => h.trans k, fun h => h.mono (List.subset_append_left [.link, .notices] fs)⟩

theorem orderFields_keeps {fs : List Field} {s u : State} (h : KeepsBut fs s u) :
    KeepsBut (orderFields fs) s u :=
  h.mono (List.subset_append_right [Field.link, .notices] fs)

/-- The frame of an order, from its owner's. -/
theorem order_frame {fs : List Field} {kind tag : Byte} {need : Nat} {body : List Byte}
    {s t : State} {own : List Byte → State → Answer} (k : ∀ b s, Leads (KeepsBut fs) s (own b s))
    (h : Host.Outcome.next (takeOrder kind need own tag body s) =
      (.next t : Host.Outcome State Fault Refusal)) : Ends (KeepsBut (orderFields fs)) s t :=
  order_ends (followsLink_keepsBut fs) (fun b s => (k b s).mono orderFields_keeps) h

theorem OnlyReads.leads {own : List Byte → State → Answer} (h : OnlyReads own) (b : List Byte)
    (s : State) : Leads (KeepsBut []) s (own b s) := by
  show KeepsBut [] s (own b s).1
  rw [(h b s).1]
  exact KeepsBut.refl _ _

/-! ### The frames of the owners (spec/01 to spec/10) -/

section
variable (b : List Byte) (s : State)

theorem ownCreateStory_frame : Leads (KeepsBut [.baskets, .stories]) s (ownCreateStory b s) := by
  refine withText_leads (KeepsBut.refl _ s) fun slug => .ite (.refuse (KeepsBut.refl _ s) _) ?_
  split
  · split
    · exact .refuse (KeepsBut.refl _ s) _
    · exact createStory_keeps _ _ s
  · exact .refuse (KeepsBut.refl _ s) _

theorem ownSetFlags_frame : Leads (KeepsBut [.stories]) s (ownSetFlags b s) :=
  withStory_leads (KeepsBut.refl _ s) fun _ => setStory_keeps _ _ _

theorem ownWriteText_frame :
    Leads (KeepsBut [.stories, .memory, .notices, .pressure, .panes]) s (ownWriteText b s) :=
  have same := KeepsBut.refl _ s
  withText_leads same fun _ => withStory_leads same fun _ => .ite (.refuse same _)
    (.ite (.unchanged same _) (.ite (.refuse same _) (.ite (.refuse same _)
      (writeText_keeps _ _ _ _ s))))

theorem ownSpikeStory_frame :
    Leads (KeepsBut [.memory, .stories, .notices, .pressure, .baskets, .fit, .panes]) s
      (ownSpikeStory b s) :=
  have same := KeepsBut.refl _ s
  withStory_leads same fun _ => .ite (.unchanged same _) (.ite (.refuse same _)
    (.of (spike_keeps _ _ s)))

theorem ownClearMarks_frame : Leads (KeepsBut [.memory]) s (ownClearMarks b s) :=
  have same := KeepsBut.refl _ s
  withStory_leads same fun _ => .ite (.unchanged same _) (.ite (.refuse same _)
    (.of (keeps_memory s _)))

theorem ownSetDesk_frame :
    Leads (KeepsBut [.desks, .stories, .fit, .panes, .notices]) s (ownSetDesk b s) := by
  unfold ownSetDesk
  split
  · exact .refuse (KeepsBut.refl _ s) _
  · dsimp only
    split
    · exact .refuse (KeepsBut.refl _ s) _
    · exact .of ((recheckWhere_keeps _ _ _).step (by decide) ((keeps_desks s _).mono (by decide)))

theorem ownSetBasket_frame : Leads (KeepsBut [.baskets]) s (ownSetBasket b s) := by
  refine withText_leads (KeepsBut.refl _ s) fun _ => ?_
  split
  · exact modBasket_keeps _ _ _
  · exact .refuse (KeepsBut.refl _ s) _

theorem ownMoveStory_frame :
    Leads (KeepsBut [.stories, .baskets, .fit, .panes, .notices]) s (ownMoveStory b s) := by
  have same := KeepsBut.refl [.stories, .baskets, .fit, .panes, .notices] s
  unfold ownMoveStory
  dsimp only
  split
  · refine withStory_leads same fun st => withActing_leads same fun acting =>
      .ite (.unchanged same _) (.ite (.refuse same _) ?_)
    split
    · exact .of (moveTo_keeps _ _ _ _)
    · exact .ite (.of ((moveTo_keeps _ _ _ _).step (by decide)
        ((closeSession_keeps _ _ _).mono (by decide)))) (.unchanged same _)
    · exact .unchanged same _
    · exact .unchanged same _
  · exact .refuse same _

theorem ownSetStoryKey_frame :
    Leads (KeepsBut [.stories, .fit, .panes, .notices]) s (ownSetStoryKey b s) := by
  have same := KeepsBut.refl [.stories, .fit, .panes, .notices] s
  unfold ownSetStoryKey
  dsimp only
  split
  · exact withStory_leads same fun _ => .ite (.unchanged same _)
      (.of ((recheckWhere_keeps _ _ _).step (by decide) ((setStory_keeps _ _ _).mono (by decide))))
  · split
    · exact .refuse same _
    · exact .unchanged same _

theorem ownSendMessage_frame : Leads (KeepsBut [.slots]) s (ownSendMessage b s) := by
  have same := KeepsBut.refl [.slots] s
  refine withText_leads same fun text => .ite (.refuse same _) ?_
  split
  · exact .refuse same _
  · refine .ite ?_ (.ite ?_ (.refuse same _))
    · split
      · exact .refuse same _
      · exact .ite (.refuse same _) (.ite (.refuse same _) (setSlot_keeps _ _ _))
    · split
      · exact .refuse same _
      · exact .of (deliver_keeps s _ _)

theorem ownSetClock_frame : Leads (KeepsBut [.clock, .editions, .notices]) s (ownSetClock b s) :=
  .ite (.refuse (KeepsBut.refl _ s) _)
    (.of ((passageTests_keeps _).step (by decide) ((keeps_clock s _).mono (by decide))))

theorem ownStartClock_frame : Leads (KeepsBut [.clock]) s (ownStartClock b s) := by
  unfold ownStartClock
  split
  · exact .unchanged (KeepsBut.refl _ s) _
  · exact .unchanged (KeepsBut.refl _ s) _
  · exact keeps_clock s _

theorem ownSetDeadline_frame : Leads (KeepsBut [.editions, .notices]) s (ownSetDeadline b s) := by
  have same := KeepsBut.refl [.editions, .notices] s
  unfold ownSetDeadline
  split
  · exact .refuse same _
  · exact .ite (.refuse same _) (.ite (.of ((modEdition_keeps _ _ _).mono (by decide)))
      (.of ((passageTest_keeps _ _).step (by decide) ((modEdition_keeps _ _ _).mono (by decide)))))

theorem ownRearm_frame : Leads (KeepsBut [.editions]) s (ownRearm b s) := by
  have same := KeepsBut.refl [.editions] s
  unfold ownRearm
  split
  · exact .refuse same _
  · split
    · exact .unchanged same _
    · exact .unchanged same _
    · exact .of (KeepsBut.ite (modEdition_keeps _ _ _) same)

theorem ownClearDeadline_frame : Leads (KeepsBut [.editions]) s (ownClearDeadline b s) := by
  unfold ownClearDeadline
  split
  · exact .refuse (KeepsBut.refl _ s) _
  · exact modEdition_keeps _ _ _

theorem ownAssignTerminal_frame :
    Leads (KeepsBut [.lines, .screens, .stories, .fit, .panes, .notices, .slots]) s
      (ownAssignTerminal b s) := by
  unfold ownAssignTerminal
  split
  · exact .ite (.of ((reassign_keeps _ _ _).mono (by decide)))
      (.of ((attach_keeps _ _ _).mono (by decide)))
  · exact .refuse (KeepsBut.refl _ s) _

theorem ownDetachTerminal_frame :
    Leads (KeepsBut [.lines, .screens, .slots, .stories, .fit, .panes]) s
      (ownDetachTerminal b s) :=
  have same := KeepsBut.refl _ s
  withTerminal_leads same fun _ => .ite (.of (detach_keeps _ _)) (.refuse same _)

theorem ownTakeKeys_frame : Leads (KeepsBut [.keys, .notices]) s (ownTakeKeys b s) :=
  .of (KeepsBut.ite (removeKeys_keeps _ _) (KeepsBut.refl _ s))

theorem ownPutScreenText_frame : Leads (KeepsBut [.screens]) s (ownPutScreenText b s) := by
  refine withText_leads (KeepsBut.refl _ s) fun _ => ?_
  split
  · exact modScreen_keeps _ _ _
  · exact .refuse (KeepsBut.refl _ s) _

theorem ownFillBase_frame : Leads (KeepsBut [.screens]) s (ownFillBase b s) := by
  unfold ownFillBase
  dsimp only
  split
  · exact modScreen_keeps _ _ _
  · exact .refuse (KeepsBut.refl _ s) _

theorem ownSetStatus_frame : Leads (KeepsBut [.screens]) s (ownSetStatus b s) :=
  have same := KeepsBut.refl _ s
  withText_leads same fun _ => withTerminal_leads same fun _ => modScreen_keeps _ _ _

theorem ownRepaint_frame : Leads (KeepsBut [.screens]) s (ownRepaint b s) :=
  have same := KeepsBut.refl _ s
  withTerminal_leads same fun _ => .ite (.of (repaint_keeps _ _)) (.refuse same _)

theorem watchTarget_frame (w target : Fin 32) :
    Leads (KeepsBut [.screens]) s (watchTarget w target s) :=
  have same := KeepsBut.refl _ s
  .ite (.refuse same _) (.ite (.refuse same _) (.ite (.refuse same _) (.ite (.refuse same _)
    (.ite (.refuse same _) (.of (setMode_keeps _ _ _))))))

theorem ownSetWatch_frame : Leads (KeepsBut [.screens]) s (ownSetWatch b s) := by
  have same := KeepsBut.refl [.screens] s
  refine withTerminal_leads same fun w => ?_
  split
  · exact .of (KeepsBut.ite (setMode_keeps _ _ _) same)
  · split
    · exact .refuse same _
    · exact .ite (.refuse same _) (watchTarget_frame s w _)

theorem ownSetRotation_frame :
    Leads (KeepsBut [.stories, .fit, .panes, .screens]) s (ownSetRotation b s) := by
  have same := KeepsBut.refl [.stories, .fit, .panes, .screens] s
  refine withTerminal_leads same fun t => .ite (.refuse same _) ?_
  dsimp only
  refine .ite (.refuse same _) ?_
  split
  · exact .refuse same _
  · split
    · exact .refuse same _
    · exact .of (KeepsBut.ite ((endRotation_keeps _ _).mono (by decide))
        (beginRotation_keeps _ _ _ _ _))

theorem ownOpenWindow_frame : Leads (KeepsBut [.stories, .fit, .panes]) s (ownOpenWindow b s) := by
  have same := KeepsBut.refl [.stories, .fit, .panes] s
  unfold ownOpenWindow
  split
  · exact withStory_leads same fun st => .ite (.refuse same _) (.ite (.refuse same _)
      (.ite (.refuse same _) (.ite
        (.ite (.refuse same _) (.ite (.unchanged same _) (.of (openEdit_keeps _ _ _ _ _))))
        (.ite (.refuse same _) (.of ((openRef_keeps _ _ _ _ _).mono (by decide)))))))
  · exact .refuse same _

theorem ownCloseWindow_frame :
    Leads (KeepsBut [.stories, .fit, .panes]) s (ownCloseWindow b s) := by
  have same := KeepsBut.refl [.stories, .fit, .panes] s
  unfold ownCloseWindow
  split
  · split
    · exact closeSession_keeps _ _ _
    · exact .refuse same _
  · split
    · exact .of ((clearRef_keeps _ _).mono (by decide))
    · exact .refuse same _
  · exact .refuse same _

theorem ownSetWidths_frame : Leads (KeepsBut [.faces, .stories, .fit]) s (ownSetWidths b s) := by
  have same := KeepsBut.refl [.faces, .stories, .fit] s
  unfold ownSetWidths
  split
  · exact .refuse same _
  · refine .ite (.refuse same _) ?_
    split
    · exact .unchanged same _
    · exact loadFace_keeps _ _ _ _ _

theorem ownSetSetting_frame : Leads (KeepsBut [.stories, .fit]) s (ownSetSetting b s) := by
  have same := KeepsBut.refl [.stories, .fit] s
  unfold ownSetSetting
  dsimp only
  split
  · exact .refuse same _
  · refine withStory_leads same fun st => ?_
    split
    · exact .unchanged same _
    · exact .of (KeepsBut.ite same (changeSetting_keeps _ _ _ _))

theorem ownFitStory_frame : Leads (KeepsBut [.stories, .fit]) s (ownFitStory b s) :=
  have same := KeepsBut.refl _ s
  withStory_leads same fun _ => .ite (.refuse same _) (.ite (.unchanged same _)
    (.ite (.refuse same _) (.of (joinFitQueue_keeps _ _))))

theorem ownQueueJob_frame :
    Leads (KeepsBut [.lastJob, .stories, .channels, .notices]) s (ownQueueJob b s) := by
  have same := KeepsBut.refl [.lastJob, .stories, .channels, .notices] s
  refine .ite (.refuse same _) ?_
  split
  · unfold queueJob
    split
    · exact .unchanged same _
    · refine .ite (.refuse same _) ?_
      split
      · exact .unchanged same _
      · exact acceptJob_keeps _ _ _ _
  · exact .refuse same _

theorem ownSetArbitration_frame : Leads (KeepsBut [.engine]) s (ownSetArbitration b s) := by
  unfold ownSetArbitration
  split
  · exact .refuse (KeepsBut.refl _ s) _
  · exact keeps_engine s _

theorem ownSetChannel_frame :
    Leads (KeepsBut [.channels, .stories, .notices]) s (ownSetChannel b s) :=
  withChannel_leads (KeepsBut.refl _ s) fun _ => changeSettings_keeps _ _ _ _ _ _

theorem ownResume_frame : Leads (KeepsBut [.channels]) s (ownResume b s) := by
  have same := KeepsBut.refl [.channels] s
  refine withChannel_leads same fun c => ?_
  split
  · exact modChannel_keeps _ _ _
  · exact .unchanged same _
  · exact .unchanged same _
  · exact .unchanged same _

theorem ownFlushChannel_frame : Leads (KeepsBut [.channels]) s (ownFlushChannel b s) := by
  have same := KeepsBut.refl [.channels] s
  refine withChannel_leads same fun c => ?_
  split
  · exact .unchanged same _
  · exact .unchanged same _
  · exact .unchanged same _
  · exact modChannel_keeps _ _ _

theorem ownCancelJob_frame :
    Leads (KeepsBut [.channels, .stories, .notices]) s (ownCancelJob b s) := by
  have same := KeepsBut.refl [.channels, .stories, .notices] s
  refine withChannel_leads same fun c => .ite (.refuse same _) ?_
  split
  · exact .refuse same _
  · refine .ite ?_ ?_
    · exact .ite (.refuse same _) (.of ((modChannel_keeps _ _ _).step (by decide)
        ((releaseJob_keeps _ _).mono (by decide))))
    · split
      · exact .refuse same _
      · exact cancelQueued_keeps _ _ _

theorem ownSetWireLine_frame :
    Leads (KeepsBut [.stories, .fit, .notices, .screens, .wires]) s (ownSetWireLine b s) := by
  have same := KeepsBut.refl [.stories, .fit, .notices, .screens, .wires] s
  unfold ownSetWireLine
  split
  · exact .refuse same _
  · exact .of (KeepsBut.ite same (changeWire_keeps _ _ _ _))

theorem ownSetSelection_frame : Leads (KeepsBut [.selection]) s (ownSetSelection b s) := by
  unfold ownSetSelection
  split
  · exact keeps_selection s _
  · exact .refuse (KeepsBut.refl _ s) _

theorem ownSetWireReserve_frame : Leads (KeepsBut [.reserve]) s (ownSetWireReserve b s) :=
  .of (keeps_reserve s _)

theorem ownSetLinkWatch_frame : Leads (KeepsBut [.link]) s (ownSetLinkWatch b s) := by
  unfold ownSetLinkWatch
  split
  · exact .unchanged (KeepsBut.refl _ s) _
  · exact keeps_link s _

end

/-! ### The frame of every command -/

/-- Every field. -/
def allFields : List Field :=
  [.memory, .stories, .pressure, .desks, .slots, .baskets, .clock, .editions, .lines, .keys,
    .screens, .panes, .faces, .fit, .lastJob, .channels, .engine, .wires, .selection, .reserve,
    .notices, .link, .now, .pending]

theorem keepsBut_allFields (s t : State) : KeepsBut allFields s t := by
  intro f hf
  exact absurd (by cases f <;> decide) hf

/-- What a key's characters may change (R67, R68). -/
def keyFields : List Field :=
  [.stories, .panes, .memory, .screens, .notices, .pressure, .slots, .keys, .lines]

/-- The fields a command may change before the end of its event. -/
def touches : Instr → List Field
  | .powerOn | .restartMade => allFields
  | .frameReceived _ | .linkLengthError .. => [.link, .notices]
  | .gapTimerExpiry _ => [.link, .notices, .now]
  | .hostLost => [.link, .now]
  | .transmitFrameEnd => [.link]
  | .unassignedKind .. => orderFields []
  | .createStory .. => orderFields [.baskets, .stories]
  | .setFlags .. => orderFields [.stories]
  | .writeText .. => orderFields [.stories, .memory, .notices, .pressure, .panes]
  | .spikeStory .. =>
    orderFields [.memory, .stories, .notices, .pressure, .baskets, .fit, .panes]
  | .clearMarks .. => orderFields [.memory]
  | .setDesk .. => orderFields [.desks, .stories, .fit, .panes, .notices]
  | .setBasket .. => orderFields [.baskets]
  | .moveStory .. => orderFields [.stories, .baskets, .fit, .panes, .notices]
  | .setStoryKey .. => orderFields [.stories, .fit, .panes, .notices]
  | .sendMessage .. => orderFields [.slots]
  | .setClock .. => orderFields [.clock, .editions, .notices]
  | .startClock .. => orderFields [.clock]
  | .setDeadline .. => orderFields [.editions, .notices]
  | .rearm .. | .clearDeadline .. => orderFields [.editions]
  | .assignTerminal .. =>
    orderFields [.lines, .screens, .stories, .fit, .panes, .notices, .slots]
  | .detachTerminal .. => orderFields [.lines, .screens, .slots, .stories, .fit, .panes]
  | .takeKeys .. => orderFields [.keys, .notices]
  | .putScreenText .. | .fillBase .. | .setStatus .. | .repaint .. | .setWatch .. =>
    orderFields [.screens]
  | .setRotation .. => orderFields [.stories, .fit, .panes, .screens]
  | .openWindow .. | .closeWindow .. => orderFields [.stories, .fit, .panes]
  | .setWidths .. => orderFields [.faces, .stories, .fit]
  | .setSetting .. | .fitStory .. => orderFields [.stories, .fit]
  | .queueJob .. => orderFields [.lastJob, .stories, .channels, .notices]
  | .setArbitration .. => orderFields [.engine]
  | .setChannel .. | .cancelJob .. => orderFields [.channels, .stories, .notices]
  | .resume .. | .flushChannel .. => orderFields [.channels]
  | .setWireLine .. => orderFields [.stories, .fit, .notices, .screens, .wires]
  | .setSelection .. => orderFields [.selection]
  | .setWireReserve .. => orderFields [.reserve]
  | .setLinkWatch .. => orderFields [.link]
  | .restart .. => orderFields []
  | .readStory .. | .readText .. | .readDesk .. | .listBasket .. | .readClock ..
  | .readTerminal .. | .readSession .. | .readWidths .. | .readFitQueue .. | .readChannel ..
  | .readWireLine .. | .readSelection .. | .queryPart .. => orderFields []
  | .clockTick => [.clock, .editions, .notices, .now]
  | .terminalCharacterReceived .. => [.lines, .notices]
  | .terminalIdleExpiry _ => [.lines]
  | .terminalBreak _ => [.lines, .notices, .screens]
  | .textKey .. | .newParagraph _ | .deleteBack _ | .deleteForward _ | .insertOvertypeToggle _
  | .cursorLeft _ | .cursorRight _ | .cursorUp _ | .cursorDown _ | .paneSwitch _
  | .clearMessage _ | .repaintKey _ | .functionKeyPrefix _ | .functionKey ..
  | .ignoredCode .. => keyFields
  | .terminalByteSent _ => [.lines, .screens]
  | .flashAlertExpiry _ | .rotationDwellExpiry _ => [.screens, .now]
  | .fitGrantEnd => [.stories, .fit, .engine]
  | .channelGrantEnd _ => [.channels, .stories, .engine]
  | .typesetterByteSent _ => [.channels, .stories, .notices, .memory]
  | .typReady .. => [.channels]
  | .batchWaitExpiry _ => [.channels, .now]
  | .channelStall _ => [.channels, .stories, .notices, .now]
  | .wireCharacterReceived .. => [.wires, .notices]
  | .wireBreak _ => [.stories, .fit, .notices, .screens, .wires]
  | .wireIntakeCharacter _ =>
    [.stories, .fit, .notices, .screens, .wires, .pressure, .memory, .panes, .baskets]
  | .wireSilenceExpiry _ => [.stories, .fit, .notices, .screens, .wires, .now]

theorem idleExpires_keeps (t : Fin 32) (s : State) : KeepsBut [.lines] s (idleExpires t s) :=
  KeepsBut.ite (modLine_keeps _ _ _) (KeepsBut.refl _ s)

theorem breakSeen_keeps (t : Fin 32) (s : State) :
    KeepsBut [.lines, .notices, .screens] s (breakSeen t s) :=
  KeepsBut.ite ((repaint_keeps _ _).step (by decide) ((raiseTerminal_keeps _ _ _).step (by decide)
    ((modLine_keeps _ _ _).mono (by decide)))) (KeepsBut.refl _ s)

/-- R184: a command that completes ends an event, before whose end it has changed none but the fields it touches. -/
theorem exec_frame (i : Instr) (s t : State) (h : exec i s = .next t) :
    Ends (KeepsBut (touches i)) s t := by
  cases i with
  | powerOn => exact event_ends (keepsBut_allFields _ _) h
  | restartMade => exact event_ends (keepsBut_allFields _ _) h
  | frameReceived bytes => exact event_ends (receiveBytes_keeps _ _) h
  | linkLengthError hi lo => exact event_ends (receiveBytes_keeps _ _) h
  | gapTimerExpiry bytes =>
    have hk : KeepsBut [.link, .notices, .now] s (gapExpires (receiveBytes bytes s)) :=
      (gapExpires_keeps _).step (by decide) ((receiveBytes_keeps _ _).mono (by decide))
    exact event_ends hk h
  | hostLost => exact event_ends (hostIsLost_keeps s) h
  | transmitFrameEnd => exact event_ends (frameSent_keeps s) h
  | unassignedKind kind tag body =>
    change (if kindAssigned kind then _ else _) = _ at h
    split at h
    · cases h
    · exact event_ends (withOrder_leads (followsLink_keepsBut [])
        (answer_leads (followsLink_keepsBut []) (.refuse (KeepsBut.refl _ _) _))) h
  | createStory => exact order_frame ownCreateStory_frame h
  | readStory => exact order_frame ownReadStory_onlyReads.leads h
  | setFlags => exact order_frame ownSetFlags_frame h
  | writeText => exact order_frame ownWriteText_frame h
  | readText => exact order_frame ownReadText_onlyReads.leads h
  | spikeStory => exact order_frame ownSpikeStory_frame h
  | clearMarks => exact order_frame ownClearMarks_frame h
  | setDesk => exact order_frame ownSetDesk_frame h
  | readDesk => exact order_frame ownReadDesk_onlyReads.leads h
  | setBasket => exact order_frame ownSetBasket_frame h
  | listBasket => exact order_frame ownListBasket_onlyReads.leads h
  | moveStory => exact order_frame ownMoveStory_frame h
  | setStoryKey => exact order_frame ownSetStoryKey_frame h
  | sendMessage => exact order_frame ownSendMessage_frame h
  | setClock => exact order_frame ownSetClock_frame h
  | startClock => exact order_frame ownStartClock_frame h
  | readClock => exact order_frame (fun _ s => .unchanged (KeepsBut.refl [] s) _) h
  | setDeadline => exact order_frame ownSetDeadline_frame h
  | rearm => exact order_frame ownRearm_frame h
  | clearDeadline => exact order_frame ownClearDeadline_frame h
  | assignTerminal => exact order_frame ownAssignTerminal_frame h
  | detachTerminal => exact order_frame ownDetachTerminal_frame h
  | readTerminal => exact order_frame ownReadTerminal_onlyReads.leads h
  | takeKeys => exact order_frame ownTakeKeys_frame h
  | putScreenText => exact order_frame ownPutScreenText_frame h
  | fillBase => exact order_frame ownFillBase_frame h
  | setStatus => exact order_frame ownSetStatus_frame h
  | repaint => exact order_frame ownRepaint_frame h
  | setWatch => exact order_frame ownSetWatch_frame h
  | setRotation => exact order_frame ownSetRotation_frame h
  | readSession => exact order_frame ownReadSession_onlyReads.leads h
  | openWindow => exact order_frame ownOpenWindow_frame h
  | closeWindow => exact order_frame ownCloseWindow_frame h
  | setWidths => exact order_frame ownSetWidths_frame h
  | readWidths => exact order_frame ownReadWidths_onlyReads.leads h
  | setSetting => exact order_frame ownSetSetting_frame h
  | fitStory => exact order_frame ownFitStory_frame h
  | readFitQueue => exact order_frame (fun _ s => .unchanged (KeepsBut.refl [] s) _) h
  | queueJob => exact order_frame ownQueueJob_frame h
  | setArbitration => exact order_frame ownSetArbitration_frame h
  | setChannel => exact order_frame ownSetChannel_frame h
  | resume => exact order_frame ownResume_frame h
  | flushChannel => exact order_frame ownFlushChannel_frame h
  | cancelJob => exact order_frame ownCancelJob_frame h
  | readChannel => exact order_frame ownReadChannel_onlyReads.leads h
  | setWireLine => exact order_frame ownSetWireLine_frame h
  | readWireLine => exact order_frame ownReadWireLine_onlyReads.leads h
  | setSelection => exact order_frame ownSetSelection_frame h
  | readSelection => exact order_frame (fun _ s => .unchanged (KeepsBut.refl [] s) _) h
  | setWireReserve => exact order_frame ownSetWireReserve_frame h
  | setLinkWatch => exact order_frame ownSetLinkWatch_frame h
  | queryPart => exact order_frame (fun _ s => .unchanged (KeepsBut.refl [] s) _) h
  | restart tag body =>
    exact event_ends (withOrder_leads (followsLink_keepsBut [])
      ((takeRestart_keeps _ s).mono (by decide))) h
  | clockTick => exact event_ends (KeepsBut.ite (tick_keeps s) (KeepsBut.refl _ s)) h
  | terminalCharacterReceived t r => exact event_ends (receiveFrame_keeps t r s) h
  | terminalIdleExpiry t => exact event_ends (idleExpires_keeps t s) h
  | terminalBreak t => exact event_ends (breakSeen_keeps t s) h
  | textKey t c => exact event_ends (takeCode_keeps t _ s) h
  | newParagraph t => exact event_ends (takeCode_keeps t _ s) h
  | deleteBack t => exact event_ends (takeCode_keeps t _ s) h
  | deleteForward t => exact event_ends (takeCode_keeps t _ s) h
  | insertOvertypeToggle t => exact event_ends (takeCode_keeps t _ s) h
  | cursorLeft t => exact event_ends (takeCode_keeps t _ s) h
  | cursorRight t => exact event_ends (takeCode_keeps t _ s) h
  | cursorUp t => exact event_ends (takeCode_keeps t _ s) h
  | cursorDown t => exact event_ends (takeCode_keeps t _ s) h
  | paneSwitch t => exact event_ends (takeCode_keeps t _ s) h
  | clearMessage t => exact event_ends (takeCode_keeps t _ s) h
  | repaintKey t => exact event_ends (takeCode_keeps t _ s) h
  | functionKeyPrefix t => exact event_ends (takeCode_keeps t _ s) h
  | functionKey t k => exact event_ends (takeFunction_keeps t k s) h
  | ignoredCode t c =>
    exact event_ends (KeepsBut.ite (takeCode_keeps t c s) (KeepsBut.refl _ s)) h
  | terminalByteSent t => exact event_ends (terminalByteSent_keeps t s) h
  | flashAlertExpiry t => exact event_ends (flashExpires_keeps t s) h
  | rotationDwellExpiry t => exact event_ends (dwellExpires_keeps t s) h
  | fitGrantEnd => exact event_ends (fitGrantEnds_keeps s) h
  | channelGrantEnd c => exact event_ends (channelGrantEnds_keeps c s) h
  | typesetterByteSent c => exact event_ends (typesetterByteSent_keeps c s) h
  | typReady c level => exact event_ends (modChannel_keeps _ _ _) h
  | batchWaitExpiry c => exact event_ends (batchWaitExpires_keeps c s) h
  | channelStall c => exact event_ends (channelStalls_keeps c s) h
  | wireCharacterReceived w r => exact event_ends (receiveWire_keeps w r s) h
  | wireBreak w => exact event_ends (wireBreak_keeps w s) h
  | wireIntakeCharacter w => exact event_ends (takeIntake_keeps w s) h
  | wireSilenceExpiry w => exact event_ends (silenceExpires_keeps w s) h

/-- A command that touches none of the fields a relation looks at. -/
theorem exec_ends_of_frame {R : State → State → Prop} (fs : List Field)
    (hR : ∀ {gs s u}, KeepsBut gs s u → (∀ f ∈ fs, f ∉ gs) → R s u) {i : Instr} {s t : State}
    (h : exec i s = .next t) (hi : ∀ f ∈ fs, f ∉ touches i) : Ends R s t :=
  (exec_frame i s t h).mono fun k => hR k hi

/-- A predicate that every command and the oscillator keep is kept by every step. -/
theorem step_keeps {P : State → Prop} (hexec : ∀ {i s t}, exec i s = .next t → P s → P t)
    (hpending : ∀ {s} q, P s → P (s.withPending q))
    (hnow : ∀ {s}, P s → P (settle { s with now := s.now + 1 })) {s t : State} (hs : P s)
    (h : step s = .next t) : P t := by
  unfold step at h
  split at h
  · exact hexec h (hpending _ hs)
  · unfold idleStep at h
    split at h
    · exact hexec h hs
    · cases h
      exact hnow hs

end Sys2Proof.Machine
end

section
/-! SUPPORT. The passage test of one edition and of all four, and the deadlines that stay ahead of a set clock (R46, R47, R51 to R55). -/

namespace Sys2Proof.Machine

/-! ### One edition's record and notice -/

theorem modEdition_self (e : Fin 4) (f : Edition → Edition) (s : State) :
    (modEdition e f s).editions[e] = f s.editions[e] := Vector.getElem_set_self _

theorem modEdition_other {e x : Fin 4} (f : Edition → Edition) (s : State) (h : x ≠ e) :
    (modEdition e f s).editions[x] = s.editions[x] :=
  Vector.getElem_set_ne e.isLt x.isLt fun he => h (Fin.ext he.symm)

theorem raiseSource_self (i : Fin 48) (s : State) :
    (raiseSource i s).notices.pending[i] = true := Vector.getElem_set_self _

theorem raiseSource_other {i j : Fin 48} (s : State) (h : j ≠ i) :
    (raiseSource i s).notices.pending[j] = s.notices.pending[j] :=
  Vector.getElem_set_ne i.isLt j.isLt fun he => h (Fin.ext he.symm)

theorem srcEdition_ne {e x : Fin 4} (h : x ≠ e) : srcEdition x ≠ srcEdition e := fun he =>
  h (Fin.ext (Nat.add_left_cancel (congrArg Fin.val he)))

/-- Something done for each of n members, that reaches no other member's record, is done to each record once. -/
theorem foldl_finRange_at {α : Type} {n : Nat} {g : Fin n → State → State} (v : State → Fin n → α)
    (h : Fin n → α → α) (hself : ∀ s i, v (g i s) i = h i (v s i))
    (hother : ∀ s i x, x ≠ i → v (g i s) x = v s x) (s : State) (i : Fin n) :
    v ((List.finRange n).foldl (fun s i => g i s) s) i = h i (v s i) := by
  have key : ∀ (l : List (Fin n)) (s : State), l.Nodup →
      v (l.foldl (fun s i => g i s) s) i = if i ∈ l then h i (v s i) else v s i := by
    intro l
    induction l with
    | nil => exact fun s _ => rfl
    | cons x xs ih =>
      intro s hl
      obtain ⟨hx, hxs⟩ := List.nodup_cons.mp hl
      rw [List.foldl_cons, ih _ hxs]
      by_cases hi : i = x
      · subst hi
        rw [if_neg hx, if_pos List.mem_cons_self, hself]
      · rw [hother s x i hi]
        simp [hi]
  rw [key _ s (List.nodup_finRange n), if_pos (List.mem_finRange i)]

/-! ### The passage test (R52) -/

/-- An edition is due: it is ARMED with a time at or before a set clock (R52). -/
def editionDue (c : Clock) (d : Edition) : Bool :=
  c.state ≠ .unset && d.state = .armed && d.time ≤ c.value

theorem passes_eq (s : State) (e : Fin 4) : passes s e = editionDue s.clock s.editions[e] := rfl

theorem editionDue_iff {c : Clock} {d : Edition} :
    editionDue c d = true ↔ c.state ≠ .unset ∧ d.state = .armed ∧ d.time ≤ c.value := by
  simp [editionDue, and_assoc]

theorem editionDue_of_not_armed {c : Clock} {d : Edition} (h : d.state ≠ .armed) :
    editionDue c d = false :=
  Bool.eq_false_iff.mpr fun hdue => h (editionDue_iff.mp hdue).2.1

/-- What the passage test reads and may change of one edition: the clock, the record, and the EDITION notice. -/
def editionView (s : State) (e : Fin 4) : Clock × Edition × Bool :=
  (s.clock, s.editions[e], s.notices.pending[srcEdition e])

/-- The edition in view is due. -/
def viewDue (v : Clock × Edition × Bool) : Bool := editionDue v.1 v.2.1

theorem passes_eq_viewDue (s : State) (e : Fin 4) : passes s e = viewDue (editionView s e) := rfl

/-- The passage test of one edition (R52). -/
def passView (v : Clock × Edition × Bool) : Clock × Edition × Bool :=
  if viewDue v then (v.1, { v.2.1 with state := .passed }, true) else v

theorem passageTest_self (s : State) (e : Fin 4) :
    editionView (passageTest e s) e = passView (editionView s e) := by
  unfold passageTest passView
  rw [passes_eq_viewDue]
  split
  · have hrecord := modEdition_self e (fun d => { d with state := .passed }) s
    have hnotice := raiseSource_self (srcEdition e)
      (modEdition e (fun d => { d with state := .passed }) s)
    exact Prod.ext rfl (Prod.ext hrecord hnotice)
  · rfl

theorem passageTest_other (s : State) (e x : Fin 4) (h : x ≠ e) :
    editionView (passageTest e s) x = editionView s x := by
  unfold passageTest
  split
  · have hrecord := modEdition_other (fun d => { d with state := .passed }) s h
    have hnotice := raiseSource_other (modEdition e (fun d => { d with state := .passed }) s)
      (srcEdition_ne h)
    exact Prod.ext rfl (Prod.ext hrecord hnotice)
  · rfl

/-- The test of every edition is the test of each (R46, R47). -/
theorem passageTests_view (s : State) (e : Fin 4) :
    editionView (passageTests s) e = passView (editionView s e) :=
  foldl_finRange_at editionView (fun _ => passView) passageTest_self passageTest_other s e

/-- An edition that has been tested is not due. -/
theorem viewDue_passView (v : Clock × Edition × Bool) : viewDue (passView v) = false := by
  unfold passView
  split
  · exact editionDue_of_not_armed fun h => nomatch h
  · next h => exact Bool.eq_false_iff.mpr h

/-! ### Deadlines ahead of the clock (R51) -/

/-- Deadlines are ahead exactly where no edition is due. -/
theorem deadlinesAhead_iff {s : State} : DeadlinesAhead s ↔ ∀ e, passes s e = false := by
  unfold DeadlinesAhead
  constructor
  · intro h e
    refine Bool.eq_false_iff.mpr fun hdue => ?_
    obtain ⟨hset, harmed, htime⟩ := editionDue_iff.mp (passes_eq s e ▸ hdue)
    exact absurd htime (Nat.not_le_of_lt (h hset e harmed))
  · intro h hset e harmed
    refine Nat.lt_of_not_le fun htime => ?_
    have hdue := (passes_eq s e).trans (editionDue_iff.mpr ⟨hset, harmed, htime⟩)
    rw [h e] at hdue
    cases hdue

theorem passageTests_deadlinesAhead (s : State) : DeadlinesAhead (passageTests s) :=
  deadlinesAhead_iff.mpr fun e => by
    rw [passes_eq_viewDue, passageTests_view, viewDue_passView]

/-- With every other edition not due, the test of one edition is enough. -/
theorem passageTest_deadlinesAhead {s : State} {e : Fin 4} (h : ∀ x, x ≠ e → passes s x = false) :
    DeadlinesAhead (passageTest e s) := by
  refine deadlinesAhead_iff.mpr fun x => ?_
  by_cases hx : x = e
  · subst hx
    rw [passes_eq_viewDue, passageTest_self, viewDue_passView]
  · rw [passes_eq_viewDue, passageTest_other s e x hx]
    exact h x hx

theorem modEdition_passes_other {e x : Fin 4} (f : Edition → Edition) {s : State}
    (hs : DeadlinesAhead s) (h : x ≠ e) : passes (modEdition e f s) x = false := by
  rw [passes_eq, modEdition_other f s h]
  exact deadlinesAhead_iff.mp hs x

/-- A record that is written and is not due leaves the deadlines ahead. -/
theorem modEdition_deadlinesAhead {e : Fin 4} {f : Edition → Edition} {s : State}
    (hs : DeadlinesAhead s) (h : editionDue s.clock (f s.editions[e]) = false) :
    DeadlinesAhead (modEdition e f s) := by
  refine deadlinesAhead_iff.mpr fun x => ?_
  by_cases hx : x = e
  · subst hx
    rw [passes_eq, modEdition_self]
    exact h
  · exact modEdition_passes_other f hs hx

/-! ### Every command keeps the deadlines ahead (R51) -/

/-- Deadlines ahead of the clock stay so. -/
def KeepsDeadlines (s u : State) : Prop := DeadlinesAhead s → DeadlinesAhead u

theorem KeepsDeadlines.of_frame {gs : List Field} {s u : State} (k : KeepsBut gs s u)
    (h : ∀ f ∈ [Field.clock, .editions], f ∉ gs) : KeepsDeadlines s u := by
  have hclock : u.clock = s.clock := k .clock (h _ (by decide))
  have heditions : u.editions = s.editions := k .editions (h _ (by decide))
  unfold KeepsDeadlines DeadlinesAhead
  rw [hclock, heditions]
  exact id

theorem followsLink_keepsDeadlines : FollowsLink KeepsDeadlines :=
  ⟨fun h k hs => k (h hs), fun h => .of_frame h (by decide)⟩

theorem settle_keepsDeadlines (s : State) : KeepsDeadlines s (settle s) :=
  .of_frame (settle_keeps s) (by decide)

section
variable (b : List Byte) (s : State)

theorem ownSetClock_keepsDeadlines : Leads KeepsDeadlines s (ownSetClock b s) :=
  .ite (.refuse (id : KeepsDeadlines s s) _) (.of fun _ => passageTests_deadlinesAhead _)

/-- A clock that is STOPPED goes on from the value it shows (R48). -/
theorem ownStartClock_keepsDeadlines : Leads KeepsDeadlines s (ownStartClock b s) := by
  have same : KeepsDeadlines s s := id
  unfold ownStartClock
  split
  · exact .unchanged same _
  · exact .unchanged same _
  · next hstopped =>
    exact Leads.of (R := KeepsDeadlines) fun hs _ => hs (by rw [hstopped]; decide)

theorem ownSetDeadline_keepsDeadlines : Leads KeepsDeadlines s (ownSetDeadline b s) := by
  have same : KeepsDeadlines s s := id
  unfold ownSetDeadline
  split
  · exact .refuse same _
  · refine .ite (.refuse same _) ?_
    split
    · next hpassed =>
      exact Leads.of (R := KeepsDeadlines) fun hs => modEdition_deadlinesAhead hs
        (editionDue_of_not_armed (by rw [hpassed]; decide))
    · exact Leads.of (R := KeepsDeadlines) fun hs =>
        passageTest_deadlinesAhead fun _ hx => modEdition_passes_other _ hs hx

theorem editionDue_of_deadlineAhead {s : State} {e : Fin 4} (h : deadlineAhead s e = true)
    (x : EditionState) : editionDue s.clock ⟨s.editions[e].time, x⟩ = false := by
  refine Bool.eq_false_iff.mpr fun hdue => ?_
  obtain ⟨hset, -, htime⟩ := editionDue_iff.mp hdue
  rw [deadlineAhead, Bool.or_eq_true, decide_eq_true_iff, decide_eq_true_iff] at h
  exact h.elim hset (Nat.not_lt_of_le htime)

theorem ownRearm_keepsDeadlines : Leads KeepsDeadlines s (ownRearm b s) := by
  have same : KeepsDeadlines s s := id
  unfold ownRearm
  split
  · exact .refuse same _
  · split
    · exact .unchanged same _
    · exact .unchanged same _
    · refine Leads.of (R := KeepsDeadlines) ?_
      split
      · next hahead =>
        exact fun hs => modEdition_deadlinesAhead hs (editionDue_of_deadlineAhead hahead _)
      · exact same

theorem ownClearDeadline_keepsDeadlines : Leads KeepsDeadlines s (ownClearDeadline b s) := by
  unfold ownClearDeadline
  split
  · exact .refuse (id : KeepsDeadlines s s) _
  · exact Leads.of (R := KeepsDeadlines) fun hs => modEdition_deadlinesAhead hs
      (editionDue_of_not_armed fun h => nomatch h)

end

theorem startAs_keepsDeadlines (c : StartCause) (tag : Byte) (s : State) :
    KeepsDeadlines s (startAs c tag s) := by
  cases c with
  | warm => exact .of_frame (warmStart_keeps tag s) (by decide)
  | cold => exact fun _ hset => absurd rfl hset
  | powerOn => exact fun _ hset => absurd rfl hset

theorem exec_ends_keepsDeadlines {i : Instr} {s t : State} (h : exec i s = .next t) :
    Ends KeepsDeadlines s t := by
  have order := @order_ends _ followsLink_keepsDeadlines
  cases i with
  | powerOn => exact event_ends (R := KeepsDeadlines) (fun _ hset => absurd rfl hset) h
  | restartMade =>
    refine event_ends ?_ h
    split
    · exact id
    · exact startAs_keepsDeadlines _ _ s
  | clockTick =>
    refine event_ends ?_ h
    split
    · exact fun _ => passageTests_deadlinesAhead _
    · exact id
  | setClock => exact order ownSetClock_keepsDeadlines h
  | startClock => exact order ownStartClock_keepsDeadlines h
  | setDeadline => exact order ownSetDeadline_keepsDeadlines h
  | rearm => exact order ownRearm_keepsDeadlines h
  | clearDeadline => exact order ownClearDeadline_keepsDeadlines h
  | _ => exact exec_ends_of_frame _ KeepsDeadlines.of_frame h (by
      simp [touches, orderFields, keyFields])

theorem stepKeepsDeadlinesAhead : Clause.StepKeepsDeadlinesAhead := fun s t hs h =>
  step_keeps (P := DeadlinesAhead)
    (fun hi hp => by
      obtain ⟨u, rfl, hu⟩ := exec_ends_keepsDeadlines hi
      exact settle_keepsDeadlines u (hu hp))
    (fun {s} q => KeepsDeadlines.of_frame (keeps_pending s q) (by decide))
    (fun {s} hp => settle_keepsDeadlines _
      (KeepsDeadlines.of_frame (keeps_now s (s.now + 1)) (by decide) hp)) hs h

end Sys2Proof.Machine
end

section
/-! SUPPORT. Commands that end watches at most and leave every terminal attached: a watch that stands after them stood before them, so that they keep watches legal (R92). Only SET WATCH begins a watch, and only DETACH TERMINAL and a start afresh detach a terminal. -/

namespace Sys2Proof.Machine

/-! ### Watches that end at most -/

/-- Every watch that stands in u stood in s, and every terminal attached in s is attached in u. -/
def NoNewWatch (s u : State) : Prop :=
  ∀ t : Fin 32, (∀ x, u.screens[t].mode = .watching x → s.screens[t].mode = .watching x) ∧
    (s.lines[t].attached = true → u.lines[t].attached = true)

theorem NoNewWatch.refl (s : State) : NoNewWatch s s := fun _ => ⟨fun _ => id, id⟩

theorem NoNewWatch.trans {s u v : State} (h : NoNewWatch s u) (k : NoNewWatch u v) :
    NoNewWatch s v := fun t =>
  ⟨fun x hx => (h t).1 x ((k t).1 x hx), fun ha => (k t).2 ((h t).2 ha)⟩

/-- A further operation after one that begins no watch. -/
theorem NoNewWatch.step {s u v : State} (k : NoNewWatch u v) (h : NoNewWatch s u) :
    NoNewWatch s v := h.trans k

theorem NoNewWatch.ite {c : Prop} [Decidable c] {s u v : State} (h : NoNewWatch s u)
    (k : NoNewWatch s v) : NoNewWatch s (if c then u else v) := by
  split
  · exact h
  · exact k

theorem NoNewWatch.of_frame {gs : List Field} {s u : State} (k : KeepsBut gs s u)
    (h : ∀ f ∈ [Field.screens, .lines], f ∉ gs) : NoNewWatch s u := by
  have hscreens : u.screens = s.screens := k .screens (h _ (by decide))
  have hlines : u.lines = s.lines := k .lines (h _ (by decide))
  intro t
  rw [hscreens, hlines]
  exact ⟨fun _ => id, id⟩

theorem forTerminals_noNewWatch (g : Fin 32 → State → State) (h : ∀ t s, NoNewWatch s (g t s))
    (s : State) : NoNewWatch s (forTerminals g s) := by
  unfold forTerminals
  induction List.finRange 32 generalizing s with
  | nil => exact .refl s
  | cons x xs ih => exact (h x s).trans (ih _)

theorem isWatching_iff {s : State} {t : Fin 32} :
    isWatching s t = true ↔ ∃ x, s.screens[t].mode = .watching x := by
  unfold isWatching
  cases s.screens[t].mode <;> simp

theorem NoNewWatch.isWatching_false {s u : State} (h : NoNewWatch s u) {t : Fin 32}
    (ht : isWatching s t = false) : isWatching u t = false := by
  rw [Bool.eq_false_iff] at ht ⊢
  intro hu
  obtain ⟨x, hx⟩ := isWatching_iff.mp hu
  exact ht (isWatching_iff.mpr ⟨x, (h t).1 x hx⟩)

theorem NoNewWatch.watchLegal {s u : State} (h : NoNewWatch s u) (hs : WatchLegal s) :
    WatchLegal u := by
  intro t x hx
  obtain ⟨hne, hidle, ht, htarget⟩ := hs t x ((h t).1 x hx)
  exact ⟨hne, h.isWatching_false hidle, (h t).2 ht, (h x).2 htarget⟩

/-! ### Screens and lines -/

theorem modLine_self (t : Fin 32) (f : Line → Line) (s : State) :
    (modLine t f s).lines[t] = f s.lines[t] := Vector.getElem_set_self _

theorem modLine_other {t x : Fin 32} (f : Line → Line) (s : State) (h : x ≠ t) :
    (modLine t f s).lines[x] = s.lines[x] :=
  Vector.getElem_set_ne t.isLt x.isLt fun he => h (Fin.ext he.symm)

theorem modScreen_noNewWatch (t : Fin 32) {g : Screen → Screen} (s : State)
    (h : ∀ sc x, (g sc).mode = .watching x → sc.mode = .watching x) :
    NoNewWatch s (modScreen t g s) := by
  refine fun x => ⟨fun y hy => ?_, id⟩
  by_cases hx : x = t
  · subst hx
    rw [modScreen_self] at hy
    exact h _ _ hy
  · rwa [modScreen_other g s hx] at hy

theorem modLine_noNewWatch (t : Fin 32) {g : Line → Line} (s : State)
    (h : ∀ l, l.attached = true → (g l).attached = true) : NoNewWatch s (modLine t g s) := by
  refine fun x => ⟨fun _ => id, fun ha => ?_⟩
  by_cases hx : x = t
  · subst hx
    rw [modLine_self]
    exact h _ ha
  · rwa [modLine_other g s hx]

theorem Line.handUp_attached (l : Line) : l.handUp.attached = l.attached := by
  unfold Line.handUp
  split <;> rfl

theorem Line.byteSent_attached (l : Line) : l.byteSent.attached = l.attached := by
  unfold Line.byteSent
  split <;> rfl

theorem bell_noNewWatch (t : Fin 32) (s : State) : NoNewWatch s (bell t s) :=
  modScreen_noNewWatch t s fun _ _ => id

theorem repaint_noNewWatch (t : Fin 32) (s : State) : NoNewWatch s (repaint t s) :=
  modScreen_noNewWatch t s fun _ _ => id

theorem flashAlert_noNewWatch (slug : List Byte) (t : Fin 32) (s : State) :
    NoNewWatch s (flashAlert slug t s) := modScreen_noNewWatch t s fun _ _ => id

theorem setMode_noNewWatch (t : Fin 32) {m : Mode} (s : State) (h : ∀ x, m ≠ .watching x) :
    NoNewWatch s (setMode t m s) := modScreen_noNewWatch t s fun _ x hx => absurd hx (h x)

theorem emptyFifos_noNewWatch (t : Fin 32) (s : State) : NoNewWatch s (emptyFifos t s) :=
  .step (modScreen_noNewWatch t _ fun _ _ => id) (modLine_noNewWatch t s fun _ => id)

/-! ### The end of an event -/

theorem refreshTerminal_same (s : State) (t : Fin 32) :
    (refreshTerminal s t).1.mode = s.screens[t].mode ∧
      (refreshTerminal s t).2.attached = s.lines[t].attached := by
  unfold refreshTerminal
  dsimp only
  split
  · exact ⟨(emit_same _ _ _).2.2.1, rfl⟩
  · exact ⟨rfl, rfl⟩

theorem settle_noNewWatch (s : State) : NoNewWatch s (settle s) := by
  intro t
  obtain ⟨hscreens, hlines⟩ := grant_move_screens_lines s
  obtain ⟨hmode, hattached⟩ := refreshTerminal_same (grantEngine (moveAll s)) t
  rw [hscreens] at hmode
  rw [hlines] at hattached
  have hscreen : (settle s).screens[t] = (refreshTerminal (grantEngine (moveAll s)) t).1 := by
    rw [settle_screens]
    exact Vector.getElem_ofFn _
  have hline : (settle s).lines[t] = (refreshTerminal (grantEngine (moveAll s)) t).2 := by
    rw [settle_lines]
    exact Vector.getElem_ofFn _
  rw [hscreen, hline, hmode, hattached]
  exact ⟨fun _ => id, id⟩

/-! ### Keys (R65, R67, R68, R105 to R111) -/

theorem withEdit_noNewWatch (t : Fin 32) (s : State) (k : Session → Story → State)
    (h : ∀ e st, NoNewWatch s (k e st)) : NoNewWatch s (withEdit t s k) := by
  unfold withEdit
  split
  · exact bell_noNewWatch t s
  · split
    · exact h _ _
    · exact bell_noNewWatch t s

theorem insertKey_noNewWatch (t : Fin 32) (c : Byte) (e : Session) (st : Story) (s : State) :
    NoNewWatch s (insertKey t c e st s) := by
  unfold insertKey
  split
  · exact (NoNewWatch.of_frame (setText_keeps _ _ _ _ _) (by decide)).trans
      (.of_frame (textEffects_keeps _ _ _ _ _) (by decide))
  · exact bell_noNewWatch t s
  · exact (bell_noNewWatch t s).trans (.of_frame (poolPressed_keeps _ _) (by decide))

theorem editText_noNewWatch (t : Fin 32) (c : Byte) (s : State) :
    NoNewWatch s (editText t c s) :=
  withEdit_noNewWatch t s _ fun _ _ => .ite
    ((NoNewWatch.of_frame (keeps_memory s _) (by decide)).trans
      (.of_frame (textEffects_keeps _ _ _ _ _) (by decide)))
    (insertKey_noNewWatch _ _ _ _ _)

theorem editParagraph_noNewWatch (t : Fin 32) (s : State) : NoNewWatch s (editParagraph t s) :=
  withEdit_noNewWatch t s _ fun _ _ => insertKey_noNewWatch _ _ _ _ _

theorem deleteKey_noNewWatch (t : Fin 32) (e : Session) (k : Nat) (s : State) :
    NoNewWatch s (deleteKey t e k s) :=
  (NoNewWatch.of_frame (deleteAt_keeps _ _ _) (by decide)).trans
    (.of_frame (textEffects_keeps _ _ _ _ _) (by decide))

theorem editDeleteBack_noNewWatch (t : Fin 32) (s : State) : NoNewWatch s (editDeleteBack t s) :=
  withEdit_noNewWatch t s _ fun _ _ => .ite (bell_noNewWatch t s) (deleteKey_noNewWatch _ _ _ _)

theorem editDeleteForward_noNewWatch (t : Fin 32) (s : State) :
    NoNewWatch s (editDeleteForward t s) :=
  withEdit_noNewWatch t s _ fun _ _ => .ite (deleteKey_noNewWatch _ _ _ _) (bell_noNewWatch t s)

theorem editToggle_noNewWatch (t : Fin 32) (s : State) : NoNewWatch s (editToggle t s) :=
  withEdit_noNewWatch t s _ fun _ _ => .of_frame (modSession_keeps _ _ _) (by decide)

/-- A key that moves the cursor, or gives the bell where it cannot. -/
theorem cursorKey_noNewWatch {c : Prop} [Decidable c] (t : Fin 32) (k : Nat) (s : State) :
    NoNewWatch s (if c then bell t s else moveCursor t k s) :=
  .ite (bell_noNewWatch t s) (.of_frame (moveCursor_keeps _ _ _) (by decide))

theorem editLeft_noNewWatch (t : Fin 32) (s : State) : NoNewWatch s (editLeft t s) :=
  withEdit_noNewWatch t s _ fun _ _ => cursorKey_noNewWatch t _ s

theorem editRight_noNewWatch (t : Fin 32) (s : State) : NoNewWatch s (editRight t s) :=
  withEdit_noNewWatch t s _ fun _ _ => cursorKey_noNewWatch t _ s

theorem scrollRef_noNewWatch (t : Fin 32) (s : State) (k : List DRow → RefPane → Option Nat) :
    NoNewWatch s (scrollRef t s k) := by
  unfold scrollRef
  split
  · exact bell_noNewWatch t s
  · split
    · exact bell_noNewWatch t s
    · split
      · exact bell_noNewWatch t s
      · exact .of_frame (modPanes_keeps _ _ _) (by decide)

theorem editUp_noNewWatch (t : Fin 32) (s : State) : NoNewWatch s (editUp t s) :=
  .ite (scrollRef_noNewWatch _ _ _)
    (withEdit_noNewWatch t s _ fun _ _ => cursorKey_noNewWatch t _ s)

theorem editDown_noNewWatch (t : Fin 32) (s : State) : NoNewWatch s (editDown t s) :=
  .ite (scrollRef_noNewWatch _ _ _)
    (withEdit_noNewWatch t s _ fun _ _ => cursorKey_noNewWatch t _ s)

theorem editSwitch_noNewWatch (t : Fin 32) (s : State) : NoNewWatch s (editSwitch t s) := by
  unfold editSwitch
  split
  · exact bell_noNewWatch t s
  · split
    · exact .of_frame (modSession_keeps _ _ _) (by decide)
    · exact .of_frame (modSession_keeps _ _ _) (by decide)
    · exact bell_noNewWatch t s

theorem strikeFunction_noNewWatch (t : Fin 32) (k : Fin 16) (s : State) :
    NoNewWatch s (strikeFunction t k s) := by
  have hrefused : NoNewWatch s (refuseKey t s) :=
    (bell_noNewWatch t s).trans (.of_frame (raiseTerminal_keeps _ _ _) (by decide))
  exact .ite (bell_noNewWatch t s) (.ite hrefused (.ite hrefused
    ((NoNewWatch.of_frame (keeps_keys s _) (by decide)).trans
      (.of_frame (raiseSource_keeps _ _) (by decide)))))

theorem editKey_noNewWatch (t : Fin 32) (act : State → State) (s : State)
    (h : NoNewWatch s (act s)) : NoNewWatch s (editKey t act s) := .ite h (bell_noNewWatch t s)

theorem handKey_noNewWatch (t : Fin 32) (k : Key) (s : State) : NoNewWatch s (handKey t k s) := by
  cases k with
  | text c => exact editKey_noNewWatch t _ s (editText_noNewWatch t c s)
  | deleteBack => exact editKey_noNewWatch t _ s (editDeleteBack_noNewWatch t s)
  | deleteForward => exact editKey_noNewWatch t _ s (editDeleteForward_noNewWatch t s)
  | paragraph => exact editKey_noNewWatch t _ s (editParagraph_noNewWatch t s)
  | left => exact editKey_noNewWatch t _ s (editLeft_noNewWatch t s)
  | right => exact editKey_noNewWatch t _ s (editRight_noNewWatch t s)
  | up => exact editKey_noNewWatch t _ s (editUp_noNewWatch t s)
  | down => exact editKey_noNewWatch t _ s (editDown_noNewWatch t s)
  | switch => exact editKey_noNewWatch t _ s (editSwitch_noNewWatch t s)
  | toggle => exact editKey_noNewWatch t _ s (editToggle_noNewWatch t s)
  | clearMessage => exact .of_frame (clearSlot_keeps t s) (by decide)
  | repaint => exact repaint_noNewWatch t s
  | function k => exact strikeFunction_noNewWatch t k s

theorem decodeChar_noNewWatch (t : Fin 32) (c : Byte) (s : State) :
    NoNewWatch s (decodeChar t c s) := by
  have hprefix : ∀ p, NoNewWatch s (setPrefix t p s) := fun p => modLine_noNewWatch t s fun _ => id
  unfold decodeChar
  refine .ite ?_ (.ite (hprefix _) ?_)
  · split
    · exact (hprefix _).trans (handKey_noNewWatch _ _ _)
    · exact hprefix _
  · split
    · exact handKey_noNewWatch _ _ _
    · exact .refl s

theorem batchTaken_noNewWatch (t : Fin 32) (s : State) : NoNewWatch s (batchTaken t s) :=
  modLine_noNewWatch t s fun _ ha => (Line.handUp_attached _).trans ha

theorem lineActive_noNewWatch (t : Fin 32) (s : State) : NoNewWatch s (lineActive t s) :=
  modLine_noNewWatch t s fun _ => id

theorem offerChar_noNewWatch (t : Fin 32) (c : Byte) (s : State) :
    NoNewWatch s (offerChar t c s) :=
  .ite (modLine_noNewWatch t s fun _ ha => (Line.handUp_attached _).trans ha)
    (.of_frame (raiseTerminal_keeps _ _ _) (by decide))

theorem arrive_noNewWatch (t : Fin 32) (c : Byte) (s : State) : NoNewWatch s (arrive t c s) :=
  (lineActive_noNewWatch t s).trans (offerChar_noNewWatch t c _)

theorem takeCode_noNewWatch (t : Fin 32) (c : Byte) (s : State) : NoNewWatch s (takeCode t c s) :=
  .ite (.refl s) (.ite ((decodeChar_noNewWatch _ _ _).trans (batchTaken_noNewWatch _ _))
    (.ite (decodeChar_noNewWatch _ _ _) (arrive_noNewWatch _ _ _)))

theorem takeFunction_noNewWatch (t : Fin 32) (k : Fin 16) (s : State) :
    NoNewWatch s (takeFunction t k s) :=
  .ite (.refl s) (.ite (takeCode_noNewWatch _ _ _)
    (.ite ((takeCode_noNewWatch _ _ _).trans (takeCode_noNewWatch _ _ _))
      ((arrive_noNewWatch _ _ _).trans (arrive_noNewWatch _ _ _))))

/-! ### Terminal lines and timers (R64 to R66, R72, R87, R96) -/

theorem receiveFrame_noNewWatch (t : Fin 32) (r : RxFrame) (s : State) :
    NoNewWatch s (receiveFrame t r s) := by
  unfold receiveFrame
  refine .ite (.step ?_ (lineActive_noNewWatch t s)) (.refl s)
  exact .ite (.of_frame (raiseTerminal_keeps _ _ _) (by decide)) (offerChar_noNewWatch _ _ _)

theorem idleExpires_noNewWatch (t : Fin 32) (s : State) : NoNewWatch s (idleExpires t s) :=
  .ite (modLine_noNewWatch t s fun _ ha => (Line.handUp_attached _).trans ha) (.refl s)

theorem breakSeen_noNewWatch (t : Fin 32) (s : State) : NoNewWatch s (breakSeen t s) :=
  .ite (.step (repaint_noNewWatch t _) (.step (.of_frame (raiseTerminal_keeps _ _ _) (by decide))
    (modLine_noNewWatch t s fun _ => id))) (.refl s)

theorem terminalByteSent_noNewWatch (t : Fin 32) (s : State) :
    NoNewWatch s (terminalByteSent t s) := by
  have hsent : NoNewWatch s (modLine t Line.byteSent s) :=
    modLine_noNewWatch t s fun _ ha => (Line.byteSent_attached _).trans ha
  unfold terminalByteSent
  split
  · exact .refl s
  · exact .ite (hsent.trans (modScreen_noNewWatch t _ fun _ _ => id)) hsent

theorem flashExpires_noNewWatch (t : Fin 32) (s : State) : NoNewWatch s (flashExpires t s) := by
  unfold flashExpires
  split
  · exact .refl s
  · exact (NoNewWatch.of_frame (advanceTo_keeps s _) (by decide)).trans
      (modScreen_noNewWatch t _ fun _ _ => id)

theorem dwellExpires_noNewWatch (t : Fin 32) (s : State) : NoNewWatch s (dwellExpires t s) := by
  unfold dwellExpires
  split
  · exact (NoNewWatch.of_frame (advanceTo_keeps s _) (by decide)).trans
      (modScreen_noNewWatch t _ fun _ _ h => nomatch h)
  · exact .refl s

/-! ### Wires: the flash alerts of a filed story (R174, R178) -/

theorem flashAlerts_noNewWatch (st : Story) (s : State) : NoNewWatch s (flashAlerts st s) :=
  .ite (forTerminals_noNewWatch _ (fun t s => .ite (flashAlert_noNewWatch _ t s) (.refl s)) s)
    (.refl s)

theorem fileStory_noNewWatch (w : Fin 4) (id : Nat) (cut : Bool) (i : Intake) (s : State) :
    NoNewWatch s (fileStory w id cut i s) := by
  have hmarked : NoNewWatch s (if cut then modStory id (fun st => { st with cut := true }) s else s) :=
    .ite (.of_frame (modStory_keeps _ _ _) (by decide)) (.refl s)
  have hoffered : ∀ g, NoNewWatch s (autoOffer id (raiseWire w g (release id
      (if cut then modStory id (fun st => { st with cut := true }) s else s)))) := fun g =>
    hmarked.trans ((NoNewWatch.of_frame (release_keeps _ _) (by decide)).trans
      ((NoNewWatch.of_frame (raiseWire_keeps _ _ _) (by decide)).trans
        (.of_frame (autoOffer_keeps _ _) (by decide))))
  unfold fileStory
  refine NoNewWatch.trans ?_ (.of_frame (setIntake_keeps _ _ _) (by decide))
  split
  · exact hoffered _
  · exact (hoffered _).trans (flashAlerts_noNewWatch _ _)

theorem storeLow_noNewWatch (w : Fin 4) (id : Nat) (s : State) : NoNewWatch s (storeLow w id s) :=
  (NoNewWatch.of_frame (poolPressed_keeps s _) (by decide)).trans (fileStory_noNewWatch _ _ _ _ _)

theorem storeChar_noNewWatch (w : Fin 4) (id : Nat) (c : Byte) (s : State) :
    NoNewWatch s (storeChar w id c s) := by
  unfold storeChar
  split
  · exact .refl s
  · refine .ite (fileStory_noNewWatch _ _ _ _ _) (.ite (storeLow_noNewWatch _ _ _) ?_)
    split
    · exact .of_frame (stored_keeps _ _ _ _ _) (by decide)
    · exact fileStory_noNewWatch _ _ _ _ _
    · exact storeLow_noNewWatch _ _ _

theorem storeDamaged_noNewWatch (w : Fin 4) (id : Nat) (s : State) :
    NoNewWatch s (storeDamaged w id s) :=
  (NoNewWatch.of_frame (raiseWire_keeps s _ _) (by decide)).trans
    ((NoNewWatch.of_frame (garble_keeps _ _) (by decide)).trans (storeChar_noNewWatch _ _ _ _))

theorem takeText_noNewWatch (w : Fin 4) (id : Nat) (c : Byte) (s : State) :
    NoNewWatch s (takeText w id c s) :=
  .ite (storeChar_noNewWatch _ _ _ _) (.ite (fileStory_noNewWatch _ _ _ _ _)
    (.ite (fileStory_noNewWatch _ _ _ _ _) (.refl s)))

theorem intakeChar_noNewWatch (w : Fin 4) (c : WireChar) (s : State) :
    NoNewWatch s (intakeChar w c s) := by
  have hintake : ∀ i, NoNewWatch s (setIntake w i s) := fun i =>
    .of_frame (setIntake_keeps _ _ _) (by decide)
  unfold intakeChar
  split
  · exact .refl s
  · exact .ite (hintake _) (.refl s)
  · exact .ite (hintake _) (.refl s)
  · exact .ite ((hintake _).trans (.of_frame (raiseWire_keeps _ _ _) (by decide)))
      (.of_frame (takeHeading_keeps _ _ _ _) (by decide))
  · exact .ite (storeDamaged_noNewWatch _ _ _) (takeText_noNewWatch _ _ _ _)

theorem intakeBreak_noNewWatch (w : Fin 4) (s : State) : NoNewWatch s (intakeBreak w s) := by
  unfold intakeBreak
  split
  · exact .refl s
  · exact .refl s
  · exact .of_frame (setIntake_keeps _ _ _) (by decide)
  · exact .of_frame (setIntake_keeps _ _ _) (by decide)
  · exact fileStory_noNewWatch _ _ _ _ _

theorem takeIntake_noNewWatch (w : Fin 4) (s : State) : NoNewWatch s (takeIntake w s) := by
  unfold takeIntake
  split
  · exact .refl s
  · next c cs _ =>
    have hchar := (NoNewWatch.of_frame (modWire_keeps s w fun l => { l with fifo := cs })
      (by decide)).trans (intakeChar_noNewWatch w c _)
    have hloss := NoNewWatch.ite (c := c.loss = true)
      (hchar.trans (.of_frame (intakeLoss_keeps w _) (by decide))) hchar
    exact .ite (hloss.trans (intakeBreak_noNewWatch _ _)) hloss

theorem wireBreak_noNewWatch (w : Fin 4) (s : State) : NoNewWatch s (wireBreak w s) :=
  .ite (intakeBreak_noNewWatch _ _) (.ite (.refl s) (.of_frame (modWire_keeps _ _ _) (by decide)))

theorem silenceExpires_noNewWatch (w : Fin 4) (s : State) :
    NoNewWatch s (silenceExpires w s) := by
  unfold silenceExpires
  refine .ite (.step ?_ (.of_frame
    (advanceTo_keeps s (s.wires[w].silenceFrom + Config.silenceMs)) (by decide))) (.refl s)
  dsimp only
  split
  · exact fileStory_noNewWatch _ _ _ _ _
  · exact .of_frame (setIntake_keeps _ _ _) (by decide)

theorem changeWire_noNewWatch (w : Fin 4) (on : Bool) (f : LineFormat) (s : State) :
    NoNewWatch s (changeWire w on f s) := by
  unfold changeWire
  refine NoNewWatch.trans ?_ (.of_frame (modWire_keeps _ _ _) (by decide))
  split
  · exact fileStory_noNewWatch _ _ _ _ _
  · exact .refl s

/-! ### Assignment and rotation (R60, R61, R94) -/

theorem attach_noNewWatch (t : Fin 32) (a : Assignment) (s : State) :
    NoNewWatch s (attach t a s) :=
  .step (repaint_noNewWatch t _) (.step (.of_frame (setSlot_keeps _ _ _) (by decide))
    (.step (modScreen_noNewWatch t _ fun _ _ h => nomatch h)
      (.step (modLine_noNewWatch t _ fun _ _ => rfl) (emptyFifos_noNewWatch t s))))

theorem reassignLine_noNewWatch (t : Fin 32) (a : Assignment) (s : State) :
    NoNewWatch s (reassignLine t a s) := by
  unfold reassignLine
  refine .step (.ite (.refl _)
    (modLine_noNewWatch t _ fun _ ha => (Line.handUp_attached _).trans ha)) ?_
  exact .ite (.refl s) (.step (repaint_noNewWatch t _) (.step (emptyFifos_noNewWatch t _)
    (modLine_noNewWatch t s fun _ => id)))

theorem reassignLayout_noNewWatch (t : Fin 32) (a : Assignment) (s : State) :
    NoNewWatch s (reassignLayout t a s) := by
  unfold reassignLayout
  exact .ite (.refl s) (.step (modLine_noNewWatch t _ fun _ => id)
    (.of_frame (closePanes_keeps t s) (by decide)))

theorem reassignAuthority_noNewWatch (t : Fin 32) (a : Assignment) (s : State) :
    NoNewWatch s (reassignAuthority t a s) := by
  unfold reassignAuthority
  exact .ite (.refl s) (.step (.of_frame (recheck_keeps _ _ _) (by decide))
    (modLine_noNewWatch t s fun _ => id))

theorem reassignWatch_noNewWatch (t : Fin 32) (s : State) : NoNewWatch s (reassignWatch t s) :=
  .ite (setMode_noNewWatch t s fun _ h => nomatch h) (.refl s)

theorem reassign_noNewWatch (t : Fin 32) (a : Assignment) (s : State) :
    NoNewWatch s (reassign t a s) :=
  (reassignLine_noNewWatch t a s).trans ((reassignLayout_noNewWatch t a _).trans
    ((reassignAuthority_noNewWatch t a _).trans (reassignWatch_noNewWatch t _)))

theorem endRotation_noNewWatch (t : Fin 32) (s : State) : NoNewWatch s (endRotation t s) := by
  unfold endRotation
  split
  · exact setMode_noNewWatch t s fun _ h => nomatch h
  · exact .refl s

theorem beginRotation_noNewWatch (t : Fin 32) (bs : List (Fin 64)) (d : Nat) (k : Bool)
    (s : State) : NoNewWatch s (beginRotation t bs d k s) :=
  (NoNewWatch.of_frame (closePanes_keeps t s) (by decide)).trans
    (setMode_noNewWatch t _ fun _ h => nomatch h)

/-! ### The WARM restart (R75, R193) -/

theorem warmStart_noNewWatch (tag : Byte) (s : State) : NoNewWatch s (warmStart tag s) := by
  intro t
  obtain ⟨-, -, -, -, hmode⟩ := warmScreen_same s.now s.lines[t].attached s.screens[t]
  rw [warmStart_screen, warmStart_line, hmode]
  refine ⟨fun x hx => ?_, id⟩
  cases hm : s.screens[t].mode with
  | rotating r => rw [hm] at hx; cases hx
  | normal => rw [hm] at hx; cases hx
  | watching y => rw [hm] at hx; exact hx

/-! ### The owners -/

section
variable (b : List Byte) (s : State)

theorem ownAssignTerminal_noNewWatch : Leads NoNewWatch s (ownAssignTerminal b s) := by
  unfold ownAssignTerminal
  split
  · exact .ite (.of (reassign_noNewWatch _ _ s)) (.of (attach_noNewWatch _ _ s))
  · exact .refuse (.refl s) _

theorem ownPutScreenText_noNewWatch : Leads NoNewWatch s (ownPutScreenText b s) := by
  refine withText_leads (.refl s) fun _ => ?_
  split
  · exact modScreen_noNewWatch _ s fun _ _ => id
  · exact .refuse (.refl s) _

theorem ownFillBase_noNewWatch : Leads NoNewWatch s (ownFillBase b s) := by
  unfold ownFillBase
  dsimp only
  split
  · exact modScreen_noNewWatch _ s fun _ _ => id
  · exact .refuse (.refl s) _

theorem ownSetStatus_noNewWatch : Leads NoNewWatch s (ownSetStatus b s) :=
  withText_leads (.refl s) fun _ => withTerminal_leads (.refl s) fun t =>
    .of (modScreen_noNewWatch t s fun _ _ => id)

theorem ownRepaint_noNewWatch : Leads NoNewWatch s (ownRepaint b s) :=
  withTerminal_leads (.refl s) fun t => .ite (.of (repaint_noNewWatch t s)) (.refuse (.refl s) _)

theorem ownSetRotation_noNewWatch : Leads NoNewWatch s (ownSetRotation b s) := by
  have same := NoNewWatch.refl s
  refine withTerminal_leads same fun t => .ite (.refuse same _) ?_
  dsimp only
  refine .ite (.refuse same _) ?_
  split
  · exact .refuse same _
  · split
    · exact .refuse same _
    · exact .of (.ite (endRotation_noNewWatch t s) (beginRotation_noNewWatch _ _ _ _ _))

theorem ownSetWireLine_noNewWatch : Leads NoNewWatch s (ownSetWireLine b s) := by
  unfold ownSetWireLine
  split
  · exact .refuse (.refl s) _
  · exact .of (.ite (.refl s) (changeWire_noNewWatch _ _ _ s))

end

end Sys2Proof.Machine
end

section
/-! SUPPORT. Every step keeps watches legal and deadlines ahead of the clock: SET WATCH begins a watch only between terminals that may watch and be watched, and DETACH TERMINAL ends the watches of the terminal first (R51, R62, R92, R93). -/

namespace Sys2Proof.Machine

/-- Legal watches stay so. -/
def KeepsWatches (s u : State) : Prop := WatchLegal s → WatchLegal u

theorem NoNewWatch.keepsWatches {s u : State} (h : NoNewWatch s u) : KeepsWatches s u :=
  h.watchLegal

theorem KeepsWatches.of_frame {gs : List Field} {s u : State} (k : KeepsBut gs s u)
    (h : ∀ f ∈ [Field.screens, .lines], f ∉ gs) : KeepsWatches s u :=
  (NoNewWatch.of_frame k h).keepsWatches

theorem followsLink_keepsWatches : FollowsLink KeepsWatches :=
  ⟨fun h k hs => k (h hs), fun h => .of_frame h (by decide)⟩

/-! ### SET WATCH (R92) -/

theorem isWatched_eq_false_iff {s : State} {t : Fin 32} :
    isWatched s t = false ↔ ∀ w : Fin 32, s.screens[w].mode ≠ .watching t := by
  simp [isWatched, watches]

theorem setMode_self (t : Fin 32) (m : Mode) (s : State) : (setMode t m s).screens[t].mode = m :=
  congrArg Screen.mode (modScreen_self t _ s)

theorem setMode_other {t x : Fin 32} (m : Mode) (s : State) (h : x ≠ t) :
    (setMode t m s).screens[x].mode = s.screens[x].mode :=
  congrArg Screen.mode (modScreen_other _ s h)

/-- A watch may begin where both ends are attached, the target neither is the watcher nor watches, and nobody watches the watcher. -/
theorem setMode_watching_watchLegal {s : State} {w target : Fin 32} (hs : WatchLegal s)
    (hne : target ≠ w) (hw : s.lines[w].attached = true) (ht : s.lines[target].attached = true)
    (hidle : isWatching s target = false) (hunwatched : isWatched s w = false) :
    WatchLegal (setMode w (.watching target) s) := by
  have idle_of_ne : ∀ {x : Fin 32}, x ≠ w → isWatching s x = false →
      isWatching (setMode w (.watching target) s) x = false := fun hx h => by
    unfold isWatching
    rw [setMode_other _ s hx]
    exact h
  intro t x hx
  by_cases htw : t = w
  · subst htw
    rw [setMode_self] at hx
    cases hx
    exact ⟨hne, idle_of_ne hne hidle, hw, ht⟩
  · rw [setMode_other _ s htw] at hx
    obtain ⟨hself, hxidle, hat, hax⟩ := hs t x hx
    have hxw : x ≠ w := fun he => isWatched_eq_false_iff.mp hunwatched t (he ▸ hx)
    exact ⟨hself, idle_of_ne hxw hxidle, hat, hax⟩

theorem watchTarget_keepsWatches {s : State} {w : Fin 32} (hw : s.lines[w].attached = true)
    (target : Fin 32) : Leads KeepsWatches s (watchTarget w target s) := by
  have same : KeepsWatches s s := id
  unfold watchTarget
  split
  · exact .refuse same _
  next hne =>
  split
  · exact .refuse same _
  split
  · exact .refuse same _
  next hattached =>
  split
  · exact .refuse same _
  next hidle =>
  split
  · exact .refuse same _
  next hunwatched =>
  rw [Bool.not_eq_true, Bool.not_eq_false'] at hattached
  exact Leads.of (R := KeepsWatches) fun hs => setMode_watching_watchLegal hs hne hw hattached
    (Bool.eq_false_iff.mpr hidle) (Bool.eq_false_iff.mpr hunwatched)

theorem ownSetWatch_keepsWatches (b : List Byte) (s : State) :
    Leads KeepsWatches s (ownSetWatch b s) := by
  have same : KeepsWatches s s := id
  refine withTerminal_leads same fun w => ?_
  split
  · exact .of (NoNewWatch.keepsWatches
      (.ite (setMode_noNewWatch w s fun _ h => nomatch h) (.refl s)))
  · split
    · exact .refuse same _
    · next target _ =>
      split
      · exact .refuse same _
      · next hattached =>
        rw [Bool.not_eq_true, Bool.not_eq_false'] at hattached
        exact watchTarget_keepsWatches hattached target

/-! ### DETACH TERMINAL (R62, R93) -/

/-- A mode once the watches of a target have ended. -/
def Mode.unless (target : Fin 32) (m : Mode) : Mode :=
  if m = .watching target then .normal else m

theorem endWatchers_mode (target : Fin 32) (s : State) (t : Fin 32) :
    (endWatchers target s).screens[t].mode = s.screens[t].mode.unless target := by
  refine forTerminals_at (fun s t => s.screens[t].mode) (fun _ => Mode.unless target)
    (fun s t => ?_) (fun s t x hx => ?_) s t
  · unfold Mode.unless
    by_cases hw : s.screens[t].mode = .watching target
    · rw [if_pos hw, if_pos (show watches s t target = true from decide_eq_true hw)]
      exact (congrArg Screen.mode (modScreen_self t _ _)).trans (setMode_self t _ s)
    · rw [if_neg hw, if_neg (fun h : watches s t target = true => hw (of_decide_eq_true h))]
  · by_cases hw : watches s t target = true
    · rw [if_pos hw]
      exact (congrArg Screen.mode (modScreen_other _ _ hx)).trans (setMode_other _ s hx)
    · rw [if_neg hw]

theorem endWatchers_noNewWatch (target : Fin 32) (s : State) :
    NoNewWatch s (endWatchers target s) :=
  forTerminals_noNewWatch _ (fun t s => .ite
    (.step (repaint_noNewWatch t _) (setMode_noNewWatch t (m := .normal) s fun _ h => nomatch h))
    (.refl s)) s

/-- The terminal's watchers have ended their watches, before its own screen and line are cleared. -/
theorem endWatchers_unwatched (target : Fin 32) (s : State) :
    isWatched (endWatchers target s) target = false := by
  refine isWatched_eq_false_iff.mpr fun w hw => ?_
  rw [endWatchers_mode] at hw
  unfold Mode.unless at hw
  split at hw
  · cases hw
  · next h => exact h hw

theorem NoNewWatch.unwatched {s u : State} (h : NoNewWatch s u) {t : Fin 32}
    (ht : isWatched s t = false) : isWatched u t = false :=
  isWatched_eq_false_iff.mpr fun w hw => isWatched_eq_false_iff.mp ht w ((h w).1 t hw)

/-- A terminal that neither watches nor is watched may be detached. -/
theorem modLine_watchLegal {s : State} {t : Fin 32} (f : Line → Line) (hs : WatchLegal s)
    (hidle : isWatching s t = false) (hunwatched : isWatched s t = false) :
    WatchLegal (modLine t f s) := by
  intro w x hx
  obtain ⟨hne, hxidle, hw, hax⟩ := hs w x hx
  have hwt : w ≠ t := fun he =>
    absurd (isWatching_iff.mpr ⟨x, he ▸ hx⟩) (Bool.eq_false_iff.mp hidle)
  have hxt : x ≠ t := fun he => isWatched_eq_false_iff.mp hunwatched w (he ▸ hx)
  rw [modLine_other f s hwt, modLine_other f s hxt]
  exact ⟨hne, hxidle, hw, hax⟩

theorem detach_keepsWatches (t : Fin 32) (s : State) : KeepsWatches s (detach t s) := by
  intro hs
  have hended : NoNewWatch s (endWatchers t (closePanes t s)) :=
    .step (endWatchers_noNewWatch t _) (.of_frame (closePanes_keeps t s) (by decide))
  have hunwatched := endWatchers_unwatched t (closePanes t s)
  unfold detach
  generalize endWatchers t (closePanes t s) = u at hended hunwatched
  have hscreen : NoNewWatch u (modScreen t Screen.detached u) :=
    modScreen_noNewWatch t u fun _ _ h => nomatch h
  have hidle : isWatching (modScreen t Screen.detached u) t = false := by
    unfold isWatching
    rw [modScreen_self]
    rfl
  have hrest : NoNewWatch (modScreen t Screen.detached u)
      (emptyFifos t (setSlot t none (modScreen t Screen.detached u))) :=
    .step (emptyFifos_noNewWatch t _) (.of_frame (setSlot_keeps _ t none) (by decide))
  have hall := hscreen.trans hrest
  exact modLine_watchLegal _ ((hended.trans hall).watchLegal hs) (hrest.isWatching_false hidle)
    (hall.unwatched hunwatched)

theorem ownDetachTerminal_keepsWatches (b : List Byte) (s : State) :
    Leads KeepsWatches s (ownDetachTerminal b s) :=
  have same : KeepsWatches s s := id
  withTerminal_leads same fun t => .ite (.of (detach_keepsWatches t s)) (.refuse same _)

/-! ### Commands and steps -/

theorem start_watchLegal (cause : StartCause) (tag : Byte) (ready : Fin 4 → Bool)
    (sending : Fin 4 → OutTx) (now : Nat) (pending : List Instr) :
    WatchLegal (State.start cause tag ready sending now pending) := by
  intro t x hx
  have hscreen : (State.start cause tag ready sending now pending).screens[t] = Screen.reset :=
    Vector.getElem_replicate _
  rw [hscreen] at hx
  cases hx

theorem startAs_keepsWatches (c : StartCause) (tag : Byte) (s : State) :
    KeepsWatches s (startAs c tag s) := by
  cases c with
  | warm => exact (warmStart_noNewWatch tag s).keepsWatches
  | cold => exact fun _ => start_watchLegal _ _ _ _ _ _
  | powerOn => exact fun _ => start_watchLegal _ _ _ _ _ _

theorem exec_ends_keepsWatches {i : Instr} {s t : State} (h : exec i s = .next t) :
    Ends KeepsWatches s t := by
  have order := @order_ends _ followsLink_keepsWatches
  have event : ∀ {u}, NoNewWatch s u → Host.Outcome.next (settle u) =
      (.next t : Host.Outcome State Fault Refusal) → Ends KeepsWatches s t := fun k he =>
    event_ends k.keepsWatches he
  cases i with
  | powerOn => exact event_ends (R := KeepsWatches) (fun _ => start_watchLegal _ _ _ _ _ _) h
  | restartMade =>
    refine event_ends ?_ h
    split
    · exact id
    · exact startAs_keepsWatches _ _ s
  | assignTerminal =>
    exact order (fun b s => (ownAssignTerminal_noNewWatch b s).mono NoNewWatch.keepsWatches) h
  | detachTerminal => exact order ownDetachTerminal_keepsWatches h
  | putScreenText =>
    exact order (fun b s => (ownPutScreenText_noNewWatch b s).mono NoNewWatch.keepsWatches) h
  | fillBase =>
    exact order (fun b s => (ownFillBase_noNewWatch b s).mono NoNewWatch.keepsWatches) h
  | setStatus =>
    exact order (fun b s => (ownSetStatus_noNewWatch b s).mono NoNewWatch.keepsWatches) h
  | repaint => exact order (fun b s => (ownRepaint_noNewWatch b s).mono NoNewWatch.keepsWatches) h
  | setWatch => exact order ownSetWatch_keepsWatches h
  | setRotation =>
    exact order (fun b s => (ownSetRotation_noNewWatch b s).mono NoNewWatch.keepsWatches) h
  | setWireLine =>
    exact order (fun b s => (ownSetWireLine_noNewWatch b s).mono NoNewWatch.keepsWatches) h
  | terminalCharacterReceived t r => exact event (receiveFrame_noNewWatch t r s) h
  | terminalIdleExpiry t => exact event (idleExpires_noNewWatch t s) h
  | terminalBreak t => exact event (breakSeen_noNewWatch t s) h
  | textKey t c => exact event (takeCode_noNewWatch t _ s) h
  | newParagraph t => exact event (takeCode_noNewWatch t _ s) h
  | deleteBack t => exact event (takeCode_noNewWatch t _ s) h
  | deleteForward t => exact event (takeCode_noNewWatch t _ s) h
  | insertOvertypeToggle t => exact event (takeCode_noNewWatch t _ s) h
  | cursorLeft t => exact event (takeCode_noNewWatch t _ s) h
  | cursorRight t => exact event (takeCode_noNewWatch t _ s) h
  | cursorUp t => exact event (takeCode_noNewWatch t _ s) h
  | cursorDown t => exact event (takeCode_noNewWatch t _ s) h
  | paneSwitch t => exact event (takeCode_noNewWatch t _ s) h
  | clearMessage t => exact event (takeCode_noNewWatch t _ s) h
  | repaintKey t => exact event (takeCode_noNewWatch t _ s) h
  | functionKeyPrefix t => exact event (takeCode_noNewWatch t _ s) h
  | functionKey t k => exact event (takeFunction_noNewWatch t k s) h
  | ignoredCode t c => exact event (.ite (takeCode_noNewWatch t c s) (.refl s)) h
  | terminalByteSent t => exact event (terminalByteSent_noNewWatch t s) h
  | flashAlertExpiry t => exact event (flashExpires_noNewWatch t s) h
  | rotationDwellExpiry t => exact event (dwellExpires_noNewWatch t s) h
  | wireBreak w => exact event (wireBreak_noNewWatch w s) h
  | wireIntakeCharacter w => exact event (takeIntake_noNewWatch w s) h
  | wireSilenceExpiry w => exact event (silenceExpires_noNewWatch w s) h
  | _ => exact exec_ends_of_frame _ KeepsWatches.of_frame h (by simp [touches, orderFields])

theorem stepKeepsWatchesLegal : Clause.StepKeepsWatchesLegal := fun s t hs h =>
  step_keeps (P := WatchLegal)
    (fun hi hp => by
      obtain ⟨u, rfl, hu⟩ := exec_ends_keepsWatches hi
      exact (settle_noNewWatch u).watchLegal (hu hp))
    (fun {s} q => KeepsWatches.of_frame (keeps_pending s q) (by decide))
    (fun {s} hp => (settle_noNewWatch _).watchLegal
      (KeepsWatches.of_frame (keeps_now s (s.now + 1)) (by decide) hp)) hs h

/-- Settles O57: only the orders on the clock and the editions, the tick and the starts touch what R51 speaks of, and only SET WATCH begins a watch. -/
theorem stepKeepsDeadlinesAndWatches : Obligations.StepKeepsDeadlinesAndWatches :=
  ⟨stepKeepsDeadlinesAhead, stepKeepsWatchesLegal⟩

end Sys2Proof.Machine
end

section
/-! SUPPORT. The tick, SET CLOCK, START CLOCK and READ CLOCK (R46 to R49, R52). -/

namespace Sys2Proof.Machine

/-! ### What the passage test leaves of an edition (R52) -/

section
variable {s : State} {e : Fin 4}

theorem passageTests_of_due (h : editionDue s.clock s.editions[e] = true) :
    (passageTests s).editions[e] = { s.editions[e] with state := .passed } ∧
      (passageTests s).notices.pending[srcEdition e] = true := by
  have hview := passageTests_view s e
  have hdue : viewDue (editionView s e) = true := h
  rw [passView, if_pos hdue, editionView, Prod.mk.injEq, Prod.mk.injEq] at hview
  exact hview.2

theorem passageTests_of_not_due (h : editionDue s.clock s.editions[e] = false) :
    (passageTests s).editions[e] = s.editions[e] ∧
      (passageTests s).notices.pending[srcEdition e] = s.notices.pending[srcEdition e] := by
  have hview := passageTests_view s e
  have hdue : ¬ viewDue (editionView s e) = true := Bool.eq_false_iff.mp h
  rw [passView, if_neg hdue, editionView, editionView, Prod.mk.injEq,
    Prod.mk.injEq] at hview
  exact hview.2

theorem passageTests_edition : (passageTests s).editions[e] = { s.editions[e] with
    state := if editionDue s.clock s.editions[e] then .passed else s.editions[e].state } := by
  cases h : editionDue s.clock s.editions[e] with
  | true => exact (passageTests_of_due h).1
  | false => exact (passageTests_of_not_due h).1

theorem passageTests_passed_iff : (passageTests s).editions[e].state = .passed ↔
    s.editions[e].state = .passed ∨ editionDue s.clock s.editions[e] = true := by
  rw [passageTests_edition]
  cases editionDue s.clock s.editions[e] <;> simp

end

theorem passageTestPassesWhatIsDue : Clause.PassageTestPassesWhatIsDue := by
  intro s e
  refine ⟨passageTests_keeps s, by rw [passageTests_edition], fun hdue => ?_, fun hdue => ?_⟩
  · obtain ⟨hrecord, hnotice⟩ := passageTests_of_due (editionDue_iff.mpr hdue)
    exact ⟨congrArg Edition.state hrecord, hnotice⟩
  · obtain ⟨hrecord, hnotice⟩ := passageTests_of_not_due
      (Bool.eq_false_iff.mpr fun h => hdue (editionDue_iff.mp h))
    exact ⟨congrArg Edition.state hrecord, hnotice⟩

/-! ### The tick (R46) -/

/-- The state in which a tick makes its passage tests: the clock has advanced. -/
def clockAdvanced (s : State) : State :=
  { advanceTo (s.clock.tickFrom + Config.second) s with
    clock := ⟨s.clock.state, tickValue s.clock.value, s.clock.tickFrom + Config.second⟩ }

theorem tick_eq (s : State) : tick s = passageTests (clockAdvanced s) := rfl

theorem clockTickAdvancesAndTests : Clause.ClockTickAdvancesAndTests := by
  intro s
  have hexec : exec .clockTick s =
      .next (settle (if s.clock.state = .running then tick s else s)) := rfl
  refine ⟨fun hrun => ⟨tick s, ?_, tick_keeps s, ?_⟩, fun hrest => ⟨s, ?_, .refl _ s, trivial⟩⟩
  · rw [hexec, if_pos hrun]
  · have hclock : (tick s).clock = (clockAdvanced s).clock :=
      passageTests_keeps (clockAdvanced s) .clock (by decide)
    have hnow : (tick s).now = (clockAdvanced s).now :=
      passageTests_keeps (clockAdvanced s) .now (by decide)
    dsimp only
    rw [hclock, hnow]
    refine ⟨hrun, rfl, rfl, rfl, fun e => ?_⟩
    have hset : (clockAdvanced s).clock.state ≠ .unset := by
      show s.clock.state ≠ .unset
      rw [hrun]
      decide
    rw [tick_eq, passageTests_passed_iff, editionDue_iff, passageTests_edition]
    exact ⟨rfl, or_congr_right (and_iff_right hset)⟩
  · rw [hexec, if_neg hrest]

/-! ### An owner's answer, given as a pair -/

/-- An order in hand whose owner leaves u, without touching the link, and answers r. -/
theorem replies_of_own_eq {i : Instr} {kind tag : Byte} {body : List Byte} {s u : State}
    {need : Nat} {own : List Byte → State → Answer} {r : Reply} {fs : List Field}
    {P : State → Prop} (hi : exec i s = .next (takeOrder kind need own tag body s))
    (ht : Takes ⟨kind, tag, body⟩ s) (hn : need ≤ body.length)
    (ho : own body (dropHead s) = (u, r)) (hk : KeepsBut fs (dropHead s) u)
    (hl : Field.link ∉ fs) (hP : P (answer kind tag (u, r))) : Replies i kind tag r fs s P :=
  replies_of_own hi ht hn (congrArg Prod.snd ho) (by rw [ho]; exact hk) hl (by rw [ho]; exact hP)

/-! ### SET CLOCK (R47) -/

/-- The clock that SET CLOCK gives. -/
def clockGiven (body : List Byte) (s : State) : Clock :=
  ⟨if u8 body 3 ≠ 0 then .stopped else .running, u24 body 0, s.now⟩

/-- The state in which SET CLOCK makes its passage tests: the clock has its new time and state. -/
def clockWritten (body : List Byte) (s : State) : State := { s with clock := clockGiven body s }

theorem clockGiven_set (body : List Byte) (s : State) : (clockGiven body s).state ≠ .unset := by
  show (if u8 body 3 ≠ 0 then ClockState.stopped else .running) ≠ .unset
  split <;> decide

theorem editionDue_clockGiven (body : List Byte) (s : State) (d : Edition) :
    editionDue (clockGiven body s) d =
      (decide (d.state = .armed) && decide (d.time ≤ u24 body 0)) := by
  rw [editionDue, decide_eq_true (clockGiven_set body s), Bool.true_and]
  rfl

/-- The editions that a new time passes. -/
def passedBy (time : Nat) (s : State) : List (Fin 4) :=
  (List.finRange 4).filter fun e =>
    decide (s.editions[e].state = .armed) && decide (s.editions[e].time ≤ time)

theorem mem_passedBy {body : List Byte} {s : State} {e : Fin 4} :
    e ∈ passedBy (u24 body 0) s ↔ editionDue (clockGiven body s) s.editions[e] = true := by
  rw [editionDue_clockGiven, passedBy, List.mem_filter]
  exact and_iff_right (List.mem_finRange e)

/-- The editions that were ARMED before and are PASSED after are those that the new time passes. -/
theorem newlyPassed_clockWritten (body : List Byte) (s : State) :
    newlyPassed s (passageTests (clockWritten body s)) =
      (passedBy (u24 body 0) s).map fun e => e.val + 1 := by
  have hafter : ∀ e : Fin 4, (passageTests (clockWritten body s)).editions[e].state = .passed ↔
      s.editions[e].state = .passed ∨ editionDue (clockGiven body s) s.editions[e] = true :=
    fun e => passageTests_passed_iff
  generalize passageTests (clockWritten body s) = u at hafter
  have hpassed : ∀ e : Fin 4, (decide (s.editions[e].state = .armed) &&
      decide (u.editions[e].state = .passed)) = (decide (s.editions[e].state = .armed) &&
        decide (s.editions[e].time ≤ u24 body 0)) := by
    intro e
    by_cases harmed : s.editions[e].state = .armed
    · simp [hafter, editionDue_clockGiven, harmed, -Fin.getElem_fin]
    · simp only [harmed, decide_false, Bool.false_and]
  simp only [newlyPassed, passedBy, hpassed]

theorem ownSetClock_range {body : List Byte} {s : State} (h : 86399 < u24 body 0) :
    ownSetClock body s = refuse .range s := if_pos h

theorem ownSetClock_set {body : List Byte} {s : State} (h : u24 body 0 ≤ 86399) :
    ownSetClock body s = (passageTests (clockWritten body s),
      ⟨.ok, eClock s ++ (e8 (clockGiven body s).state.code ++ e24 (u24 body 0)) ++
        (passedBy (u24 body 0) s).flatMap fun (e : Fin 4) => e8 (e.val + 1)⟩) := by
  have hgiven : (⟨if flagAt body 3 then .stopped else .running, u24 body 0, s.now⟩ : Clock) =
      clockGiven body s := by simp only [flagAt_eq_true, clockGiven]
  have hclock : (passageTests (clockWritten body s)).clock = clockGiven body s :=
    passageTests_keeps (clockWritten body s) .clock (by decide)
  have hreply : eClock (passageTests (clockWritten body s)) =
      e8 (clockGiven body s).state.code ++ e24 (u24 body 0) := by
    unfold eClock
    rw [hclock, if_neg (clockGiven_set body s)]
    rfl
  have hpassed : (newlyPassed s (passageTests (clockWritten body s))).flatMap e8 =
      (passedBy (u24 body 0) s).flatMap fun (e : Fin 4) => e8 (e.val + 1) := by
    rw [newlyPassed_clockWritten, List.flatMap_map]
  have hwritten : ({ s with clock := ⟨if flagAt body 3 then .stopped else .running, u24 body 0,
      s.now⟩ } : State) = clockWritten body s := by rw [hgiven, clockWritten]
  have hday : ¬ Config.daySeconds ≤ u24 body 0 := Nat.not_le_of_lt (Nat.lt_succ_of_le h)
  unfold ownSetClock
  rw [if_neg hday, hwritten]
  dsimp only
  rw [hreply, hpassed]

/-- SET CLOCK's passage tests, by the editions that the new time passes. -/
theorem passageTests_clockWritten (body : List Byte) (s : State) (e : Fin 4) :
    (passageTests (clockWritten body s)).editions[e] = { s.editions[e] with
      state := if e ∈ passedBy (u24 body 0) s then .passed else s.editions[e].state } := by
  rw [passageTests_edition]
  simp only [mem_passedBy (body := body)]
  rfl

theorem setClockTakesTheTime : Clause.SetClockTakesTheTime := by
  intro tag body s hn ht
  refine ⟨fun h => refuses_of_own (own := ownSetClock) rfl ht hn (ownSetClock_range h),
    fun h => ⟨clockGiven body s, passedBy (u24 body 0) s, rfl, rfl, ?_⟩⟩
  have howner := ownSetClock_set (s := dropHead s) h
  have hkeeps : KeepsBut [.clock, .editions, .notices] (dropHead s)
      (passageTests (clockWritten body (dropHead s))) :=
    (passageTests_keeps _).step (by decide) ((keeps_clock (dropHead s) _).mono (by decide))
  have hclock : (passageTests (clockWritten body (dropHead s))).clock = clockGiven body s :=
    passageTests_keeps (clockWritten body (dropHead s)) .clock (by decide)
  have heditions := passageTests_clockWritten body (dropHead s)
  have hnotices : ∀ e ∈ passedBy (u24 body 0) (dropHead s),
      (passageTests (clockWritten body (dropHead s))).notices.pending[srcEdition e] = true :=
    fun e he => (passageTests_of_due (mem_passedBy.mp he)).2
  generalize passageTests (clockWritten body (dropHead s)) = u at howner hkeeps hclock heditions hnotices
  exact replies_of_own_eq (own := ownSetClock) rfl ht hn howner hkeeps (by decide)
    ⟨hclock, fun e => ⟨heditions e, hnotices e⟩⟩

/-- Settles O26: each passage test acts on its own edition's record, so the tests of the tick and of SET CLOCK are the test of each edition. -/
theorem passagesFollowTickAndSetClock : Obligations.PassagesFollowTickAndSetClock :=
  ⟨passageTestPassesWhatIsDue, clockTickAdvancesAndTests, setClockTakesTheTime⟩

/-! ### START CLOCK and READ CLOCK (R48, R49) -/

section
variable {body : List Byte} {s : State}

theorem ownStartClock_unset (h : s.clock.state = .unset) :
    ownStartClock body s = (s, ⟨.busy, e8 0 ++ e24 0⟩) := by
  simp only [ownStartClock, eClock, h, refuseWith, ClockState.code, if_true]

theorem ownStartClock_stopped (h : s.clock.state = .stopped) : ownStartClock body s =
    ({ s with clock := ⟨.running, s.clock.value, s.now⟩ }, ⟨.ok, e8 2 ++ e24 s.clock.value⟩) := by
  simp only [ownStartClock, eClock, h, ClockState.code, reduceCtorEq, if_false]

theorem ownStartClock_running (h : s.clock.state = .running) :
    ownStartClock body s = (s, ⟨.ok, e8 2 ++ e24 s.clock.value⟩) := by
  simp only [ownStartClock, eClock, h, okWith, ClockState.code, reduceCtorEq, if_false]

end

theorem startClockInEachState : Clause.StartClockInEachState := by
  intro tag body s ht
  have hn : 0 ≤ body.length := Nat.zero_le _
  refine ⟨fun h => ?_, fun h => ?_, fun h => ?_⟩
  · exact reads_of_own (own := ownStartClock) rfl ht hn (ownStartClock_unset h)
  · exact replies_of_own_eq (own := ownStartClock) rfl ht hn (ownStartClock_stopped h)
      (keeps_clock (dropHead s) _) (by decide) rfl
  · exact reads_of_own (own := ownStartClock) rfl ht hn (ownStartClock_running h)

theorem flatMap_editions (s : State) : (List.finRange 4).flatMap (fun e => eEdition s.editions[e]) =
    eEdition s.editions[0] ++ eEdition s.editions[1] ++ eEdition s.editions[2] ++
      eEdition s.editions[3] := by
  have hall : List.finRange 4 = [0, 1, 2, 3] := rfl
  simp only [hall, List.flatMap_cons, List.flatMap_nil, List.append_nil, List.append_assoc]
  rfl

theorem readClockGivesOneMoment : Clause.ReadClockGivesOneMoment := fun tag body s ht =>
  reads_of_answer ownReadClock_onlyReads rfl (Nat.zero_le _) ht (congrArg (Reply.mk .ok) (by
    rw [flatMap_editions]
    simp only [eClock, eEdition, List.append_assoc]))

/-- Settles O27: START CLOCK writes the clock only where it is STOPPED, and READ CLOCK writes nothing. -/
theorem startAndReadClock : Obligations.StartAndReadClock :=
  ⟨startClockInEachState, readClockGivesOneMoment⟩

end Sys2Proof.Machine
end

section
/-! SUPPORT. SET DEADLINE, REARM and CLEAR DEADLINE (R53 to R55). -/

namespace Sys2Proof.Machine

/-! ### The edition a body names, and the reply about it -/

theorem editionIndex_of_val {v : Nat} {e : Fin 4} (h : v = e.val + 1) : editionIndex v = some e := by
  subst h
  exact (if_neg (Nat.succ_ne_zero _)).trans (inRange_of_val (Nat.add_sub_cancel _ _))

theorem editionIndex_range {v : Nat} (h : v = 0 ∨ 4 < v) : editionIndex v = none := by
  rcases h with h | h
  · exact if_pos h
  · exact (if_neg (by omega)).trans (inRange_eq_none (by omega))

/-- A reply about an edition, by the record that stands. -/
theorem editionReply_eq {r : ResultCode} {e : Fin 4} {u : State} {d : Edition}
    (h : u.editions[e] = d) : editionReply r e u = (u, ⟨r, e24 d.time ++ e8 d.state.code⟩) := by
  rw [editionReply, h, eEdition]

/-- A record that is written is the one the reply gives. -/
theorem editionReply_modEdition (r : ResultCode) (e : Fin 4) (f : Edition → Edition) (s : State) :
    editionReply r e (modEdition e f s) = (modEdition e f s,
      ⟨r, e24 (f s.editions[e]).time ++ e8 (f s.editions[e]).state.code⟩) :=
  editionReply_eq (modEdition_self e f s)

section
variable {body : List Byte} {s : State} {e : Fin 4}

/-! ### SET DEADLINE (R53) -/

theorem ownSetDeadline_range (h : u8 body 0 = 0 ∨ 4 < u8 body 0 ∨ 86399 < u24 body 1) :
    ownSetDeadline body s = refuse .range s := by
  unfold ownSetDeadline
  split
  · rfl
  · next hindex =>
    refine if_pos (show 86400 ≤ u24 body 1 from ?_)
    rcases h with hzero | hmany | htime
    · rw [editionIndex_range (.inl hzero)] at hindex; cases hindex
    · rw [editionIndex_range (.inr hmany)] at hindex; cases hindex
    · exact htime

/-- SET DEADLINE of a time of day for an edition there is. -/
theorem ownSetDeadline_edition (he : u8 body 0 = e.val + 1) (ht : u24 body 1 ≤ 86399) :
    ownSetDeadline body s = if s.editions[e].state = .passed then
        editionReply .ok e (modEdition e (fun d => { d with time := u24 body 1 }) s)
      else editionReply .ok e (passageTest e (modEdition e (fun _ => ⟨u24 body 1, .armed⟩) s)) := by
  have hday : ¬ Config.daySeconds ≤ u24 body 1 := Nat.not_le_of_lt (Nat.lt_succ_of_le ht)
  unfold ownSetDeadline
  rw [editionIndex_of_val he]
  exact if_neg hday

theorem ownSetDeadline_passed (he : u8 body 0 = e.val + 1) (ht : u24 body 1 ≤ 86399)
    (h : s.editions[e].state = .passed) :
    ownSetDeadline body s = (modEdition e (fun _ => ⟨u24 body 1, .passed⟩) s,
      ⟨.ok, e24 (u24 body 1) ++ e8 2⟩) := by
  have hrecord : modEdition e (fun d => { d with time := u24 body 1 }) s =
      modEdition e (fun _ => ⟨u24 body 1, .passed⟩) s := by rw [modEdition, modEdition, h]
  rw [ownSetDeadline_edition he ht, if_pos h, hrecord, editionReply_modEdition]
  rfl

theorem ownSetDeadline_armed (he : u8 body 0 = e.val + 1) (ht : u24 body 1 ≤ 86399)
    (h : s.editions[e].state ≠ .passed) (hahead : s.clock.state = .unset ∨ s.clock.value < u24 body 1) :
    ownSetDeadline body s = (modEdition e (fun _ => ⟨u24 body 1, .armed⟩) s,
      ⟨.ok, e24 (u24 body 1) ++ e8 1⟩) := by
  have hnotdue : ¬ passes (modEdition e (fun _ => ⟨u24 body 1, .armed⟩) s) e = true := by
    rw [passes_eq, modEdition_self, editionDue_iff]
    rintro ⟨hset, -, htime⟩
    exact hahead.elim hset (Nat.not_lt_of_le htime)
  rw [ownSetDeadline_edition he ht, if_neg h, passageTest, if_neg hnotdue, editionReply_modEdition]
  rfl

theorem ownSetDeadline_due (he : u8 body 0 = e.val + 1) (ht : u24 body 1 ≤ 86399)
    (h : s.editions[e].state ≠ .passed) (hset : s.clock.state ≠ .unset)
    (htime : u24 body 1 ≤ s.clock.value) :
    ownSetDeadline body s =
      (raiseSource (srcEdition e) (modEdition e (fun _ => ⟨u24 body 1, .passed⟩) s),
        ⟨.ok, e24 (u24 body 1) ++ e8 2⟩) := by
  have hdue : passes (modEdition e (fun _ => ⟨u24 body 1, .armed⟩) s) e = true := by
    rw [passes_eq, modEdition_self, editionDue_iff]
    exact ⟨hset, rfl, htime⟩
  have htwice : modEdition e (fun d => { d with state := .passed })
      (modEdition e (fun _ => ⟨u24 body 1, .armed⟩) s) =
        modEdition e (fun _ => ⟨u24 body 1, .passed⟩) s := by
    simp [modEdition]
  rw [ownSetDeadline_edition he ht, if_neg h, passageTest, if_pos hdue, htwice]
  have hrecord : (raiseSource (srcEdition e)
      (modEdition e (fun _ => ⟨u24 body 1, .passed⟩) s)).editions[e] = ⟨u24 body 1, .passed⟩ :=
    modEdition_self e (fun _ => ⟨u24 body 1, .passed⟩) s
  rw [editionReply_eq hrecord]
  rfl

/-! ### REARM (R54) -/

theorem ownRearm_range (h : u8 body 0 = 0 ∨ 4 < u8 body 0) : ownRearm body s = refuse .range s := by
  rw [ownRearm, editionIndex_range h]

theorem ownRearm_unarmed (he : u8 body 0 = e.val + 1) (h : s.editions[e].state = .unarmed) :
    ownRearm body s = (s, ⟨.busy, e24 s.editions[e].time ++ e8 0⟩) := by
  simp only [ownRearm, editionIndex_of_val he, h, editionReply_eq rfl, EditionState.code]

theorem ownRearm_armed (he : u8 body 0 = e.val + 1) (h : s.editions[e].state = .armed) :
    ownRearm body s = (s, ⟨.ok, e24 s.editions[e].time ++ e8 1⟩) := by
  simp only [ownRearm, editionIndex_of_val he, h, editionReply_eq rfl, EditionState.code]

theorem ownRearm_ahead (he : u8 body 0 = e.val + 1) (h : s.editions[e].state = .passed)
    (htime : s.clock.value < s.editions[e].time) :
    ownRearm body s = (modEdition e (fun d => { d with state := .armed }) s,
      ⟨.ok, e24 s.editions[e].time ++ e8 1⟩) := by
  have hahead : deadlineAhead s e = true := by simp [deadlineAhead, htime, -Fin.getElem_fin]
  simp only [ownRearm, editionIndex_of_val he, h, hahead, if_true, editionReply_modEdition,
    EditionState.code]

theorem ownRearm_due (he : u8 body 0 = e.val + 1) (h : s.editions[e].state = .passed)
    (hset : s.clock.state ≠ .unset) (htime : s.editions[e].time ≤ s.clock.value) :
    ownRearm body s = (s, ⟨.ok, e24 s.editions[e].time ++ e8 2⟩) := by
  have hahead : deadlineAhead s e = false := by simp [deadlineAhead, hset, htime, -Fin.getElem_fin]
  simp only [ownRearm, editionIndex_of_val he, h, hahead, Bool.false_eq_true, if_false,
    editionReply_eq rfl, EditionState.code]

/-! ### CLEAR DEADLINE (R55) -/

theorem ownClearDeadline_range (h : u8 body 0 = 0 ∨ 4 < u8 body 0) :
    ownClearDeadline body s = refuse .range s := by
  rw [ownClearDeadline, editionIndex_range h]

theorem ownClearDeadline_edition (he : u8 body 0 = e.val + 1) :
    ownClearDeadline body s = (modEdition e (fun d => { d with state := .unarmed }) s,
      ⟨.ok, e24 s.editions[e].time ++ e8 0⟩) := by
  simp only [ownClearDeadline, editionIndex_of_val he, editionReply_modEdition, EditionState.code]

/-- A story shows LATE exactly where its basket's edition is PASSED (R22). -/
theorem storyLate_of_edition {st : Story} (he : s.baskets[st.basket].edition.val = e.val + 1) :
    storyLate s st = decide (s.editions[e].state = .passed) := by
  have hedition : editionOf s s.baskets[st.basket].edition = some s.editions[e] := by
    unfold editionOf
    rw [dif_neg (he ▸ Nat.succ_ne_zero _)]
    simp only [he, Nat.add_sub_cancel]
    rfl
  rw [storyLate, basketLate, hedition]

theorem storyLate_clearDeadline {st : Story}
    (he : s.baskets[st.basket].edition.val = e.val + 1) :
    storyLate (modEdition e (fun d => { d with state := .unarmed }) s) st = false := by
  rw [storyLate_of_edition (s := modEdition e _ s) he, modEdition_self]
  rfl

end

/-! ### The obligations -/

/-- Settles O28: the three cases of an edition there is are the state PASSED, and the new time ahead of the clock or not. -/
theorem setDeadlineArmsOrPasses : Obligations.SetDeadlineArmsOrPasses := by
  intro tag body s hn ht
  refine ⟨fun h => refuses_of_own (own := ownSetDeadline) rfl ht hn (ownSetDeadline_range h),
    fun e he htime => ⟨fun hpassed => ?_, fun hstate hahead => ?_, fun hstate hset hdue => ?_⟩⟩
  · exact replies_of_own_eq (own := ownSetDeadline) rfl ht hn
      (ownSetDeadline_passed (s := dropHead s) he htime hpassed) (modEdition_keeps _ _ _) (by decide) rfl
  · exact replies_of_own_eq (own := ownSetDeadline) rfl ht hn
      (ownSetDeadline_armed (s := dropHead s) he htime hstate hahead) (modEdition_keeps _ _ _)
      (by decide) rfl
  · have hkeeps : KeepsBut [.editions, .notices] (dropHead s) (raiseSource (srcEdition e)
        (modEdition e (fun _ => ⟨u24 body 1, .passed⟩) (dropHead s))) :=
      (raiseSource_keeps _ _).step (by decide) ((modEdition_keeps _ _ _).mono (by decide))
    exact replies_of_own_eq (own := ownSetDeadline) rfl ht hn
      (ownSetDeadline_due (s := dropHead s) he htime hstate hset hdue) hkeeps (by decide) ⟨rfl, rfl⟩

theorem rearmInEachState : Clause.RearmInEachState := by
  intro tag body s hn ht
  refine ⟨fun h => refuses_of_own (own := ownRearm) rfl ht hn (ownRearm_range h),
    fun e he => ⟨fun h => ?_, fun h => ?_, fun h _ htime => ?_, fun h hset htime => ?_⟩⟩
  · exact reads_of_own (own := ownRearm) rfl ht hn (ownRearm_unarmed (s := dropHead s) he h)
  · exact reads_of_own (own := ownRearm) rfl ht hn (ownRearm_armed (s := dropHead s) he h)
  · exact replies_of_own_eq (own := ownRearm) rfl ht hn
      (ownRearm_ahead (s := dropHead s) he h htime) (modEdition_keeps _ _ _) (by decide) rfl
  · exact reads_of_own (own := ownRearm) rfl ht hn (ownRearm_due (s := dropHead s) he h hset htime)

theorem clearDeadlineUnarms : Clause.ClearDeadlineUnarms := by
  intro tag body s hn ht
  refine ⟨fun h => refuses_of_own (own := ownClearDeadline) rfl ht hn (ownClearDeadline_range h),
    fun e he => ?_⟩
  exact replies_of_own_eq (own := ownClearDeadline) rfl ht hn
    (ownClearDeadline_edition (s := dropHead s) he) (modEdition_keeps _ _ _) (by decide)
    ⟨rfl, fun st hst => storyLate_clearDeadline (s := dropHead s) (st := st) hst⟩

/-- Settles O29: REARM arms a PASSED edition only where its time is ahead of the clock; an edition that CLEAR DEADLINE leaves is not PASSED, so none of its stories is late. -/
theorem rearmAndClearDeadline : Obligations.RearmAndClearDeadline :=
  ⟨rearmInEachState, clearDeadlineUnarms⟩

end Sys2Proof.Machine
end

section
/-! SUPPORT. The emitter, one step at a time: what it places next, what every step keeps, and that it stops within its fuel (R72, R88 to R91). -/

namespace Sys2Proof.Machine

/-! ### What the emitter does next (R89 to R91) -/

/-- The emitter waits for a request of the transmit FIFO (R89). -/
def Screen.stopped (sc : Screen) : Screen := { sc with waiting := true }

/-- One step of the emitter: a bell, the clear screen code, the next code of the row in hand, a row taken in hand, or the position code to the rest position (R89 to R91). -/
inductive EmitStep : Screen → List Byte → Screen → List Byte → Prop
  | bell {sc tx} : sc.bell = true → tx.length + 1 ≤ 32 →
      EmitStep sc tx { sc with bell := false } (tx ++ [0x07#8])
  | clear {sc tx} : sc.sent = none → sc.bell = false → tx.length + 1 ≤ 32 →
      EmitStep sc tx { sc with sent := some Sent.cleared } (tx ++ [0x13#8])
  | drop {sc tx} {r : Nat} : sc.hand = some (r, []) → EmitStep sc tx { sc with hand := none } tx
  | code {sc tx} {r : Nat} {code : List Byte} {codes : List (List Byte)} :
      sc.hand = some (r, code :: codes) → tx.length + code.length ≤ 32 →
      EmitStep sc tx { sc with hand := if codes = [] then none else some (r, codes) } (tx ++ code)
  | row {sc tx} {im : Sent} {r : Nat} : sc.sent = some im → sc.hand = none → nextRow sc = some r →
      EmitStep sc tx (takeRow sc im r) tx
  | cursor {sc tx} {im : Sent} : sc.sent = some im → im.cursor ≠ sc.composed.rest →
      tx.length + 3 ≤ 32 →
      EmitStep sc tx { sc with sent := some { im with cursor := sc.composed.rest } }
        (tx ++ positionCode sc.composed.rest)

/-- Nothing is left to send: no bell, no row in hand, no marked row, and the cursor at the rest position (R89). -/
def Screen.AllSent (sc : Screen) : Prop :=
  ∃ im, sc.sent = some im ∧ sc.bell = false ∧ sc.hand = none ∧ sc.marks = [] ∧
    im.cursor = sc.composed.rest

theorem nextRow_eq_none {sc : Screen} (h : nextRow sc = none) : sc.marks = [] := by
  unfold nextRow at h
  split at h
  · cases h
  · exact List.head?_eq_none_iff.mp h

theorem nextRow_of_empty {sc : Screen} (h : sc.marks = []) : nextRow sc = none := by
  unfold nextRow
  rw [h]
  rfl

theorem mem_of_nextRow {sc : Screen} {r : Nat} (h : nextRow sc = some r) : r ∈ sc.marks := by
  unfold nextRow at h
  split at h
  · next hfind => cases h; exact List.mem_of_find?_eq_some hfind
  · exact List.mem_of_mem_head? h

/-- With fuel left the emitter rests, because it waits or all is sent, or it comes to wait, or it makes a step. -/
theorem emit_succ (n : Nat) (sc : Screen) (tx : List Byte) :
    (emit (n + 1) sc tx = (sc, tx) ∧ (sc.waiting = true ∨ sc.AllSent)) ∨
      emit (n + 1) sc tx = (sc.stopped, tx) ∨
      ∃ sc' tx', EmitStep sc tx sc' tx' ∧ emit (n + 1) sc tx = emit n sc' tx' := by
  rw [emit]
  split
  · next hw => exact .inl ⟨rfl, .inl hw⟩
  dsimp only
  split
  · next hsent =>
    split
    · next hbell =>
      split
      · next hfit => exact .inr (.inr ⟨_, _, .bell hbell (of_decide_eq_true hfit), rfl⟩)
      · exact .inr (.inl rfl)
    · next hbell =>
      split
      · next hfit =>
        exact .inr (.inr ⟨_, _, .clear hsent (Bool.eq_false_iff.mpr hbell) (of_decide_eq_true hfit),
          rfl⟩)
      · exact .inr (.inl rfl)
  next im hsent =>
  split
  · next hhand => exact .inr (.inr ⟨_, _, .drop hhand, rfl⟩)
  · next r code codes hhand =>
    split
    · next hfit => exact .inr (.inr ⟨_, _, .code hhand (of_decide_eq_true hfit), rfl⟩)
    · exact .inr (.inl rfl)
  next hhand =>
  split
  · next hbell =>
    split
    · next hfit => exact .inr (.inr ⟨_, _, .bell hbell (of_decide_eq_true hfit), rfl⟩)
    · exact .inr (.inl rfl)
  next hbell =>
  split
  · next r hrow =>
    split
    · exact .inr (.inr ⟨_, _, .row hsent hhand hrow, rfl⟩)
    · exact .inr (.inl rfl)
  next hrow =>
  split
  · next hcursor =>
    exact .inl ⟨rfl, .inr ⟨im, hsent, Bool.eq_false_iff.mpr hbell, hhand, nextRow_eq_none hrow,
      hcursor⟩⟩
  next hcursor =>
  split
  · next hfit => exact .inr (.inr ⟨_, _, .cursor hsent hcursor (of_decide_eq_true hfit), rfl⟩)
  · exact .inr (.inl rfl)

/-- What every step keeps and what waiting does not touch holds of all that the emitter leaves. -/
theorem emit_induct {P : Screen → List Byte → Prop}
    (hstep : ∀ {sc tx sc' tx'}, EmitStep sc tx sc' tx' → P sc tx → P sc' tx')
    (hstop : ∀ {sc tx}, P sc tx → P sc.stopped tx) (n : Nat) {sc : Screen} {tx : List Byte}
    (h : P sc tx) : P (emit n sc tx).1 (emit n sc tx).2 := by
  induction n generalizing sc tx with
  | zero => exact h
  | succ n ih =>
    obtain ⟨he, -⟩ | he | ⟨sc', tx', hs, he⟩ := emit_succ n sc tx
    · rw [he]; exact h
    · rw [he]; exact hstop h
    · rw [he]; exact ih (hstep hs h)

/-! ### The transmit FIFO (R72, R89) -/

theorem EmitStep.length_le {sc sc' : Screen} {tx tx' : List Byte} (h : EmitStep sc tx sc' tx')
    (hl : tx.length ≤ 32) : tx'.length ≤ 32 := by
  cases h with
  | bell _ hfit => rwa [List.length_append]
  | clear _ _ hfit => rwa [List.length_append]
  | drop _ => exact hl
  | code _ hfit => rwa [List.length_append]
  | row _ _ _ => exact hl
  | cursor _ _ hfit => rwa [List.length_append]

theorem EmitStep.isPrefix {sc sc' : Screen} {tx tx' : List Byte} (h : EmitStep sc tx sc' tx') :
    tx <+: tx' := by
  cases h with
  | drop _ => exact List.prefix_refl _
  | row _ _ _ => exact List.prefix_refl _
  | bell _ _ => exact List.prefix_append _ _
  | clear _ _ _ => exact List.prefix_append _ _
  | code _ _ => exact List.prefix_append _ _
  | cursor _ _ _ => exact List.prefix_append _ _

/-- The emitter never overfills the transmit FIFO (R72, R89). -/
theorem emit_length_le (n : Nat) (sc : Screen) {tx : List Byte} (h : tx.length ≤ 32) :
    (emit n sc tx).2.length ≤ 32 :=
  emit_induct (P := fun _ tx => tx.length ≤ 32) EmitStep.length_le id n h

/-- The emitter only adds to the transmit FIFO (R72, R89). -/
theorem emit_prefix (n : Nat) (sc : Screen) (tx : List Byte) : tx <+: (emit n sc tx).2 :=
  emit_induct (P := fun _ tx' => tx <+: tx') (fun h k => k.trans h.isPrefix) id n
    (List.prefix_refl tx)

/-! ### The row-change set and the row in hand (R88, R89) -/

/-- The codes of cells are codes of attributes and characters, so of 1 or 2 bytes (R73). -/
theorem length_cellCodes (a : Attr) (cells : List Cell) :
    ∀ code ∈ (cellCodes a cells).1, 1 ≤ code.length ∧ code.length ≤ 3 := by
  induction cells generalizing a with
  | nil => simp [cellCodes]
  | cons c cs ih =>
    intro code hcode
    rw [cellCodes, List.mem_append] at hcode
    rcases hcode with hcode | hcode
    · split at hcode
      · simp_all
      · simp only [List.mem_cons, List.not_mem_nil, or_false] at hcode
        rcases hcode with rfl | rfl <;> simp [attrCode]
    · exact ih _ code hcode

theorem length_rowCodes (row : Nat) (shown : List Cell) (f l : Nat) (a : Attr) :
    ∀ code ∈ (rowCodes row shown f l a).1, 1 ≤ code.length ∧ code.length ≤ 3 := by
  intro code hcode
  simp only [rowCodes, List.cons_append, List.mem_cons, List.mem_append] at hcode
  rcases hcode with rfl | hcode | hcode
  · simp [positionCode]
  · exact length_cellCodes _ _ code hcode
  · split at hcode
    · cases List.mem_singleton.mp hcode
      simp [clearRowCode]
    · cases hcode

theorem takeRow_marks (sc : Screen) (im : Sent) (r : Nat) :
    (takeRow sc im r).marks = sc.marks.erase r := by
  unfold takeRow
  dsimp only
  split <;> rfl

/-- Taking a row keeps the set in order, and what comes in hand has codes to place (R89). -/
theorem takeRow_inOrder {sc : Screen} (im : Sent) (r : Nat) (h : sc.InOrder)
    (hhand : sc.hand = none) : (takeRow sc im r).InOrder := by
  obtain ⟨hmarks, -⟩ := h
  refine ⟨takeRow_marks sc im r ▸ (List.erase_sublist.trans hmarks), fun x codes hx => ?_⟩
  unfold takeRow at hx
  dsimp only at hx
  split at hx
  · rw [hhand] at hx; cases hx
  · cases hx
    exact ⟨List.cons_ne_nil _ _, length_rowCodes _ _ _ _ _⟩

theorem EmitStep.inOrder {sc sc' : Screen} {tx tx' : List Byte} (h : EmitStep sc tx sc' tx')
    (ho : sc.InOrder) : sc'.InOrder := by
  cases h with
  | bell _ _ => exact ho
  | clear _ _ _ => exact ho
  | drop _ => exact ⟨ho.1, fun _ _ hx => nomatch hx⟩
  | code hhand _ =>
    obtain ⟨-, hcodes⟩ := ho.2 _ _ hhand
    refine ⟨ho.1, fun r' codes' hx => ?_⟩
    dsimp only at hx
    split at hx
    · cases hx
    · next hne =>
      cases hx
      exact ⟨hne, fun code hc => hcodes code (List.mem_cons_of_mem _ hc)⟩
  | row _ hhand _ => exact takeRow_inOrder _ _ ho hhand
  | cursor _ _ _ => exact ho

theorem emit_inOrder (n : Nat) {sc : Screen} (tx : List Byte) (h : sc.InOrder) :
    (emit n sc tx).1.InOrder :=
  emit_induct (P := fun sc _ => sc.InOrder) EmitStep.inOrder id n (tx := tx) h

theorem recompose_inOrder {sc : Screen} (im : Image) (h : sc.InOrder) :
    (sc.recompose im).InOrder := ⟨List.filter_sublist, h.2⟩

/-! ### The emitter stops (R72, R89) -/

/-- The bytes free in the FIFO and the rows still marked: each step takes of one or the other. -/
def workLeft (sc : Screen) (tx : List Byte) : Nat := (32 - tx.length) + sc.marks.length

theorem EmitStep.workLeft_lt {sc sc' : Screen} {tx tx' : List Byte} (h : EmitStep sc tx sc' tx')
    (ho : sc.InOrder) : workLeft sc' tx' < workLeft sc tx := by
  cases h with
  | bell _ hfit => simp only [workLeft, List.length_append, List.length_singleton]; omega
  | clear _ _ hfit => simp only [workLeft, List.length_append, List.length_singleton]; omega
  | drop hhand => exact absurd rfl (ho.2 _ _ hhand).1
  | code hhand hfit =>
    obtain ⟨hpos, -⟩ := (ho.2 _ _ hhand).2 _ List.mem_cons_self
    simp only [workLeft, List.length_append]
    omega
  | row _ _ hrow =>
    have hmem := mem_of_nextRow hrow
    have hpos := List.length_pos_of_mem hmem
    rw [workLeft, workLeft, takeRow_marks, List.length_erase_of_mem hmem]
    omega
  | cursor _ _ hfit =>
    simp only [workLeft, List.length_append, positionCode, List.length_cons, List.length_nil]
    omega

/-- With more fuel than work left the emitter goes on until it waits or all is sent. -/
theorem emit_rests (n : Nat) {sc : Screen} {tx : List Byte} (ho : sc.InOrder)
    (hn : workLeft sc tx < n) :
    (emit n sc tx).1.waiting = true ∨ (emit n sc tx).1.AllSent := by
  induction n generalizing sc tx with
  | zero => exact absurd hn (Nat.not_lt_zero _)
  | succ n ih =>
    obtain ⟨he, hrest⟩ | he | ⟨sc', tx', hs, he⟩ := emit_succ n sc tx
    · rw [he]; exact hrest
    · rw [he]; exact .inl rfl
    · rw [he]
      have hlt := hs.workLeft_lt ho
      exact ih (hs.inOrder ho) (by omega)

theorem emitterGoesOnWhileThereIsRoom : Clause.EmitterGoesOnWhileThereIsRoom := by
  intro sc tx _ ho
  have hmarks : sc.marks.length ≤ 24 := ho.1.length_le
  exact emit_rests emitFuel ho (by unfold workLeft emitFuel; omega)

/-! ### Which step it is (R89 to R91) -/

section
variable {n : Nat} {sc : Screen} {tx : List Byte} (hw : sc.waiting = false)
include hw

theorem emit_bell_unknown (hsent : sc.sent = none) (hbell : sc.bell = true)
    (hfit : tx.length < 32) :
    emit (n + 1) sc tx = emit n { sc with bell := false } (tx ++ [0x07#8]) := by
  have hroom : tx.length + bellCode.length ≤ Config.txFifo := hfit
  simp only [emit, hw, hsent, hbell, Bool.false_eq_true, if_false, if_true, decide_eq_true hroom]
  rfl

theorem emit_clear (hsent : sc.sent = none) (hbell : sc.bell = false) (hfit : tx.length < 32) :
    emit (n + 1) sc tx = emit n { sc with sent := some Sent.cleared } (tx ++ [0x13#8]) := by
  have hroom : tx.length + clearScreenCode.length ≤ Config.txFifo := hfit
  simp only [emit, hw, hsent, hbell, Bool.false_eq_true, if_false, if_true, decide_eq_true hroom]
  rfl

section
variable {im : Sent} (hsent : sc.sent = some im)
include hsent

theorem emit_code {r : Nat} {code : List Byte} {codes : List (List Byte)}
    (hhand : sc.hand = some (r, code :: codes)) (hfit : tx.length + code.length ≤ 32) :
    emit (n + 1) sc tx =
      emit n { sc with hand := if codes = [] then none else some (r, codes) } (tx ++ code) := by
  have hroom : tx.length + code.length ≤ Config.txFifo := hfit
  simp only [emit, hw, hsent, hhand, Bool.false_eq_true, if_false, if_true, decide_eq_true hroom]

theorem emit_code_waits {r : Nat} {code : List Byte} {codes : List (List Byte)}
    (hhand : sc.hand = some (r, code :: codes)) (hfull : 32 < tx.length + code.length) :
    emit (n + 1) sc tx = (sc.stopped, tx) := by
  have hroom : ¬ tx.length + code.length ≤ Config.txFifo := Nat.not_le.mpr hfull
  simp only [emit, hw, hsent, hhand, Bool.false_eq_true, if_false, decide_eq_false hroom,
    Screen.stopped]

section
variable (hhand : sc.hand = none)
include hhand

theorem emit_bell (hbell : sc.bell = true) (hfit : tx.length < 32) :
    emit (n + 1) sc tx = emit n { sc with bell := false } (tx ++ [0x07#8]) := by
  have hroom : tx.length + bellCode.length ≤ Config.txFifo := hfit
  simp only [emit, hw, hsent, hhand, hbell, Bool.false_eq_true, if_false, if_true,
    decide_eq_true hroom]
  rfl

variable (hbell : sc.bell = false)
include hbell

theorem emit_row {r : Nat} (hrow : nextRow sc = some r) (hfit : tx.length < 32) :
    emit (n + 1) sc tx = emit n (takeRow sc im r) tx := by
  have hroom : tx.length + [(0 : Byte)].length ≤ Config.txFifo := hfit
  simp only [emit, hw, hsent, hhand, hbell, hrow, Bool.false_eq_true, if_false, if_true,
    decide_eq_true hroom]

variable (hmarks : sc.marks = [])
include hmarks

theorem emit_allSent (hcursor : im.cursor = sc.composed.rest) : emit (n + 1) sc tx = (sc, tx) := by
  simp only [emit, hw, hsent, hhand, hbell, nextRow_of_empty hmarks, hcursor, Bool.false_eq_true,
    if_false, if_true]

theorem emit_cursor (hcursor : im.cursor ≠ sc.composed.rest) (hfit : tx.length + 3 ≤ 32) :
    emit (n + 1) sc tx = emit n { sc with sent := some { im with cursor := sc.composed.rest } }
      (tx ++ positionCode sc.composed.rest) := by
  have hroom : tx.length + (positionCode sc.composed.rest).length ≤ Config.txFifo := hfit
  simp only [emit, hw, hsent, hhand, hbell, nextRow_of_empty hmarks, hcursor, Bool.false_eq_true,
    if_false, if_true, decide_eq_true hroom]

theorem emit_cursor_waits (hcursor : im.cursor ≠ sc.composed.rest) (hfull : 32 < tx.length + 3) :
    emit (n + 1) sc tx = (sc.stopped, tx) := by
  have hroom : ¬ tx.length + (positionCode sc.composed.rest).length ≤ Config.txFifo :=
    Nat.not_le.mpr hfull
  simp only [emit, hw, hsent, hhand, hbell, nextRow_of_empty hmarks, hcursor, Bool.false_eq_true,
    if_false, decide_eq_false hroom, Screen.stopped]

end

end

end

theorem emit_waits {sc : Screen} (h : sc.waiting = true) (n : Nat) (tx : List Byte) :
    emit n sc tx = (sc, tx) := by
  cases n with
  | zero => rfl
  | succ n => simp only [emit, h, if_true]

/-- The lowest marked row above the last one taken, or, with none above it, the lowest (R89). -/
theorem nextRow_eq_some {sc : Screen} {r : Nat} (hmem : r ∈ sc.marks)
    (hsorted : sc.marks.Sublist allRows)
    (h : (sc.last.getD 0 < r ∧ ∀ x ∈ sc.marks, sc.last.getD 0 < x → r ≤ x) ∨
      ∀ x ∈ sc.marks, x ≤ sc.last.getD 0 ∧ r ≤ x) : nextRow sc = some r := by
  have hrising : sc.marks.Pairwise (· < ·) := (List.pairwise_lt_range' (s := 1) (n := 24)).sublist hsorted
  unfold nextRow
  rcases h with ⟨habove, hleast⟩ | hlow
  · obtain ⟨before, after, hparts⟩ := List.append_of_mem hmem
    have hfind : sc.marks.find? (fun r => decide (sc.last.getD 0 < r)) = some r := by
      rw [hparts] at hrising
      rw [List.find?_eq_some_iff_append]
      refine ⟨decide_eq_true habove, before, after, hparts, fun x hx => ?_⟩
      have hlt : x < r := (List.pairwise_append.mp hrising).2.2 x hx r List.mem_cons_self
      have hnot : ¬ sc.last.getD 0 < x := fun hlast =>
        absurd (hleast x (hparts ▸ List.mem_append_left _ hx) hlast) (Nat.not_le.mpr hlt)
      rw [decide_eq_false hnot]
      rfl
    rw [hfind]
  · have hfind : sc.marks.find? (fun r => decide (sc.last.getD 0 < r)) = none :=
      List.find?_eq_none.mpr fun x hx =>
        fun hd => absurd (of_decide_eq_true hd) (Nat.not_lt.mpr (hlow x hx).1)
    rw [hfind]
    cases hmarks : sc.marks with
    | nil => rw [hmarks] at hmem; cases hmem
    | cons y ys =>
      rw [hmarks] at hmem hrising hlow
      have hle := (hlow y List.mem_cons_self).2
      rcases List.mem_cons.mp hmem with rfl | hr
      · rfl
      · exact absurd ((List.pairwise_cons.mp hrising).1 r hr) (Nat.not_lt.mpr hle)

theorem emitterChoosesWhatComesNext : Clause.EmitterChoosesWhatComesNext := by
  intro n sc tx hw _
  refine ⟨fun hsent hfit => ⟨fun hbell => emit_bell_unknown hw hsent hbell hfit,
    fun hbell => emit_clear hw hsent hbell hfit⟩, fun im hsent =>
    ⟨fun r code codes hhand => ⟨emit_code hw hsent hhand, emit_code_waits hw hsent hhand⟩,
    fun hhand hbell hfit => emit_bell hw hsent hhand hbell hfit,
    fun r hmem hhand hbell hsorted hfit hnext =>
      emit_row hw hsent hhand hbell (nextRow_eq_some hmem hsorted hnext) hfit,
    fun hhand hbell hmarks hcursor => ⟨fun hfit => ?_,
      emit_cursor_waits hw hsent hhand hbell hmarks hcursor⟩⟩⟩
  have hcode : positionCode sc.composed.rest = [0x10#8,
      BitVec.ofNat 8 (0x1F + sc.composed.rest.1), BitVec.ofNat 8 (0x1F + sc.composed.rest.2)] := by
    have hoffset : ∀ k, 0x20 + k - 1 = 0x1F + k := fun k => by omega
    rw [positionCode, hoffset, hoffset]
  rw [emit_cursor hw hsent hhand hbell hmarks hcursor hfit, hcode]
  exact emit_allSent (sc := { sc with sent := some { im with cursor := sc.composed.rest } })
    hw rfl hhand hbell hmarks rfl

theorem emitterPlacesWholeCodesInOrder : Clause.EmitterPlacesWholeCodesInOrder := by
  intro n sc tx hl
  refine ⟨emit_length_le n sc hl, emit_prefix n sc tx, fun im hsent hhand hbell hmarks hcursor => ?_,
    fun hsent hbell hw htx hn => ?_, fun hsent hbell hw htx hn => ?_⟩
  · cases n with
    | zero => rfl
    | succ n =>
      cases hw : sc.waiting with
      | true => exact emit_waits hw _ tx
      | false => exact emit_allSent hw hsent hhand hbell hmarks hcursor
  · obtain ⟨m, rfl⟩ := Nat.exists_eq_add_of_le' hn
    rw [htx, emit_bell_unknown hw hsent hbell (by decide)]
    exact emit_prefix _ _ _
  · obtain ⟨m, rfl⟩ := Nat.exists_eq_add_of_le' hn
    rw [htx, emit_clear hw hsent hbell (by decide)]
    exact emit_prefix _ _ _

end Sys2Proof.Machine
end

section
/-! SUPPORT. The frames that a terminal line sends and the byte that leaves its transmit FIFO (R58, R72). -/

namespace Sys2Proof.Machine

/-! ### The end of an event, terminal by terminal (R72, R89) -/

theorem settle_screen (s : State) (t : Fin 32) :
    (settle s).screens[t] = (refreshTerminal (grantEngine (moveAll s)) t).1 := by
  rw [settle_screens]
  exact Vector.getElem_ofFn _

theorem settle_line (s : State) (t : Fin 32) :
    (settle s).lines[t] = (refreshTerminal (grantEngine (moveAll s)) t).2 := by
  rw [settle_lines]
  exact Vector.getElem_ofFn _

/-- What a line at rest begins to send: the byte at the head of its FIFO (R58, R72). -/
def LineTx.begun (f : LineFormat) (tx : List Byte) : LineTx → LineTx
  | .busy b inFifo => .busy b inFifo
  | .rest => match tx with
    | [] => .rest
    | b :: _ => .busy (sendFrame f b) true

section
variable (s : State) (t : Fin 32)

/-- What the emitter leaves of a terminal's screen and transmit FIFO at the end of an event. -/
def emitted : Screen × List Byte :=
  emit emitFuel (s.screens[t].recompose (shownImage s t)) s.lines[t].tx

theorem refreshTerminal_attached (h : s.lines[t].attached = true) :
    refreshTerminal s t = ((emitted s t).1, { s.lines[t] with
      tx := (emitted s t).2
      sending := s.lines[t].sending.begun s.lines[t].format (emitted s t).2 }) := by
  unfold refreshTerminal
  dsimp only
  rw [if_pos h]
  cases s.lines[t].sending <;> rfl

theorem refreshTerminal_detached (h : s.lines[t].attached = false) :
    refreshTerminal s t = (s.screens[t], s.lines[t]) := by
  unfold refreshTerminal
  dsimp only
  rw [if_neg (Bool.eq_false_iff.mp h)]

theorem settle_sending (h : s.lines[t].attached = true) :
    (settle s).lines[t].sending =
      s.lines[t].sending.begun s.lines[t].format (settle s).lines[t].tx := by
  have hlines := (grant_move_screens_lines s).2
  rw [settle_line, refreshTerminal_attached _ t (hlines ▸ h), hlines]

end

/-! ### The frame of a byte (R58) -/

theorem Parity.bitFor_eq_none_iff (p : Parity) (c : Byte) :
    p.bitFor c = Option.none ↔ p = .none := by
  cases p with
  | none => exact iff_of_true rfl rfl
  | even => exact iff_of_false nofun nofun
  | odd => exact iff_of_false nofun nofun

/-- The parity bit generated is the one of the two with which the count of set bits fits (R58). -/
theorem Parity.fits_bitFor {p : Parity} {c : Byte} {x : Bool} (h : p.bitFor c = some x) :
    p.fits (onesOf c + if x then 1 else 0) = true ∧
      p.fits (onesOf c + if !x then 1 else 0) = false := by
  cases p with
  | none => cases h
  | even =>
    cases h
    by_cases hones : onesOf c % 2 = 0 <;> simp [Parity.fits, hones] <;> omega
  | odd =>
    cases h
    by_cases hones : onesOf c % 2 = 1 <;> simp [Parity.fits, hones] <;> omega

theorem LineFormat.code_toNat (f : LineFormat) (b : Byte) :
    (f.code b).toNat = if f.dataBits = 7 then b.toNat % 128 else b.toNat := by
  unfold LineFormat.code
  split
  · exact (BitVec.toNat_and b 0x7F#8).trans (Nat.and_two_pow_sub_one_eq_mod b.toNat 7)
  · rfl

theorem LineFormat.code_of_lt (f : LineFormat) {b : Byte} (h : b.toNat < 128) : f.code b = b := by
  refine BitVec.eq_of_toNat_eq ?_
  rw [f.code_toNat, Nat.mod_eq_of_lt h, ite_self]

theorem LineFormat.code_code (f : LineFormat) (b : Byte) : f.code (f.code b) = f.code b := by
  refine BitVec.eq_of_toNat_eq ?_
  rw [f.code_toNat (f.code b), f.code_toNat b]
  split <;> omega

theorem sentFramesHaveTheLinesFormat : Clause.SentFramesHaveTheLinesFormat := by
  refine ⟨fun t s ha => ⟨fun hrest => ?_, fun f inFifo hbusy => ?_⟩, fun f b =>
    ⟨rfl, rfl, f.parity.bitFor_eq_none_iff _, fun p stop hp => ?_, fun h => if_neg h, fun h => ?_,
      f.code_of_lt⟩⟩
  · rw [settle_sending s t ha, hrest]
    rfl
  · rw [settle_sending s t ha, hbusy]
    rfl
  · simp only [parityRight, frameCode, sendFrame, f.code_code]
    exact f.parity.fits_bitFor hp
  · exact (f.code_toNat b).trans (if_pos h)

/-! ### The byte that has been sent (R72) -/

theorem Line.byteSent_busy {l : Line} {b : TxFrame} {inFifo : Bool} (h : l.sending = .busy b inFifo) :
    l.byteSent = { l with sending := .rest, tx := if inFifo then l.tx.tail else l.tx } := by
  unfold Line.byteSent
  rw [h]

theorem terminalByteSent_busy {t : Fin 32} {s : State} {b : TxFrame} {inFifo : Bool}
    (h : s.lines[t].sending = .busy b inFifo) :
    terminalByteSent t s =
      if (modLine t Line.byteSent s).lines[t].tx.length ≤ 8 then
        modScreen t (fun sc => { sc with waiting := false }) (modLine t Line.byteSent s)
      else modLine t Line.byteSent s := by
  unfold terminalByteSent
  rw [h]
  rfl

theorem terminalByteLeavesTheFifo : Clause.TerminalByteLeavesTheFifo := by
  intro t s b inFifo h
  have hsent := Line.byteSent_busy h
  have hlines : (modLine t Line.byteSent s).lines = s.lines.set t _ t.isLt :=
    congrArg (fun l => s.lines.set t.val l t.isLt) hsent
  have htx : (modLine t Line.byteSent s).lines[t].tx =
      if inFifo then s.lines[t].tx.tail else s.lines[t].tx := by rw [modLine_self, hsent]
  refine ⟨_, rfl, terminalByteSent_keeps t s, ?_⟩
  rw [terminalByteSent_busy h, htx]
  by_cases hlow : (if inFifo then s.lines[t].tx.tail else s.lines[t].tx).length ≤ 8
  · rw [if_pos hlow, if_pos hlow]
    exact ⟨hlines, rfl⟩
  · rw [if_neg hlow, if_neg hlow]
    exact ⟨hlines, rfl⟩

/-- Settles O38: each of the emitter's steps leaves less work, and the line's frame and FIFO are read off its end of the event. -/
theorem transmitFifoAndEmitter : Obligations.TransmitFifoAndEmitter :=
  ⟨sentFramesHaveTheLinesFormat, terminalByteLeavesTheFifo, emitterPlacesWholeCodesInOrder,
    emitterChoosesWhatComesNext, emitterGoesOnWhileThereIsRoom⟩

end Sys2Proof.Machine
end

section
/-! SUPPORT. The bounds of the state's queues, FIFOs and records, field by field, and what keeps them: what an operation does to the fields it touches (R64, R69, R72, R88, R89, R118, R122, R133, R140, R145, R151, R161, R166). -/

namespace Sys2Proof.Machine

/-! ### The bounds -/

/-- A terminal line's FIFOs hold no more than their capacities (R64, R72). -/
def Line.Fits (l : Line) : Prop := l.rx.length ≤ 16 ∧ l.tx.length ≤ 32

/-- A channel within its capacities, with room for n lines while the lines of a grant are kept. -/
def Channel.Spare (n : Nat) (ch : Channel) : Prop :=
  ch.jobs.length ≤ 4 ∧ ch.finished.length ≤ 4 ∧ ch.lines.length ≤ 128 ∧ ch.fifo.length ≤ 64 ∧
    (ch.grant = .keep → ch.lines.length + n ≤ 128)

/-- Every setting record of the directory lies within Table 7-1. -/
def StoriesLegal (s : State) : Prop := ∀ e ∈ s.stories, e.2.setting.Legal

/-- Every basket's default setting record lies within Table 7-1. -/
def BasketsLegal (s : State) : Prop :=
  ∀ b : Fin 64, ∀ x, s.baskets[b].default = some x → x.Legal

/-- What each field's bound asks of two states, n being the room for the lines of a grant. New stories take their basket's default. -/
def Field.KeepsBound (n : Nat) (s u : State) : Field → Prop
  | .keys => s.keys.length ≤ 64 → u.keys.length ≤ 64
  | .fit => s.fit.list.length ≤ 8 → u.fit.list.length ≤ 8
  | .lines => ∀ t : Fin 32, s.lines[t].Fits → u.lines[t].Fits
  | .wires => ∀ w : Fin 4, s.wires[w].fifo.length ≤ 16 → u.wires[w].fifo.length ≤ 16
  | .channels => ∀ c : Fin 4, s.channels[c].Spare n → u.channels[c].Spare n
  | .faces => FacesLegal s → FacesLegal u
  | .baskets => BasketsLegal s → BasketsLegal u
  | .stories => SettingsLegal s → StoriesLegal u
  | .screens => ∀ t : Fin 32, s.screens[t].InOrder → u.screens[t].InOrder
  | _ => True

/-- The fields with a bound, the link's apart. -/
def boundedFields : List Field :=
  [.keys, .fit, .lines, .wires, .channels, .faces, .baskets, .stories, .screens]

/-- Every bound that holds in s holds in u. -/
def KeepsBounds (n : Nat) (s u : State) : Prop := ∀ f : Field, f.KeepsBound n s u

theorem settingsLegal_iff {s : State} : SettingsLegal s ↔ StoriesLegal s ∧ BasketsLegal s := Iff.rfl

section
variable {n : Nat} {s u v : State}

theorem Field.KeepsBound.of_same {f : Field} (h : f.same s u) : f.KeepsBound n s u := by
  cases f with
  | keys => exact fun k => (congrArg List.length h).trans_le k
  | fit => exact fun k => (congrArg (fun q => q.list.length) h).trans_le k
  | lines => exact fun t k => (show u.lines = s.lines from h) ▸ k
  | wires => exact fun t k => (show u.wires = s.wires from h) ▸ k
  | channels => exact fun t k => (show u.channels = s.channels from h) ▸ k
  | faces => exact fun k f => (show u.faces = s.faces from h) ▸ k f
  | baskets => exact fun k b => (show u.baskets = s.baskets from h) ▸ k b
  | stories => exact fun k e he => k.1 e ((show u.stories = s.stories from h) ▸ he)
  | screens => exact fun t k => (show u.screens = s.screens from h) ▸ k
  | _ => trivial

theorem Field.KeepsBound.of_unbounded {f : Field} (h : f ∉ boundedFields) : f.KeepsBound n s u := by
  cases f with
  | keys | fit | lines | wires | channels | faces | baskets | stories | screens =>
    exact absurd (by decide) h
  | _ => trivial

theorem KeepsBounds.refl (s : State) : KeepsBounds n s s := fun f =>
  .of_same (KeepsBut.refl [] s f List.not_mem_nil)

theorem KeepsBounds.settings (h : KeepsBounds n s u) (hs : SettingsLegal s) : SettingsLegal u :=
  ⟨h .stories hs, h .baskets hs.2⟩

theorem KeepsBounds.trans (h : KeepsBounds n s u) (k : KeepsBounds n u v) : KeepsBounds n s v := by
  intro f
  cases f with
  | keys => exact fun hs => k .keys (h .keys hs)
  | fit => exact fun hs => k .fit (h .fit hs)
  | lines => exact fun t hs => k .lines t (h .lines t hs)
  | wires => exact fun t hs => k .wires t (h .wires t hs)
  | channels => exact fun t hs => k .channels t (h .channels t hs)
  | faces => exact fun hs => k .faces (h .faces hs)
  | baskets => exact fun hs => k .baskets (h .baskets hs)
  | stories => exact fun hs => k .stories (h.settings hs)
  | screens => exact fun t hs => k .screens t (h .screens t hs)
  | _ => trivial

/-- A further operation after one that keeps the bounds. -/
theorem KeepsBounds.step (k : KeepsBounds n u v) (h : KeepsBounds n s u) : KeepsBounds n s v :=
  h.trans k

theorem KeepsBounds.ite {c : Prop} [Decidable c] (h : KeepsBounds n s u) (k : KeepsBounds n s v) :
    KeepsBounds n s (if c then u else v) := by
  split
  · exact h
  · exact k

theorem KeepsBounds.foldl {α : Type} (g : State → α → State) (h : ∀ s a, KeepsBounds n s (g s a))
    (l : List α) (s : State) : KeepsBounds n s (l.foldl g s) := by
  induction l generalizing s with
  | nil => exact .refl s
  | cons a l ih => exact (h s a).trans (ih _)

theorem forTerminals_bounds (g : Fin 32 → State → State) (h : ∀ t s, KeepsBounds n s (g t s))
    (s : State) : KeepsBounds n s (forTerminals g s) := .foldl _ (fun s t => h t s) _ s

/-- An update of fields of which only one has a bound. -/
theorem KeepsBounds.of_field {gs : List Field} (f : Field) (k : KeepsBut gs s u)
    (hgs : ∀ g ∈ gs, g ∈ boundedFields → g = f) (h : f.KeepsBound n s u) : KeepsBounds n s u := by
  intro g
  by_cases hg : g ∈ gs
  · by_cases hb : g ∈ boundedFields
    · exact hgs g hg hb ▸ h
    · exact .of_unbounded hb
  · exact .of_same (k g hg)

/-- An update of fields without bounds. -/
theorem KeepsBounds.of_frame {gs : List Field} (k : KeepsBut gs s u)
    (hgs : ∀ g ∈ gs, g ∉ boundedFields) : KeepsBounds n s u :=
  .of_field .now k (fun g hg hb => absurd hb (hgs g hg)) trivial

end

theorem followsLink_keepsBounds (n : Nat) : FollowsLink (KeepsBounds n) :=
  ⟨fun h k => h.trans k, fun h => .of_frame h (by decide)⟩

/-! ### One rule for each of the state's fields -/

section
variable {n : Nat} {s : State}

theorem keys_bounds {l : List KeyReport} (h : s.keys.length ≤ 64 → l.length ≤ 64) :
    KeepsBounds n s { s with keys := l } := .of_field .keys (keeps_keys s l) (by decide) h

theorem fit_bounds {q : FitQueue} (h : s.fit.list.length ≤ 8 → q.list.length ≤ 8) :
    KeepsBounds n s { s with fit := q } := .of_field .fit (keeps_fit s q) (by decide) h

theorem modLine_bounds {t : Fin 32} {g : Line → Line}
    (h : s.lines[t].Fits → (g s.lines[t]).Fits) : KeepsBounds n s (modLine t g s) := by
  refine .of_field .lines (modLine_keeps s t g) (by decide) fun x hx => ?_
  by_cases ht : x = t
  · subst ht
    exact (modLine_self x g s).symm ▸ h hx
  · exact (modLine_other g s ht).symm ▸ hx

theorem modScreen_bounds {t : Fin 32} {g : Screen → Screen}
    (h : s.screens[t].InOrder → (g s.screens[t]).InOrder) : KeepsBounds n s (modScreen t g s) := by
  refine .of_field .screens (modScreen_keeps s t g) (by decide) fun x hx => ?_
  by_cases ht : x = t
  · subst ht
    exact (modScreen_self x g s).symm ▸ h hx
  · exact (modScreen_other g s ht).symm ▸ hx

theorem modWire_other {w x : Fin 4} (f : Wire → Wire) (s : State) (h : x ≠ w) :
    (modWire w f s).wires[x] = s.wires[x] :=
  Vector.getElem_set_ne w.isLt x.isLt fun he => h (Fin.ext he.symm)

theorem modChannel_self (c : Fin 4) (f : Channel → Channel) (s : State) :
    (modChannel c f s).channels[c] = f s.channels[c] := Vector.getElem_set_self c.isLt

theorem modChannel_other {c x : Fin 4} (f : Channel → Channel) (s : State) (h : x ≠ c) :
    (modChannel c f s).channels[x] = s.channels[x] :=
  Vector.getElem_set_ne c.isLt x.isLt fun he => h (Fin.ext he.symm)

theorem modWire_bounds {w : Fin 4} {g : Wire → Wire}
    (h : s.wires[w].fifo.length ≤ 16 → (g s.wires[w]).fifo.length ≤ 16) :
    KeepsBounds n s (modWire w g s) := by
  refine .of_field .wires (modWire_keeps s w g) (by decide) fun x hx => ?_
  by_cases ht : x = w
  · subst ht
    exact (modWire_self x g s).symm ▸ h hx
  · exact (modWire_other g s ht).symm ▸ hx

theorem modChannel_bounds {c : Fin 4} {g : Channel → Channel}
    (h : s.channels[c].Spare n → (g s.channels[c]).Spare n) : KeepsBounds n s (modChannel c g s) := by
  refine .of_field .channels (modChannel_keeps s c g) (by decide) fun x hx => ?_
  by_cases ht : x = c
  · subst ht
    exact (modChannel_self x g s).symm ▸ h hx
  · exact (modChannel_other g s ht).symm ▸ hx

theorem modBasket_bounds {b : Fin 64} {g : Basket → Basket}
    (h : ∀ x, (g s.baskets[b]).default = some x → s.baskets[b].default = some x ∨ x.Legal) :
    KeepsBounds n s (modBasket b g s) := by
  refine .of_field .baskets (modBasket_keeps s b g) (by decide) fun hs x y hy => ?_
  by_cases ht : x = b
  · subst ht
    rw [modBasket_self] at hy
    exact (h y hy).elim (hs x y) id
  · rw [modBasket_other g s ht] at hy
    exact hs x y hy

theorem Tab.mem_of_get? {α : Type} {m : Tab α} {k : Nat} {v : α} (h : Tab.get? m k = some v) :
    (k, v) ∈ m := by
  induction m with
  | nil => cases h
  | cons x m ih =>
    obtain ⟨j, w⟩ := x
    rw [Tab.get?] at h
    split at h
    · next hj =>
      cases h
      exact hj ▸ List.mem_cons_self
    · exact List.mem_cons_of_mem _ (ih h)

theorem StoriesLegal.storyOf {id : Nat} {st : Story} (hs : StoriesLegal s)
    (h : storyOf s id = some st) : st.setting.Legal := hs _ (Tab.mem_of_get? h)

/-- An entry put into the directory with a setting within Table 7-1. -/
theorem setStory_bounds {id : Nat} {st : Story} (h : SettingsLegal s → st.setting.Legal) :
    KeepsBounds n s (setStory id st s) := by
  refine .of_field .stories (setStory_keeps s id st) (by decide) fun hs e he => ?_
  rcases Tab.mem_put s.stories id st e he with rfl | he
  · exact h hs
  · exact hs.1 e he

/-- A change of one entry that leaves its setting alone. -/
theorem modStory_bounds {id : Nat} {g : Story → Story} (h : ∀ st, (g st).setting = st.setting) :
    KeepsBounds n s (modStory id g s) := by
  unfold modStory
  split
  · exact .refl s
  · next st hst => exact setStory_bounds fun hs => (h st).symm ▸ StoriesLegal.storyOf hs.1 hst

end

end Sys2Proof.Machine
end

section
/-! SUPPORT. The operations on stories, panes, keys, terminal lines and screens keep every bound (R64, R69, R72, R88, R89, R122, R133). -/

namespace Sys2Proof.Machine

variable {n : Nat}

/-! ### Stories and the Fit Queue -/

theorem setFitStatus_bounds (id : Nat) (x : FitStatus) (s : State) :
    KeepsBounds n s (setFitStatus id x s) := modStory_bounds fun _ => rfl

theorem release_bounds (id : Nat) (s : State) : KeepsBounds n s (release id s) :=
  modStory_bounds fun _ => rfl

theorem claim_bounds (id : Nat) (h : Holding) (s : State) : KeepsBounds n s (claim id h s) :=
  modStory_bounds fun _ => rfl

theorem textChanged_bounds (id : Nat) (s : State) :
    KeepsBounds n s (modStory id Story.textChanged s) := modStory_bounds fun _ => rfl

theorem garble_bounds (id : Nat) (s : State) : KeepsBounds n s (garble id s) :=
  modStory_bounds fun _ => rfl

/-- An entry that keeps the setting it has in the directory. -/
theorem setStory_same_bounds {id : Nat} {st st' : Story} {s : State} (h : storyOf s id = some st)
    (hx : st'.setting = st.setting) : KeepsBounds n s (setStory id st' s) :=
  setStory_bounds fun hs => hx.symm ▸ StoriesLegal.storyOf hs.1 h

theorem setText_bounds {id : Nat} {st : Story} {m : Memory} {chain : List Nat} {s : State}
    (h : storyOf s id = some st) : KeepsBounds n s (setText id st m chain s) :=
  (KeepsBounds.of_frame (keeps_memory s m) (by decide)).trans
    (setStory_bounds fun hs => StoriesLegal.storyOf (s := s) (st := st) hs.1 h)

/-- A story joins the Fit Queue where it has room (R133). -/
theorem joinFitQueue_bounds (id : Nat) {s : State} (h : s.fit.list.length < 8) :
    KeepsBounds n s (joinFitQueue id s) := by
  refine (fit_bounds fun _ => ?_).trans (setFitStatus_bounds _ _ _)
  rw [List.length_append]
  exact h

theorem autoOffer_bounds (id : Nat) (s : State) : KeepsBounds n s (autoOffer id s) := by
  unfold autoOffer
  split
  · exact .refl s
  next st hst =>
  split
  · exact .refl s
  split
  · exact .refl s
  split
  · next hroom => exact joinFitQueue_bounds id hroom
  · exact setStory_same_bounds hst rfl

theorem dropFromFitList_bounds (id : Nat) (s : State) : KeepsBounds n s (dropFromFitList id s) :=
  fit_bounds (List.length_filter_le _ _).trans

theorem setProgress_bounds (p : Option FitProgress) (s : State) :
    KeepsBounds n s (setProgress p s) := fit_bounds id

theorem deleteAt_bounds (id k : Nat) (s : State) : KeepsBounds n s (deleteAt id k s) := by
  unfold deleteAt
  split
  · exact .refl s
  · next st hst =>
    exact .ite ((setText_bounds hst).trans (.of_frame (recoveryTest_keeps _) (by decide)))
      (setText_bounds hst)

theorem insertAt_bounds (id k : Nat) (c : Byte) (s : State) :
    KeepsBounds n s (insertAt id k c s) := by
  unfold insertAt
  split
  · exact .refl s
  · next st hst =>
    split
    · exact setText_bounds hst
    · exact .refl s
    · exact .refl s

theorem deleteMany_bounds (id k m : Nat) (s : State) : KeepsBounds n s (deleteMany id k m s) := by
  induction m generalizing s with
  | zero => exact .refl s
  | succ m ih => exact (deleteAt_bounds id k s).trans (ih _)

theorem insertMany_bounds (id : Nat) (cs : List Byte) (k : Nat) (s : State) :
    KeepsBounds n s (insertMany id k cs s) := by
  induction cs generalizing k s with
  | nil => exact .refl s
  | cons c cs ih => exact (insertAt_bounds id k c s).trans (ih _ _)

theorem writeText_bounds (id off del : Nat) (text : List Byte) (s : State) :
    KeepsBounds n s (writeText id off del text s) := by
  unfold writeText
  exact .ite (.refl s) ((deleteMany_bounds _ _ _ _).trans ((insertMany_bounds _ _ _ _).trans
    ((textChanged_bounds _ _).trans (.of_frame (keepRefTops_keeps _ _ _) (by decide)))))

theorem joinBasket_bounds (b : Fin 64) (id : Nat) (s : State) :
    KeepsBounds n s (joinBasket b id s) := modBasket_bounds fun _ => .inl

theorem leaveBasket_bounds (b : Fin 64) (id : Nat) (s : State) :
    KeepsBounds n s (leaveBasket b id s) := modBasket_bounds fun _ => .inl

theorem partDefault_legal : Setting.partDefault.Legal := by unfold Setting.Legal; decide

/-- A new story takes its basket's default, or the part's (R122). -/
theorem newStory_legal {s : State} (hs : BasketsLegal s) (slug : List Byte) (b : Fin 64)
    (p : Priority) (key : Fin 16) (embargo : Bool) (h : Holding) (o : Option Origin) :
    (newStory s slug b p key embargo h o).setting.Legal := by
  show (s.baskets[b].default.getD Setting.partDefault).Legal
  cases hb : s.baskets[b].default with
  | none => exact partDefault_legal
  | some x => exact hs b x hb

theorem createStory_bounds {id : Nat} {st : Story} {s : State}
    (h : BasketsLegal s → st.setting.Legal) : KeepsBounds n s (createStory id st s) :=
  (setStory_bounds fun hs => h hs.2).trans (joinBasket_bounds _ _ _)

theorem spikeFit_bounds (id : Nat) (s : State) : KeepsBounds n s (spikeFit id s) := by
  unfold spikeFit
  exact .ite ((dropFromFitList_bounds id s).trans (fit_bounds fun h => h)) (dropFromFitList_bounds id s)

/-- The chain is freed and the entry goes (R24). -/
theorem erase_bounds (id : Nat) (m : Memory) (s : State) :
    KeepsBounds n s { s with memory := m, stories := Tab.erase s.stories id } :=
  .of_field (gs := [.memory, .stories]) .stories
    (fun f hf => by cases f <;> first | exact absurd (by decide) hf | rfl) (by decide)
    fun hs e he => hs.1 e (Tab.mem_erase _ _ e he)

theorem spike_bounds (id : Nat) (st : Story) (s : State) : KeepsBounds n s (spike id st s) := by
  unfold spike
  refine .step (.of_frame (spikePanes_keeps _ _) (by decide)) (.step (spikeFit_bounds _ _)
    (.step (leaveBasket_bounds _ _ _) (.ite (erase_bounds id _ s) ?_)))
  exact (erase_bounds id _ s).trans (.of_frame (recoveryTest_keeps _) (by decide))

/-! ### Panes and baskets -/

theorem closeSession_bounds (t : Fin 32) (offer : Bool) (s : State) :
    KeepsBounds n s (closeSession t offer s) := by
  unfold closeSession
  split
  · exact .refl s
  · exact (release_bounds _ _).trans (KeepsBounds.trans (.ite (autoOffer_bounds _ _) (.refl _))
      (.of_frame (modPanes_keeps _ _ _) (by decide)))

theorem closePanes_bounds (t : Fin 32) (s : State) : KeepsBounds n s (closePanes t s) :=
  (closeSession_bounds t true s).trans (.of_frame (clearRef_keeps _ _) (by decide))

theorem recheck_bounds (only : Option Nat) (t : Fin 32) (s : State) :
    KeepsBounds n s (recheck only t s) := by
  have hsession : KeepsBounds n s (if sessionFails s t only then
      raiseTerminal t TermEvents.addWindowClosed (closeSession t true s) else s) :=
    .ite ((closeSession_bounds _ _ _).trans (.of_frame (raiseTerminal_keeps _ _ _) (by decide)))
      (.refl s)
  exact .ite (hsession.trans ((KeepsBounds.of_frame (clearRef_keeps _ _) (by decide)).trans
    (.of_frame (raiseTerminal_keeps _ _ _) (by decide)))) hsession

theorem recheckWhere_bounds (p : State → Fin 32 → Bool) (only : Option Nat) (s : State) :
    KeepsBounds n s (recheckWhere p only s) :=
  forTerminals_bounds _ (fun _ _ => .ite (recheck_bounds _ _ _) (.refl _)) s

theorem moveTo_bounds (id : Nat) (a b : Fin 64) (s : State) : KeepsBounds n s (moveTo id a b s) := by
  unfold moveTo
  exact .step (recheckWhere_bounds _ _ _) (.step (joinBasket_bounds _ _ _)
    (.step (modStory_bounds fun _ => rfl) (leaveBasket_bounds _ _ _)))

theorem openEdit_bounds (t : Fin 32) (id off : Nat) (st : Story) (s : State) :
    KeepsBounds n s (openEdit t id off st s) :=
  .step (.of_frame (modPanes_keeps _ _ _) (by decide)) (.step (claim_bounds _ _ _)
    (closeSession_bounds t true s))

/-! ### Faces, settings and fits -/

theorem mapVal_bounds {s u : State} (g : Story → Story) (hg : ∀ st, (g st).setting = st.setting)
    (h : u.stories = Tab.mapVal g s.stories) : Field.stories.KeepsBound n s u := by
  intro hs e he
  rw [h] at he
  obtain ⟨d, hd, rfl⟩ := List.mem_map.mp he
  exact (hg d.2).symm ▸ hs.1 d hd

theorem outdateFace_setting (f : Fin 8) (st : Story) :
    (outdateFace f st).setting = st.setting := by
  unfold outdateFace
  split <;> rfl

theorem leaveForFace_bounds (id : Nat) (s : State) : KeepsBounds n s (leaveForFace id s) := by
  have hleft : KeepsBounds n s (setFitStatus id .unknown (dropFromFitList id s)) :=
    (dropFromFitList_bounds _ _).trans (setFitStatus_bounds _ _ _)
  exact .ite (.refl s) (.ite (hleft.trans (fit_bounds fun h => h)) hleft)

theorem changeSetting_bounds (id : Nat) (st : Story) {x : Setting} (s : State) (hx : x.Legal) :
    KeepsBounds n s (changeSetting id st x s) := by
  have hset : KeepsBounds n s (setStory id { st with setting := x, fit := st.fit.outdate } s) :=
    setStory_bounds fun _ => hx
  exact .ite (hset.trans (autoOffer_bounds _ _)) (hset.trans (leaveForFace_bounds _ _))

theorem clampTo_bounds {lo hi : Nat} (h : lo ≤ hi) (v : Nat) :
    lo ≤ clampTo lo hi v ∧ clampTo lo hi v ≤ hi :=
  ⟨Nat.le_max_left _ _, Nat.max_le.mpr ⟨h, Nat.min_le_left _ _⟩⟩

theorem clampSetting_legal (x : Setting) : (clampSetting x).Legal :=
  ⟨clampTo_bounds (by decide) _, clampTo_bounds (by decide) _, clampTo_bounds (by decide) _,
    Nat.min_le_right _ _, Nat.min_le_right _ _⟩

/-- The story goes to the tail of the Fit Queue it stood in (R136). -/
theorem requeue_bounds (id : Nat) (s : State) : KeepsBounds n s (requeue id s) := by
  refine fit_bounds fun h => ?_
  have hsplit := List.length_eq_length_filter_add (l := s.fit.list) fun i => decide (i.story = id)
  simp only [List.length_append, List.length_map, ne_eq, decide_not] at hsplit ⊢
  omega

theorem discardFit_bounds (p : FitProgress) (st : Story) (s : State) :
    KeepsBounds n s (discardFit p st s) :=
  .step (setProgress_bounds _ _) (.ite ((requeue_bounds _ _).trans (setFitStatus_bounds _ _ _))
    ((dropFromFitList_bounds _ _).trans (setFitStatus_bounds _ _ _)))

theorem completeFit_bounds (p : FitProgress) (s : State) : KeepsBounds n s (completeFit p s) :=
  .step (setProgress_bounds _ _) (.step (dropFromFitList_bounds _ _) (modStory_bounds fun _ => rfl))

theorem endFitGrant_bounds (p : FitProgress) (s : State) : KeepsBounds n s (endFitGrant p s) := by
  unfold endFitGrant
  split
  · exact setProgress_bounds _ s
  split
  · exact (dropFromFitList_bounds _ s).trans (setProgress_bounds _ _)
  split
  · dsimp only
    split
    · exact setProgress_bounds _ s
    · exact completeFit_bounds _ s
  · exact discardFit_bounds _ _ s

theorem fitGrantEnds_bounds (s : State) : KeepsBounds n s (fitGrantEnds s) := by
  unfold fitGrantEnds
  refine .ite ?_ (.refl s)
  split
  · exact .of_frame (freeEngine_keeps _) (by decide)
  · exact (endFitGrant_bounds _ s).trans (.of_frame (freeEngine_keeps _) (by decide))

end Sys2Proof.Machine
end

section
/-! SUPPORT. Keys, terminal lines, screens, channels and wire lines keep every bound (R64, R69, R72, R88, R89, R140, R145, R151, R161, R166). -/

namespace Sys2Proof.Machine

variable {n : Nat}

/-! ### Screens (R88, R89) -/

theorem Screen.InOrder.allMarked {sc u : Screen} (h : sc.InOrder) (hm : u.marks = allRows)
    (hh : u.hand = sc.hand) : u.InOrder :=
  ⟨hm ▸ List.Sublist.refl _, fun r codes hr => h.2 r codes (hh ▸ hr)⟩

theorem Screen.inOrder_of_noHand {sc : Screen} (hm : sc.marks.Sublist allRows)
    (hh : sc.hand = none) : sc.InOrder :=
  ⟨hm, fun r codes hr => by rw [hh] at hr; cases hr⟩

theorem Screen.repaint_inOrder (sc : Screen) : sc.repaint.InOrder :=
  inOrder_of_noHand (List.Sublist.refl _) rfl

/-- A change that leaves the row-change set and the row in hand alone. -/
theorem modScreen_same_bounds {t : Fin 32} {g : Screen → Screen} {s : State}
    (h : ∀ sc, (g sc).marks = sc.marks ∧ (g sc).hand = sc.hand) :
    KeepsBounds n s (modScreen t g s) := modScreen_bounds fun hin => by
  obtain ⟨hm, hh⟩ := h s.screens[t]
  exact ⟨hm ▸ hin.1, fun r codes hr => hin.2 r codes (hh ▸ hr)⟩

theorem bell_bounds (t : Fin 32) (s : State) : KeepsBounds n s (bell t s) := modScreen_same_bounds fun _ => ⟨rfl, rfl⟩

theorem repaint_bounds (t : Fin 32) (s : State) : KeepsBounds n s (repaint t s) :=
  modScreen_bounds fun _ => Screen.repaint_inOrder _

theorem setMode_bounds (t : Fin 32) (m : Mode) (s : State) : KeepsBounds n s (setMode t m s) :=
  modScreen_bounds fun h => h.allMarked rfl rfl

theorem endRotation_bounds (t : Fin 32) (s : State) : KeepsBounds n s (endRotation t s) := by
  unfold endRotation
  split
  · exact setMode_bounds _ _ s
  · exact .refl s

theorem beginRotation_bounds (t : Fin 32) (bs : List (Fin 64)) (d : Nat) (k : Bool) (s : State) :
    KeepsBounds n s (beginRotation t bs d k s) :=
  (closePanes_bounds t s).trans (setMode_bounds _ _ _)

theorem endWatchers_bounds (target : Fin 32) (s : State) :
    KeepsBounds n s (endWatchers target s) :=
  forTerminals_bounds _ (fun _ _ => .ite (.step (repaint_bounds _ _) (setMode_bounds _ _ _))
    (.refl _)) s

theorem flashExpires_bounds (t : Fin 32) (s : State) : KeepsBounds n s (flashExpires t s) := by
  unfold flashExpires
  split
  · exact .refl s
  · exact (KeepsBounds.of_frame (advanceTo_keeps s _) (by decide)).trans (modScreen_same_bounds fun _ => ⟨rfl, rfl⟩)

theorem dwellExpires_bounds (t : Fin 32) (s : State) : KeepsBounds n s (dwellExpires t s) := by
  unfold dwellExpires
  split
  · exact (KeepsBounds.of_frame (advanceTo_keeps s _) (by decide)).trans (modScreen_same_bounds fun _ => ⟨rfl, rfl⟩)
  · exact .refl s

theorem flashAlert_bounds (slug : List Byte) (t : Fin 32) (s : State) :
    KeepsBounds n s (flashAlert slug t s) := modScreen_same_bounds fun _ => ⟨rfl, rfl⟩

theorem flashAlerts_bounds (st : Story) (s : State) : KeepsBounds n s (flashAlerts st s) :=
  .ite (forTerminals_bounds _ (fun t s => .ite (flashAlert_bounds _ t s) (.refl s)) s) (.refl s)

/-! ### Terminal lines (R64 to R66, R72) -/

/-- A change that leaves the FIFOs alone. -/
theorem modLine_same_bounds {t : Fin 32} {g : Line → Line} {s : State}
    (h : ∀ l, (g l).rx = l.rx ∧ (g l).tx = l.tx) :
    KeepsBounds n s (modLine t g s) := modLine_bounds fun hfits => by
  obtain ⟨hrx, htx⟩ := h s.lines[t]
  exact ⟨hrx ▸ hfits.1, htx ▸ hfits.2⟩

theorem Line.Fits.handUp {l : Line} (h : l.Fits) : l.handUp.Fits := by
  unfold Line.handUp
  split
  · exact ⟨Nat.zero_le _, h.2⟩
  · exact h

theorem Line.emptied_fits (l : Line) : l.emptied.Fits := ⟨Nat.zero_le _, Nat.zero_le _⟩

theorem Line.Fits.byteSent {l : Line} (h : l.Fits) : l.byteSent.Fits := by
  unfold Line.byteSent
  split
  · exact h
  · refine ⟨h.1, ?_⟩
    dsimp only
    split
    · exact List.length_tail ▸ (Nat.sub_le _ _).trans h.2
    · exact h.2

theorem emptyFifos_bounds (t : Fin 32) (s : State) : KeepsBounds n s (emptyFifos t s) :=
  .step (modScreen_same_bounds fun _ => ⟨rfl, rfl⟩) (modLine_bounds fun _ => Line.emptied_fits _)

theorem lineActive_bounds (t : Fin 32) (s : State) : KeepsBounds n s (lineActive t s) :=
  modLine_same_bounds fun _ => ⟨rfl, rfl⟩

theorem offerChar_bounds (t : Fin 32) (c : Byte) (s : State) :
    KeepsBounds n s (offerChar t c s) := by
  unfold offerChar
  split
  · next hroom =>
    refine modLine_bounds fun h => Line.Fits.handUp ⟨?_, h.2⟩
    rw [List.length_append]
    exact hroom
  · exact .of_frame (raiseTerminal_keeps _ _ _) (by decide)

theorem arrive_bounds (t : Fin 32) (c : Byte) (s : State) : KeepsBounds n s (arrive t c s) :=
  (lineActive_bounds t s).trans (offerChar_bounds t c _)

theorem receiveFrame_bounds (t : Fin 32) (r : RxFrame) (s : State) :
    KeepsBounds n s (receiveFrame t r s) :=
  .ite (.step (.ite (.of_frame (raiseTerminal_keeps _ _ _) (by decide)) (offerChar_bounds _ _ _))
    (lineActive_bounds t s)) (.refl s)

theorem idleExpires_bounds (t : Fin 32) (s : State) : KeepsBounds n s (idleExpires t s) :=
  .ite (modLine_bounds fun h => Line.Fits.handUp h) (.refl s)

theorem breakSeen_bounds (t : Fin 32) (s : State) : KeepsBounds n s (breakSeen t s) :=
  .ite (.step (repaint_bounds t _) (.step (.of_frame (raiseTerminal_keeps _ _ _) (by decide))
    (modLine_bounds fun h => ⟨Nat.zero_le _, h.2⟩))) (.refl s)

theorem terminalByteSent_bounds (t : Fin 32) (s : State) :
    KeepsBounds n s (terminalByteSent t s) := by
  have hsent : KeepsBounds n s (modLine t Line.byteSent s) := modLine_bounds Line.Fits.byteSent
  unfold terminalByteSent
  split
  · exact .refl s
  · exact .ite (hsent.trans (modScreen_same_bounds fun _ => ⟨rfl, rfl⟩)) hsent

/-! ### Keys (R65, R67 to R69, R105 to R111) -/

theorem textEffects_bounds (t : Fin 32) (id k : Nat) (move : Nat → Nat) (s : State) :
    KeepsBounds n s (textEffects t id k move s) :=
  (textChanged_bounds id s).trans ((KeepsBounds.of_frame (modSession_keeps _ _ _) (by decide)).trans
    ((KeepsBounds.of_frame (keepSessionTop_keeps _ _ _) (by decide)).trans
      (.of_frame (keepRefTops_keeps _ _ _) (by decide))))

theorem withEdit_bounds (t : Fin 32) (s : State) (k : Session → Story → State)
    (h : ∀ e st, storyOf s e.story = some st → KeepsBounds n s (k e st)) :
    KeepsBounds n s (withEdit t s k) := by
  unfold withEdit
  split
  · exact bell_bounds t s
  · split
    · next hst => exact h _ _ hst
    · exact bell_bounds t s

theorem insertKey_bounds (t : Fin 32) (c : Byte) {e : Session} {st : Story} {s : State}
    (hst : storyOf s e.story = some st) : KeepsBounds n s (insertKey t c e st s) := by
  unfold insertKey
  split
  · exact (setText_bounds hst).trans (textEffects_bounds _ _ _ _ _)
  · exact bell_bounds t s
  · exact (bell_bounds t s).trans (.of_frame (poolPressed_keeps _ _) (by decide))

theorem editText_bounds (t : Fin 32) (c : Byte) (s : State) : KeepsBounds n s (editText t c s) :=
  withEdit_bounds t s _ fun _ _ hst => .ite
    ((KeepsBounds.of_frame (keeps_memory s _) (by decide)).trans (textEffects_bounds _ _ _ _ _))
    (insertKey_bounds _ _ hst)

theorem editParagraph_bounds (t : Fin 32) (s : State) : KeepsBounds n s (editParagraph t s) :=
  withEdit_bounds t s _ fun _ _ hst => insertKey_bounds _ _ hst

theorem deleteKey_bounds (t : Fin 32) (e : Session) (k : Nat) (s : State) :
    KeepsBounds n s (deleteKey t e k s) :=
  (deleteAt_bounds _ _ _).trans (textEffects_bounds _ _ _ _ _)

theorem editDeleteBack_bounds (t : Fin 32) (s : State) : KeepsBounds n s (editDeleteBack t s) :=
  withEdit_bounds t s _ fun _ _ _ => .ite (bell_bounds t s) (deleteKey_bounds _ _ _ _)

theorem editDeleteForward_bounds (t : Fin 32) (s : State) :
    KeepsBounds n s (editDeleteForward t s) :=
  withEdit_bounds t s _ fun _ _ _ => .ite (deleteKey_bounds _ _ _ _) (bell_bounds t s)

theorem editToggle_bounds (t : Fin 32) (s : State) : KeepsBounds n s (editToggle t s) :=
  withEdit_bounds t s _ fun _ _ _ => .of_frame (modSession_keeps _ _ _) (by decide)

/-- A key that moves the cursor, or gives the bell where it cannot. -/
theorem cursorKey_bounds {c : Prop} [Decidable c] (t : Fin 32) (k : Nat) (s : State) :
    KeepsBounds n s (if c then bell t s else moveCursor t k s) :=
  .ite (bell_bounds t s) (.of_frame (moveCursor_keeps _ _ _) (by decide))

theorem scrollRef_bounds (t : Fin 32) (s : State) (k : List DRow → RefPane → Option Nat) :
    KeepsBounds n s (scrollRef t s k) := by
  unfold scrollRef
  split
  · exact bell_bounds t s
  · split
    · exact bell_bounds t s
    · split
      · exact bell_bounds t s
      · exact .of_frame (modPanes_keeps _ _ _) (by decide)

theorem editLeft_bounds (t : Fin 32) (s : State) : KeepsBounds n s (editLeft t s) :=
  withEdit_bounds t s _ fun _ _ _ => cursorKey_bounds t _ s

theorem editRight_bounds (t : Fin 32) (s : State) : KeepsBounds n s (editRight t s) :=
  withEdit_bounds t s _ fun _ _ _ => cursorKey_bounds t _ s

theorem editUp_bounds (t : Fin 32) (s : State) : KeepsBounds n s (editUp t s) :=
  .ite (scrollRef_bounds _ _ _) (withEdit_bounds t s _ fun _ _ _ => cursorKey_bounds t _ s)

theorem editDown_bounds (t : Fin 32) (s : State) : KeepsBounds n s (editDown t s) :=
  .ite (scrollRef_bounds _ _ _) (withEdit_bounds t s _ fun _ _ _ => cursorKey_bounds t _ s)

theorem editSwitch_bounds (t : Fin 32) (s : State) : KeepsBounds n s (editSwitch t s) := by
  unfold editSwitch
  split
  · exact bell_bounds t s
  · split
    · exact .of_frame (modSession_keeps _ _ _) (by decide)
    · exact .of_frame (modSession_keeps _ _ _) (by decide)
    · exact bell_bounds t s

/-- A report joins the Key Report Queue where it has room (R69). -/
theorem strikeFunction_bounds (t : Fin 32) (k : Fin 16) (s : State) :
    KeepsBounds n s (strikeFunction t k s) := by
  have hrefused : KeepsBounds n s (refuseKey t s) :=
    (bell_bounds t s).trans (.of_frame (raiseTerminal_keeps _ _ _) (by decide))
  unfold strikeFunction
  split
  · exact bell_bounds t s
  split
  · exact hrefused
  split
  · exact hrefused
  next hroom =>
  refine KeepsBounds.trans (keys_bounds fun _ => ?_)
    (.of_frame (raiseSource_keeps _ _) (by decide))
  rw [List.length_append]
  exact Nat.lt_of_not_le hroom

theorem editKey_bounds (t : Fin 32) (act : State → State) (s : State)
    (h : KeepsBounds n s (act s)) : KeepsBounds n s (editKey t act s) := .ite h (bell_bounds t s)

theorem handKey_bounds (t : Fin 32) (k : Key) (s : State) : KeepsBounds n s (handKey t k s) := by
  cases k with
  | text c => exact editKey_bounds t _ s (editText_bounds t c s)
  | deleteBack => exact editKey_bounds t _ s (editDeleteBack_bounds t s)
  | deleteForward => exact editKey_bounds t _ s (editDeleteForward_bounds t s)
  | paragraph => exact editKey_bounds t _ s (editParagraph_bounds t s)
  | left => exact editKey_bounds t _ s (editLeft_bounds t s)
  | right => exact editKey_bounds t _ s (editRight_bounds t s)
  | up => exact editKey_bounds t _ s (editUp_bounds t s)
  | down => exact editKey_bounds t _ s (editDown_bounds t s)
  | switch => exact editKey_bounds t _ s (editSwitch_bounds t s)
  | toggle => exact editKey_bounds t _ s (editToggle_bounds t s)
  | clearMessage => exact .of_frame (clearSlot_keeps t s) (by decide)
  | repaint => exact repaint_bounds t s
  | function k => exact strikeFunction_bounds t k s

theorem decodeChar_bounds (t : Fin 32) (c : Byte) (s : State) :
    KeepsBounds n s (decodeChar t c s) := by
  have hprefix : ∀ p, KeepsBounds n s (setPrefix t p s) := fun p => modLine_same_bounds fun _ => ⟨rfl, rfl⟩
  unfold decodeChar
  refine .ite ?_ (.ite (hprefix _) ?_)
  · split
    · exact (hprefix _).trans (handKey_bounds _ _ _)
    · exact hprefix _
  · split
    · exact handKey_bounds _ _ _
    · exact .refl s

theorem takeCode_bounds (t : Fin 32) (c : Byte) (s : State) : KeepsBounds n s (takeCode t c s) :=
  .ite (.refl s) (.ite ((decodeChar_bounds _ _ _).trans (modLine_bounds fun h => Line.Fits.handUp h))
    (.ite (decodeChar_bounds _ _ _) (arrive_bounds _ _ _)))

theorem takeFunction_bounds (t : Fin 32) (k : Fin 16) (s : State) :
    KeepsBounds n s (takeFunction t k s) :=
  .ite (.refl s) (.ite (takeCode_bounds _ _ _)
    (.ite ((takeCode_bounds _ _ _).trans (takeCode_bounds _ _ _))
      ((arrive_bounds _ _ _).trans (arrive_bounds _ _ _))))

theorem removeKeys_bounds (k : Nat) (s : State) : KeepsBounds n s (removeKeys k s) := by
  have hdrop : KeepsBounds n s { s with keys := s.keys.drop k } := keys_bounds fun h =>
    List.length_drop ▸ (Nat.sub_le _ _).trans h
  unfold removeKeys
  exact .ite (hdrop.trans (.of_frame (withdrawKeys_keeps _) (by decide))) hdrop

/-! ### Assignments (R60 to R62) -/

theorem attach_bounds (t : Fin 32) (a : Assignment) (s : State) :
    KeepsBounds n s (attach t a s) :=
  .step (repaint_bounds t _) (.step (.of_frame (setSlot_keeps _ _ _) (by decide))
    (.step (modScreen_same_bounds fun _ => ⟨rfl, rfl⟩) (.step (modLine_same_bounds fun _ => ⟨rfl, rfl⟩) (emptyFifos_bounds t s))))

theorem reassignLine_bounds (t : Fin 32) (a : Assignment) (s : State) :
    KeepsBounds n s (reassignLine t a s) := by
  unfold reassignLine
  refine .step (.ite (.refl _) (modLine_bounds fun h => Line.Fits.handUp h)) ?_
  exact .ite (.refl s) (.step (repaint_bounds t _) (.step (emptyFifos_bounds t _)
    (modLine_same_bounds fun _ => ⟨rfl, rfl⟩)))

theorem reassignLayout_bounds (t : Fin 32) (a : Assignment) (s : State) :
    KeepsBounds n s (reassignLayout t a s) := by
  unfold reassignLayout
  exact .ite (.refl s) (.step (modLine_same_bounds fun _ => ⟨rfl, rfl⟩) (closePanes_bounds t s))

theorem reassignAuthority_bounds (t : Fin 32) (a : Assignment) (s : State) :
    KeepsBounds n s (reassignAuthority t a s) := by
  unfold reassignAuthority
  exact .ite (.refl s) (.step (recheck_bounds _ _ _) (modLine_same_bounds fun _ => ⟨rfl, rfl⟩))

theorem reassignWatch_bounds (t : Fin 32) (s : State) : KeepsBounds n s (reassignWatch t s) :=
  .ite (setMode_bounds t _ s) (.refl s)

theorem reassign_bounds (t : Fin 32) (a : Assignment) (s : State) :
    KeepsBounds n s (reassign t a s) :=
  (reassignLine_bounds t a s).trans ((reassignLayout_bounds t a _).trans
    ((reassignAuthority_bounds t a _).trans (reassignWatch_bounds t _)))

theorem detach_bounds (t : Fin 32) (s : State) : KeepsBounds n s (detach t s) := by
  unfold detach
  refine .step (modLine_same_bounds fun _ => ⟨rfl, rfl⟩) (.step (emptyFifos_bounds t _) ?_)
  refine .step (.of_frame (setSlot_keeps _ _ _) (by decide)) (.step (modScreen_bounds fun _ => ?_)
    (.step (endWatchers_bounds t _) (closePanes_bounds t s)))
  exact Screen.inOrder_of_noHand (List.nil_sublist _) rfl

end Sys2Proof.Machine
end

section
/-! SUPPORT. Wire lines and channels keep every bound (R140, R145, R146, R151, R161, R166). -/

namespace Sys2Proof.Machine

variable {n : Nat}

/-! ### Wire lines (R166 to R178) -/

/-- A change that leaves the FIFO's length alone, or empties it. -/
theorem modWire_le_bounds {w : Fin 4} {g : Wire → Wire} {s : State}
    (h : ∀ l, (g l).fifo.length ≤ l.fifo.length) : KeepsBounds n s (modWire w g s) :=
  modWire_bounds (h _).trans

theorem setIntake_bounds (w : Fin 4) (i : Intake) (s : State) :
    KeepsBounds n s (setIntake w i s) := modWire_le_bounds fun _ => Nat.le_refl _

theorem length_markTail (f : WireChar → WireChar) (fifo : List WireChar) :
    (markTail f fifo).length = fifo.length := List.length_modify _ _ _

theorem loseChar_bounds (w : Fin 4) (s : State) : KeepsBounds n s (loseChar w s) :=
  (modWire_le_bounds fun _ => (length_markTail _ _).le).trans
    (.of_frame (raiseWire_keeps _ _ _) (by decide))

theorem receiveWire_bounds (w : Fin 4) (r : RxFrame) (s : State) :
    KeepsBounds n s (receiveWire w r s) := by
  have htimed : KeepsBounds n s (modWire w (fun l => { l with silenceFrom := s.now }) s) :=
    modWire_le_bounds fun _ => Nat.le_refl _
  unfold receiveWire
  refine .ite (.refl s) (htimed.trans ?_)
  dsimp only
  split
  · next hroom =>
    refine modWire_bounds fun _ => ?_
    rw [List.length_append]
    exact hroom
  · exact loseChar_bounds w _

theorem fileStory_bounds (w : Fin 4) (id : Nat) (cut : Bool) (i : Intake) (s : State) :
    KeepsBounds n s (fileStory w id cut i s) := by
  have hmarked : KeepsBounds n s
      (if cut then modStory id (fun st => { st with cut := true }) s else s) :=
    .ite (modStory_bounds fun _ => rfl) (.refl s)
  have hoffered : ∀ g, KeepsBounds n s (autoOffer id (raiseWire w g (release id
      (if cut then modStory id (fun st => { st with cut := true }) s else s)))) := fun g =>
    hmarked.trans ((release_bounds _ _).trans ((KeepsBounds.of_frame (raiseWire_keeps _ _ _)
      (by decide)).trans (autoOffer_bounds _ _)))
  unfold fileStory
  refine KeepsBounds.trans ?_ (setIntake_bounds _ _ _)
  split
  · exact hoffered _
  · exact (hoffered _).trans (flashAlerts_bounds _ _)

theorem storeLow_bounds (w : Fin 4) (id : Nat) (s : State) : KeepsBounds n s (storeLow w id s) :=
  (KeepsBounds.of_frame (poolPressed_keeps s _) (by decide)).trans (fileStory_bounds _ _ _ _ _)

theorem storeChar_bounds (w : Fin 4) (id : Nat) (c : Byte) (s : State) :
    KeepsBounds n s (storeChar w id c s) := by
  unfold storeChar
  split
  · exact .refl s
  · next st hst =>
    refine .ite (fileStory_bounds _ _ _ _ _) (.ite (storeLow_bounds _ _ _) ?_)
    split
    · exact (setText_bounds hst).trans ((textChanged_bounds _ _).trans
        (.of_frame (keepRefTops_keeps _ _ _) (by decide)))
    · exact fileStory_bounds _ _ _ _ _
    · exact storeLow_bounds _ _ _

theorem storeDamaged_bounds (w : Fin 4) (id : Nat) (s : State) :
    KeepsBounds n s (storeDamaged w id s) :=
  (KeepsBounds.of_frame (raiseWire_keeps s _ _) (by decide)).trans
    ((garble_bounds _ _).trans (storeChar_bounds _ _ _ _))

theorem takeText_bounds (w : Fin 4) (id : Nat) (c : Byte) (s : State) :
    KeepsBounds n s (takeText w id c s) :=
  .ite (storeChar_bounds _ _ _ _) (.ite (fileStory_bounds _ _ _ _ _)
    (.ite (fileStory_bounds _ _ _ _ _) (.refl s)))

theorem headingDone_bounds (w : Fin 4) (got : List Byte) (s : State) :
    KeepsBounds n s (headingDone w got s) := by
  unfold headingDone
  split
  · exact setIntake_bounds _ _ _
  · split
    · exact setIntake_bounds _ _ _
    · split
      · exact (setIntake_bounds _ _ _).trans (.of_frame (raiseWire_keeps _ _ _) (by decide))
      · exact (createStory_bounds fun hs => newStory_legal hs _ _ _ _ _ _ _).trans
          (setIntake_bounds _ _ _)

theorem takeHeading_bounds (w : Fin 4) (got : List Byte) (c : Byte) (s : State) :
    KeepsBounds n s (takeHeading w got c s) :=
  .ite (modWire_le_bounds fun _ => Nat.le_refl _) (.ite (headingDone_bounds _ _ _)
    (.ite (modWire_le_bounds fun _ => Nat.le_refl _)
      ((setIntake_bounds _ _ _).trans (.of_frame (raiseWire_keeps _ _ _) (by decide)))))

theorem intakeChar_bounds (w : Fin 4) (c : WireChar) (s : State) :
    KeepsBounds n s (intakeChar w c s) := by
  have hintake : ∀ i, KeepsBounds n s (setIntake w i s) := fun i => setIntake_bounds w i s
  unfold intakeChar
  split
  · exact .refl s
  · exact .ite (hintake _) (.refl s)
  · exact .ite (hintake _) (.refl s)
  · exact .ite ((hintake _).trans (.of_frame (raiseWire_keeps _ _ _) (by decide)))
      (takeHeading_bounds _ _ _ _)
  · exact .ite (storeDamaged_bounds _ _ _) (takeText_bounds _ _ _ _)

theorem intakeLoss_bounds (w : Fin 4) (s : State) : KeepsBounds n s (intakeLoss w s) := by
  unfold intakeLoss
  split
  · exact setIntake_bounds _ _ _
  · exact garble_bounds _ _
  · exact .refl s

theorem intakeBreak_bounds (w : Fin 4) (s : State) : KeepsBounds n s (intakeBreak w s) := by
  unfold intakeBreak
  split
  · exact .refl s
  · exact .refl s
  · exact setIntake_bounds _ _ _
  · exact setIntake_bounds _ _ _
  · exact fileStory_bounds _ _ _ _ _

theorem takeIntake_bounds (w : Fin 4) (s : State) : KeepsBounds n s (takeIntake w s) := by
  unfold takeIntake
  split
  · exact .refl s
  · next c cs hfifo =>
    have htaken : KeepsBounds n s (modWire w (fun l => { l with fifo := cs }) s) :=
      modWire_bounds fun h => (Nat.le_succ _).trans ((congrArg List.length hfifo).symm.trans_le h)
    have hchar := htaken.trans (intakeChar_bounds w c _)
    have hloss := KeepsBounds.ite (c := c.loss = true) (hchar.trans (intakeLoss_bounds w _)) hchar
    exact .ite (hloss.trans (intakeBreak_bounds _ _)) hloss

theorem wireBreak_bounds (w : Fin 4) (s : State) : KeepsBounds n s (wireBreak w s) :=
  .ite (intakeBreak_bounds _ _) (.ite (.refl s)
    (modWire_le_bounds fun _ => (length_markTail _ _).le))

theorem silenceExpires_bounds (w : Fin 4) (s : State) : KeepsBounds n s (silenceExpires w s) := by
  unfold silenceExpires
  refine .ite (.step ?_ (.of_frame
    (advanceTo_keeps s (s.wires[w].silenceFrom + Config.silenceMs)) (by decide))) (.refl s)
  dsimp only
  split
  · exact fileStory_bounds _ _ _ _ _
  · exact setIntake_bounds _ _ _

theorem changeWire_bounds (w : Fin 4) (on : Bool) (f : LineFormat) (s : State) :
    KeepsBounds n s (changeWire w on f s) := by
  unfold changeWire
  refine KeepsBounds.trans ?_ (modWire_le_bounds fun _ => Nat.zero_le _)
  split
  · exact fileStory_bounds _ _ _ _ _
  · exact .refl s

/-! ### Channels (R140 to R161) -/

/-- What stands in a channel's queues and FIFO does not grow, and no grant's lines come to be kept. -/
def Channel.Shrinks (ch u : Channel) : Prop :=
  u.jobs.length ≤ ch.jobs.length ∧ (u.finished.length ≤ ch.finished.length ∨ u.finished.length ≤ 4) ∧
    u.lines.length ≤ ch.lines.length ∧ u.fifo.length ≤ ch.fifo.length ∧
    (u.grant = .keep → ch.grant = .keep)

theorem Channel.Shrinks.same {ch u : Channel} (hjobs : u.jobs = ch.jobs)
    (hfinished : u.finished = ch.finished) (hlines : u.lines = ch.lines) (hfifo : u.fifo = ch.fifo)
    (hgrant : u.grant = ch.grant) : ch.Shrinks u :=
  ⟨hjobs ▸ Nat.le_refl _, .inl (hfinished ▸ Nat.le_refl _), hlines ▸ Nat.le_refl _,
    hfifo ▸ Nat.le_refl _, fun h => hgrant ▸ h⟩

theorem Channel.Spare.of_shrinks {ch u : Channel} (hs : ch.Shrinks u) (h : ch.Spare n) :
    u.Spare n := by
  obtain ⟨hjobs, hfinished, hlines, hfifo, hgrant⟩ := h
  obtain ⟨kjobs, kfinished, klines, kfifo, kgrant⟩ := hs
  exact ⟨kjobs.trans hjobs, kfinished.elim (·.trans hfinished) id, klines.trans hlines,
    kfifo.trans hfifo, fun hk => (Nat.add_le_add_right klines n).trans (hgrant (kgrant hk))⟩

theorem modChannel_shrinks_bounds {c : Fin 4} {g : Channel → Channel} {s : State}
    (h : s.channels[c].Shrinks (g s.channels[c])) : KeepsBounds n s (modChannel c g s) :=
  modChannel_bounds (Channel.Spare.of_shrinks h)

/-- A change that leaves the queues, the FIFO and the grant alone. -/
theorem modChannel_same_bounds {c : Fin 4} {g : Channel → Channel} {s : State}
    (h : ∀ ch : Channel, (g ch).jobs = ch.jobs ∧ (g ch).finished = ch.finished ∧
      (g ch).lines = ch.lines ∧ (g ch).fifo = ch.fifo ∧ (g ch).grant = ch.grant) :
    KeepsBounds n s (modChannel c g s) := by
  obtain ⟨hjobs, hfinished, hlines, hfifo, hgrant⟩ := h s.channels[c]
  exact modChannel_shrinks_bounds (.same hjobs hfinished hlines hfifo hgrant)

theorem Channel.modEntry_shrinks (i : Nat) (f : Entry → Entry) (ch : Channel) :
    ch.Shrinks (ch.modEntry i f) := by
  refine ⟨?_, .inl (Nat.le_refl _), Nat.le_refl _, Nat.le_refl _, id⟩
  unfold Channel.modEntry
  cases ch.jobs <;> exact Nat.le_refl _

theorem length_addResult_finished (ch : Channel) (r : JobResult) :
    (ch.addResult r).finished.length ≤ 4 := by
  show (List.drop _ _).length ≤ 4
  rw [List.length_drop]
  show _ - (_ - 4) ≤ 4
  omega

theorem reach_bounds (c : Fin 4) (k i : Nat) (s : State) : KeepsBounds n s (reach c k i s) := by
  have hdone : ∀ (p : SetPos) (s : State),
      KeepsBounds n s (modChannel c (fun ch => { ch with pos := p }) s) := fun p s =>
    modChannel_same_bounds fun _ => ⟨rfl, rfl, rfl, rfl, rfl⟩
  induction k generalizing i s with
  | zero => exact hdone _ s
  | succ k ih =>
    unfold reach
    split
    · exact hdone _ s
    · exact .ite (ih _ _) (.ite ((release_bounds _ _).trans
        ((modChannel_shrinks_bounds (Channel.modEntry_shrinks _ _ _)).trans (ih _ _))) (hdone _ s))

theorem recordHead_bounds (o : JobOutcome) (a : AbandonMark) (c : Fin 4) (s : State) :
    KeepsBounds n s (recordHead o a c s) := by
  unfold recordHead
  split
  · exact .refl s
  · next j js hjobs =>
    refine .step (.of_frame (raiseSource_keeps _ _) (by decide)) (modChannel_shrinks_bounds
      ⟨?_, .inr (length_addResult_finished _ _), Nat.le_refl _, Nat.le_refl _, id⟩)
    rw [hjobs]
    exact Nat.le_succ _

theorem startHead_bounds (c : Fin 4) (k : Nat) (s : State) :
    KeepsBounds n s (startHead c k s) := by
  induction k generalizing s with
  | zero => exact .refl s
  | succ k ih =>
    unfold startHead
    split
    · exact modChannel_same_bounds fun _ => ⟨rfl, rfl, rfl, rfl, rfl⟩
    · have hreached : KeepsBounds n s
          (reach c reachFuel 0 (modChannel c (fun ch => { ch with state := .running }) s)) :=
        .step (reach_bounds _ _ _ _) (modChannel_same_bounds fun _ => ⟨rfl, rfl, rfl, rfl, rfl⟩)
      exact .ite (hreached.trans ((recordHead_bounds _ _ _ _).trans (ih _))) hreached

theorem endJob_bounds (o : JobOutcome) (a : AbandonMark) (c : Fin 4) (s : State) :
    KeepsBounds n s (endJob o a c s) :=
  (recordHead_bounds o a c s).trans (startHead_bounds _ _ _)

theorem releaseSent_bounds (c : Fin 4) (id : Nat) (s : State) :
    KeepsBounds n s (releaseSent c id s) := by
  unfold releaseSent
  split
  · exact .refl s
  · next st _ =>
    have hreleased : ∀ g : Channel → Channel, (∀ ch : Channel, ch.Shrinks (g ch)) → KeepsBounds n s
        (modChannel c g (release id { s with memory := clearFlags s.memory st.chain })) :=
      fun g hg => (KeepsBounds.of_frame (keeps_memory s _) (by decide)).trans
        ((release_bounds _ _).trans (modChannel_shrinks_bounds (hg _)))
    refine .ite (.step (endJob_bounds _ _ _ _) (hreleased _ ?_)) (hreleased _ ?_)
    all_goals
      refine fun ch => ⟨?_, .inl (Nat.le_refl _), Nat.le_refl _, Nat.le_refl _, fun h => h⟩
      cases ch.jobs
      · exact Nat.le_refl _
      · exact Nat.le_refl _

theorem Channel.emptyOutput_shrinks (ch : Channel) : ch.Shrinks ch.emptyOutput :=
  ⟨Nat.le_refl _, .inl (Nat.le_refl _), Nat.zero_le _, Nat.zero_le _, id⟩

theorem stall_bounds (c : Fin 4) (s : State) : KeepsBounds n s (stall c s) := by
  unfold stall
  split
  · exact .step (.of_frame (raiseSource_keeps _ _) (by decide))
      (modChannel_same_bounds fun _ => ⟨rfl, rfl, rfl, rfl, rfl⟩)
  · exact (modChannel_shrinks_bounds (Channel.emptyOutput_shrinks _)).trans (endJob_bounds _ _ _ _)
  · exact .refl s

theorem releaseJob_bounds (j : Job) (s : State) : KeepsBounds n s (releaseJob j s) :=
  .foldl _ (fun _ _ => release_bounds _ _) _ s

/-- A job joins the queue where it has room (R140). -/
theorem acceptJob_bounds (c : Fin 4) (ed : Fin 5) (es : List Entry) (s : State)
    (h : s.channels[c].jobs.length < 4) : KeepsBounds n s (acceptJob c ed es s) := by
  have hclaimed : KeepsBounds n s
      (es.foldl (fun s e => claim e.story (.setting c) s) { s with lastJob := nextNumber s }) :=
    (KeepsBounds.of_frame (keeps_lastJob s _) (by decide)).trans
      (.foldl _ (fun _ _ => claim_bounds _ _ _) _ _)
  have hchannels : (es.foldl (fun s e => claim e.story (.setting c) s)
      { s with lastJob := nextNumber s }).channels = s.channels :=
    ((KeepsBut.foldl (fs := [.stories]) _ (fun _ _ => claim_keeps _ _ _) _ _) .channels
      (by decide))
  have hqueued := hclaimed.trans (modChannel_bounds (c := c)
    (g := fun ch => { ch with jobs := ch.jobs ++ [⟨nextNumber s, ed, es⟩] })
    fun ⟨_, hfinished, hlines, hfifo, hgrant⟩ => ⟨by
      rw [hchannels, List.length_append]
      exact h, hfinished, hlines, hfifo, hgrant⟩)
  exact .ite (hqueued.trans (startHead_bounds _ _ _)) hqueued

theorem changeSettings_bounds (c : Fin 4) (r th w l : Nat) (s : State) :
    KeepsBounds n s (changeSettings c r th w l s) := by
  have hset : KeepsBounds n s (modChannel c (fun ch => Channel.testBatch s.now { ch with
      rate := r, threshold := th, waitChoice := w, stallChoice := l
      stallFrom := if l = 0 then none else ch.stallFrom }) s) :=
    modChannel_same_bounds fun _ => ⟨rfl, rfl, rfl, rfl, rfl⟩
  exact .ite (hset.trans (stall_bounds _ _)) hset

theorem Grant.discarded_ne_keep (g : Grant) : g.discarded ≠ .keep := by cases g <;> decide

theorem Channel.flush_shrinks (i : Nat) (ch : Channel) : ch.Shrinks (ch.flush i) :=
  ⟨Nat.le_refl _, .inl (Nat.le_refl _), Nat.zero_le _, Nat.zero_le _,
    fun h => absurd h (Grant.discarded_ne_keep _)⟩

/-- The abandon code is all that a cancelled job leaves in the FIFO (R160). -/
theorem Channel.cancel_spare (now : Nat) (j : Job) {ch : Channel} (h : ch.Spare n) :
    (ch.cancel now j).Spare n := by
  obtain ⟨hjobs, hfinished, -, -, -⟩ := h
  refine ⟨?_, hfinished, Nat.zero_le _, ?_, fun h => absurd h (Grant.discarded_ne_keep _)⟩
  · show (j.givenBack :: ch.jobs.tail).length ≤ 4
    rw [List.length_cons, List.length_tail]
    omega
  · show ((SetCode.abandon j.number).outBytes now).length ≤ 64
    simp [SetCode.outBytes, SetCode.bytes, e8]

theorem cancelQueued_bounds (c : Fin 4) (j : Job) (s : State) :
    KeepsBounds n s (cancelQueued c j s) :=
  (releaseJob_bounds j s).trans (.step (.of_frame (raiseSource_keeps _ _) (by decide))
    (modChannel_shrinks_bounds ⟨List.length_erase_le, .inr (length_addResult_finished _ _),
      Nat.le_refl _, Nat.le_refl _, id⟩))

theorem typesetterByteSent_bounds (c : Fin 4) (s : State) :
    KeepsBounds n s (typesetterByteSent c s) := by
  unfold typesetterByteSent
  split
  · exact .refl s
  · exact modChannel_same_bounds fun _ => ⟨rfl, rfl, rfl, rfl, rfl⟩
  · have hsent : KeepsBounds n s (modChannel c Channel.byteSent s) :=
      modChannel_shrinks_bounds ⟨Nat.le_refl _, .inl (Nat.le_refl _), Nat.le_refl _,
        List.length_tail ▸ Nat.sub_le _ _, id⟩
    refine hsent.trans ?_
    unfold byteEnds
    split
    · exact .refl _
    · exact releaseSent_bounds _ _ _
    · exact endJob_bounds _ _ _ _

theorem batchWaitExpires_bounds (c : Fin 4) (s : State) :
    KeepsBounds n s (batchWaitExpires c s) := by
  unfold batchWaitExpires
  split
  · exact .ite (.refl s) ((KeepsBounds.of_frame (advanceTo_keeps s _) (by decide)).trans
      (modChannel_same_bounds fun _ => ⟨rfl, rfl, rfl, rfl, rfl⟩))
  · exact .refl s

theorem channelStalls_bounds (c : Fin 4) (s : State) : KeepsBounds n s (channelStalls c s) := by
  unfold channelStalls
  split
  · exact (KeepsBounds.of_frame (advanceTo_keeps s _) (by decide)).trans (stall_bounds _ _)
  · exact .refl s

end Sys2Proof.Machine
end

section
/-! SUPPORT. The end of a channel's grant, loaded faces, the starts and the end of an event keep every bound (R74, R118, R145 to R149, R193). -/

namespace Sys2Proof.Machine

variable {n : Nat}

/-! ### The lines of a grant (R145) -/

theorem length_setLines_le (k : SetWith) (para m : Nat) (first : Bool) (text : List Byte) :
    (setLines k para m first text).1.length ≤ m := by
  induction m generalizing first text with
  | zero => exact Nat.le_refl _
  | succ m ih =>
    cases text with
    | nil => exact Nat.zero_le _
    | cons c cs => exact Nat.succ_le_succ (ih _ _)

theorem length_grantWork_le (k : SetWith) (text : List Byte) (r : Resume) :
    (grantWork k text r).1.length ≤ 64 := by
  unfold grantWork
  dsimp only
  split
  · exact Nat.zero_le _
  split
  · split
    · exact (by decide : 1 ≤ 64)
    · exact Nat.zero_le _
  split
  · exact length_setLines_le _ _ _ _ _
  · exact length_setLines_le _ _ _ _ _

theorem length_wrapEntries_le (first last : List SetCode) (l : List (List SetCode)) :
    (wrapEntries first last l).length ≤ max 1 l.length := by
  cases l with
  | nil =>
    rw [wrapEntries]
    split
    · exact Nat.zero_le _
    · exact Nat.le_refl _
  | cons x xs =>
    have hlast : ∀ o : Option (List SetCode), (o.toList.map fun l => l ++ last).length ≤ 1
      | none => Nat.zero_le _
      | some _ => Nat.le_refl _
    have h := hlast ((first ++ x) :: xs).getLast?
    simp only [wrapEntries, List.length_append, List.length_dropLast, List.length_cons] at h ⊢
    omega

theorem length_channelGrant_le (s : State) (e : Entry) (st : Story) (r : Resume) (started : Bool) :
    (channelGrant s e st r started).1.length ≤ 64 := by
  unfold channelGrant
  refine (length_wrapEntries_le _ _ _).trans (Nat.max_le.mpr ⟨by decide, ?_⟩)
  rw [List.length_map]
  split
  · exact Nat.zero_le _
  · exact length_grantWork_le _ _ _

/-- The lines of a grant are kept: at most 64 join the line queue, and what follows keeps the bounds. -/
theorem takeLines_adds (c : Fin 4) (s : State) : takeLines c s = s ∨
    ∃ l : List (List SetCode), l.length ≤ 64 ∧ ∀ m, KeepsBounds m
      (modChannel c (fun ch => { ch with lines := ch.lines ++ l }) s) (takeLines c s) := by
  unfold takeLines
  split
  · exact .inl rfl
  split
  · exact .inl rfl
  next i r started _ _ e _ =>
  split
  · exact .inl rfl
  next st _ =>
  refine .inr ⟨_, length_channelGrant_le s e st r started, fun m => ?_⟩
  dsimp only
  split
  · exact modChannel_same_bounds fun _ => ⟨rfl, rfl, rfl, rfl, rfl⟩
  · exact reach_bounds _ _ _ _

/-- The channel's grant has ended. -/
def Channel.granted (ch : Channel) : Channel := { ch with grant := .none }

theorem Channel.Spare.granted {ch : Channel} {m : Nat} (h : ch.Spare m) : ch.granted.Spare n := by
  obtain ⟨hjobs, hfinished, hlines, hfifo, -⟩ := h
  exact ⟨hjobs, hfinished, hlines, hfifo, fun hk => nomatch hk⟩

/-- A kept grant had room for its lines (R146). -/
theorem keptLines_bounds (c : Fin 4) {s : State} (hkeep : s.channels[c].grant = .keep) :
    KeepsBounds 64 s (modChannel c Channel.granted (takeLines c s)) := by
  rcases takeLines_adds c s with hsame | ⟨l, hl, hrest⟩
  · rw [hsame]
    exact modChannel_bounds Channel.Spare.granted
  have hframe : KeepsBut [.channels, .stories] s (modChannel c Channel.granted (takeLines c s)) :=
    (modChannel_keeps _ _ _).step (by decide) (takeLines_keeps c s)
  intro f
  cases f with
  | channels =>
    intro x hx
    by_cases hxc : x = c
    · subst hxc
      rw [modChannel_self]
      refine Channel.Spare.granted (hrest 0 .channels x ?_)
      rw [modChannel_self]
      obtain ⟨hjobs, hfinished, -, hfifo, hroom⟩ := hx
      have hlines : (s.channels[x].lines ++ l).length ≤ 128 := by
        have := hroom hkeep
        rw [List.length_append]
        omega
      exact ⟨hjobs, hfinished, hlines, hfifo, fun _ => hlines⟩
    · rw [modChannel_other _ _ hxc]
      refine hrest 64 .channels x ?_
      rwa [modChannel_other _ _ hxc]
  | stories => exact hrest 64 .stories
  | _ => exact .of_same (hframe _ (by decide))

theorem channelGrantEnds_bounds (c : Fin 4) (s : State) :
    KeepsBounds 64 s (channelGrantEnds c s) := by
  unfold channelGrantEnds
  refine .ite (.step (.of_frame (freeEngine_keeps _) (by decide)) ?_) (.refl s)
  split
  · next hkeep => exact keptLines_bounds c hkeep
  · exact modChannel_bounds Channel.Spare.granted

/-! ### Faces (R118) -/

theorem u8_le_of_all {w : List Byte} {m : Nat} (h : ∀ x ∈ w, x.toNat ≤ m) (i : Nat) : u8 w i ≤ m := by
  show (w.getD i 0).toNat ≤ m
  rw [List.getD_eq_getElem?_getD]
  cases hi : w[i]? with
  | none => exact Nat.zero_le _
  | some x => exact h x (List.mem_of_getElem? hi)

/-- A width table that is taken (R118). -/
theorem tableBad_eq_false {w : List Byte} {a b : Nat} (h : tableBad w a b = false) :
    (∀ x ∈ w, x.toNat ≤ 36) ∧ 1 ≤ a ∧ a ≤ u8 w 0 ∧ u8 w 0 ≤ b ∧ b ≤ 36 := by
  simp only [tableBad, Bool.or_eq_false_iff, List.any_eq_false, decide_eq_true_eq,
    decide_eq_false_iff_not, Nat.not_lt] at h
  obtain ⟨⟨⟨⟨⟨hwidths, -⟩, hmin⟩, hnormal⟩, hmax⟩, hb⟩ := h
  exact ⟨hwidths, Nat.pos_of_ne_zero hmin, hnormal, hmax, hb⟩

theorem loadFace_bounds (f : Fin 8) {w : List Byte} {a b : Nat} (s : State)
    (h : tableBad w a b = false) : KeepsBounds n s (loadFace f w a b s) := by
  obtain ⟨hwidths, hmin, hnormal, hmax, hb⟩ := tableBad_eq_false h
  unfold loadFace
  refine .step (.foldl _ (fun s id => autoOffer_bounds id s) _ _) fun fld => ?_
  cases fld with
  | faces =>
    intro hs x
    by_cases hx : x = f
    · subst hx
      simp only [Fin.getElem_fin, Vector.getElem_set_self, Vector.getElem_ofFn]
      exact fun _ => ⟨hmin, hnormal, hmax, hb, fun i => u8_le_of_all hwidths i⟩
    · have hother : ∀ r : Face, (s.faces.set f r)[x] = s.faces[x] := fun r =>
        Vector.getElem_set_ne f.isLt x.isLt fun he => hx (Fin.ext he.symm)
      simp only [hother]
      exact hs x
  | stories => exact mapVal_bounds (outdateFace f) (outdateFace_setting f) rfl
  | _ => exact .of_same rfl

/-! ### Starts (R193) -/

theorem start_bounds (cause : StartCause) (tag : Byte) (ready : Fin 4 → Bool)
    (sending : Fin 4 → OutTx) (now : Nat) (pending : List Instr) (s : State) :
    KeepsBounds n s (State.start cause tag ready sending now pending) := by
  intro f
  cases f with
  | keys => exact fun _ => Nat.zero_le _
  | fit => exact fun _ => Nat.zero_le _
  | lines =>
    intro t _
    have hline : (State.start cause tag ready sending now pending).lines[t] = Line.reset :=
      Vector.getElem_replicate _
    exact hline ▸ ⟨Nat.zero_le _, Nat.zero_le _⟩
  | wires =>
    intro w _
    have hwire : (State.start cause tag ready sending now pending).wires[w] = Wire.reset :=
      Vector.getElem_replicate _
    exact hwire ▸ Nat.zero_le _
  | channels =>
    intro c _
    have hchannel : (State.start cause tag ready sending now pending).channels[c] =
        { Channel.reset with ready := ready c, sending := sending c } := Vector.getElem_ofFn _
    exact hchannel ▸ ⟨Nat.zero_le _, Nat.zero_le _, Nat.zero_le _, Nat.zero_le _, nofun⟩
  | faces =>
    intro _ x hx
    have hface : (State.start cause tag ready sending now pending).faces[x] = Face.reset :=
      Vector.getElem_replicate _
    rw [hface] at hx
    cases hx
  | baskets =>
    intro _ b x hx
    have hbasket : (State.start cause tag ready sending now pending).baskets[b] = Basket.reset :=
      Vector.getElem_replicate _
    rw [hbasket] at hx
    cases hx
  | stories => exact fun _ e he => absurd he List.not_mem_nil
  | screens =>
    intro t _
    have hscreen : (State.start cause tag ready sending now pending).screens[t] = Screen.reset :=
      Vector.getElem_replicate _
    exact hscreen ▸ Screen.inOrder_of_noHand (List.nil_sublist _) rfl
  | _ => trivial

theorem warmScreen_inOrder (now : Nat) (attached : Bool) {sc : Screen} (h : sc.InOrder) :
    (warmScreen now attached sc).InOrder := by
  unfold warmScreen
  dsimp only
  split
  · exact Screen.repaint_inOrder _
  · exact Screen.inOrder_of_noHand h.1 rfl

/-- The results of a WARM restart's jobs leave at most the last 4 (R161, R193). -/
theorem length_foldl_addResult_finished (rs : List JobResult) {ch : Channel}
    (h : ch.finished.length ≤ 4) :
    (rs.foldl (fun ch r => ch.addResult r) ch).finished.length ≤ 4 := by
  induction rs generalizing ch with
  | nil => exact h
  | cons r rs ih => exact ih (length_addResult_finished _ _)

theorem warmChannel_spare {ch : Channel} (h : ch.Spare n) : (warmChannel ch).Spare n := by
  obtain ⟨-, hfinished, -, -, -⟩ := h
  have hlast : (warmChannel ch).finished.length ≤ 4 :=
    length_foldl_addResult_finished _ hfinished
  rw [warmChannel_eq]
  exact ⟨Nat.zero_le _, hlast, Nat.zero_le _, Nat.zero_le _, nofun⟩

theorem warmStart_bounds (tag : Byte) (s : State) : KeepsBounds n s (warmStart tag s) := by
  intro f
  cases f with
  | keys => exact fun _ => Nat.zero_le _
  | fit => exact fun _ => Nat.zero_le _
  | lines => exact fun t _ => (warmStart_line tag s t).symm ▸ ⟨Nat.zero_le _, Nat.zero_le _⟩
  | wires => exact fun w _ => (warmStart_wire tag s w).symm ▸ Nat.zero_le _
  | channels => exact fun c h => (warmStart_channel tag s c).symm ▸ warmChannel_spare h
  | stories => exact mapVal_bounds warmStory (fun _ => rfl) rfl
  | screens => exact fun t h => (warmStart_screen tag s t).symm ▸ warmScreen_inOrder _ _ h
  | faces | baskets => exact .of_same rfl
  | _ => trivial

theorem startAs_bounds (c : StartCause) (tag : Byte) (s : State) :
    KeepsBounds n s (startAs c tag s) := by
  cases c with
  | warm => exact warmStart_bounds tag s
  | cold => exact start_bounds _ _ _ _ _ _ s
  | powerOn => exact start_bounds _ _ _ _ _ _ s

/-! ### The end of an event (R74) -/

/-- A code moves only where it fits whole (R151). -/
theorem moveCodes_fits (now k : Nat) (lines : List (List SetCode)) (fifo : List OutByte)
    (h : fifo.length ≤ 64) : (moveCodes now k lines fifo).1.length ≤ lines.length ∧
      (moveCodes now k lines fifo).2.length ≤ 64 := by
  induction k generalizing lines fifo with
  | zero => exact ⟨Nat.le_refl _, h⟩
  | succ k ih =>
    match lines with
    | [] => exact ⟨Nat.le_refl _, h⟩
    | [] :: lines =>
      obtain ⟨hlines, hfifo⟩ := ih lines fifo h
      exact ⟨hlines.trans (Nat.le_succ _), hfifo⟩
    | (c :: cs) :: lines =>
      rw [moveCodes]
      split
      · next hroom =>
        have hplaced : (fifo ++ c.outBytes now).length ≤ 64 := by
          rw [List.length_append, SetCode.outBytes, List.length_map, List.length_zipIdx]
          exact hroom
        obtain ⟨hlines, hfifo⟩ := ih (if cs = [] then lines else cs :: lines) _ hplaced
        refine ⟨hlines.trans ?_, hfifo⟩
        split
        · exact Nat.le_succ _
        · exact Nat.le_refl _
      · exact ⟨Nat.le_refl _, h⟩

theorem Channel.moveIn_eq (now : Nat) (ch : Channel) : ch.moveIn now = { ch with
    lines := (moveCodes now moveFuel ch.lines ch.fifo).1
    fifo := (moveCodes now moveFuel ch.lines ch.fifo).2
    batchOpen := (ch.moveIn now).batchOpen } := by
  unfold Channel.moveIn
  dsimp only
  split <;> rfl

theorem Channel.settle_spare (now : Nat) {ch : Channel} (h : ch.Spare n) : (ch.settle now).Spare n := by
  obtain ⟨hjobs, hfinished, hlines, hfifo, hgrant⟩ := h
  obtain ⟨klines, kfifo⟩ := moveCodes_fits now moveFuel ch.lines ch.fifo hfifo
  unfold Channel.settle
  rw [Channel.moveIn_eq]
  exact ⟨hjobs, hfinished, klines.trans hlines, kfifo, fun hk =>
    (Nat.add_le_add_right klines n).trans (hgrant hk)⟩

theorem moveAll_bounds (s : State) : KeepsBounds n s (moveAll s) := by
  refine .of_field .channels (moveAll_keeps s) (by decide) fun c h => ?_
  have hchannel : (moveAll s).channels[c] = s.channels[c].settle s.now := Vector.getElem_ofFn _
  exact hchannel ▸ Channel.settle_spare s.now h

theorem requesting_of_grantee {s : State} {k : Client} (h : grantee s = some k) :
    requesting s k = true := by
  have hasking : k ∈ (clientsAfter s.engine.last).filter (requesting s) := by
    unfold grantee at h
    split at h
    · cases h
    · unfold chooseClient at h
      dsimp only at h
      split at h
      · exact List.mem_of_head? h
      · exact List.mem_of_find?_eq_some h
  exact (List.mem_filter.mp hasking).2

/-- The engine is granted to a channel with room for a grant's lines (R146, R148). -/
theorem grantEngine_bounds (s : State) : KeepsBounds 64 s (grantEngine s) := by
  unfold grantEngine
  split
  · exact .refl s
  next k hk =>
  intro f
  cases f with
  | channels =>
    cases k with
    | fit => exact fun _ => id
    | channel c =>
      intro x hx
      by_cases hxc : x = c
      · subst hxc
        have hroom := requesting_of_grantee hk
        simp only [requesting, Bool.and_eq_true, decide_eq_true_eq] at hroom
        obtain ⟨hjobs, hfinished, hlines, hfifo, -⟩ := hx
        have hself : ∀ ch : Channel, (s.channels.set x ch)[x] = ch := fun _ =>
          Vector.getElem_set_self x.isLt
        simp only [hself]
        exact ⟨hjobs, hfinished, hlines, hfifo, fun _ => hroom.2⟩
      · have hother : ∀ ch : Channel, (s.channels.set c ch)[x] = s.channels[x] := fun ch =>
          Vector.getElem_set_ne c.isLt x.isLt fun he => hxc (Fin.ext he.symm)
        simp only [hother]
        exact hx
  | fit =>
    cases k with
    | fit => exact id
    | channel c => exact id
  | engine => trivial
  | _ => exact .of_same rfl

theorem refreshTerminal_fits (s : State) (t : Fin 32) (h : s.lines[t].Fits) :
    (refreshTerminal s t).2.Fits := by
  cases ha : s.lines[t].attached with
  | false => exact (refreshTerminal_detached s t ha).symm ▸ h
  | true => exact (refreshTerminal_attached s t ha).symm ▸ ⟨h.1, emit_length_le _ _ h.2⟩

theorem refreshTerminal_inOrder (s : State) (t : Fin 32) (h : s.screens[t].InOrder) :
    (refreshTerminal s t).1.InOrder := by
  cases ha : s.lines[t].attached with
  | false => exact (refreshTerminal_detached s t ha).symm ▸ h
  | true =>
    rw [refreshTerminal_attached s t ha]
    exact emit_inOrder _ _ (recompose_inOrder _ h)

theorem refreshAll_bounds (s : State) : KeepsBounds n s (refreshAll s) := by
  intro f
  cases f with
  | lines =>
    intro t h
    have hline : (refreshAll s).lines[t] = (refreshTerminal s t).2 := Vector.getElem_ofFn _
    exact hline ▸ refreshTerminal_fits s t h
  | screens =>
    intro t h
    have hscreen : (refreshAll s).screens[t] = (refreshTerminal s t).1 := Vector.getElem_ofFn _
    exact hscreen ▸ refreshTerminal_inOrder s t h
  | _ => exact .of_same (refreshAll_keeps s _ (by decide))

theorem settle_bounds (s : State) : KeepsBounds 64 s (settle s) :=
  .step (.of_frame (transmit_keeps _) (by decide)) (.step (refreshAll_bounds _)
    (.step (grantEngine_bounds _) (moveAll_bounds s)))

end Sys2Proof.Machine
end

section
/-! SUPPORT. What the owners' answers leave of the bounds (R64 to R178). -/

namespace Sys2Proof.Machine

/-- An owner that finds its story answers a state that keeps the bounds. -/
theorem withStory_bounds {n : Nat} {id : Nat} {s : State} {k : Story → Answer}
    (h : ∀ st, storyOf s id = some st → Leads (KeepsBounds n) s (k st)) :
    Leads (KeepsBounds n) s (withStory id s k) := by
  unfold withStory
  refine .ite (.refuse (.refl s) _) ?_
  split
  · exact .refuse (.refl s) _
  · next st hst => exact h st hst

section
variable {n : Nat} (b : List Byte) (s : State)

theorem ownCreateStory_bounds : Leads (KeepsBounds n) s (ownCreateStory b s) := by
  have same := KeepsBounds.refl (n := n) s
  refine withText_leads same fun slug => .ite (.refuse same _) ?_
  split
  · split
    · exact .refuse same _
    · exact createStory_bounds fun hs => newStory_legal hs _ _ _ _ _ _ _
  · exact .refuse same _

theorem ownSetFlags_bounds : Leads (KeepsBounds n) s (ownSetFlags b s) :=
  withStory_bounds fun _ hst => setStory_same_bounds hst rfl

theorem ownWriteText_bounds : Leads (KeepsBounds n) s (ownWriteText b s) :=
  have same := KeepsBounds.refl s
  withText_leads same fun _ => withStory_leads same fun _ => .ite (.refuse same _)
    (.ite (.unchanged same _) (.ite (.refuse same _) (.ite (.refuse same _)
      (writeText_bounds _ _ _ _ s))))

theorem ownSpikeStory_bounds : Leads (KeepsBounds n) s (ownSpikeStory b s) :=
  have same := KeepsBounds.refl s
  withStory_leads same fun _ => .ite (.unchanged same _) (.ite (.refuse same _)
    (.of (spike_bounds _ _ s)))

theorem ownSetDesk_bounds : Leads (KeepsBounds n) s (ownSetDesk b s) := by
  have same := KeepsBounds.refl (n := n) s
  unfold ownSetDesk
  split
  · exact .refuse same _
  · dsimp only
    split
    · exact .refuse same _
    · exact .of (.step (recheckWhere_bounds _ _ _) (.of_frame (keeps_desks s _) (by decide)))

/-- SET BASKET takes a default brought into Table 7-1 (R29, R122). -/
theorem legal_of_defaultAt {b : List Byte} {d : Option Setting} (h : defaultAt b = some d)
    {x : Setting} (hx : d = some x) : x.Legal := by
  unfold defaultAt at h
  split at h
  · obtain ⟨y, -, hy⟩ := Option.map_eq_some_iff.mp h
    rw [← hy] at hx
    cases hx
    exact clampSetting_legal y
  · cases h
    cases hx

theorem ownSetBasket_bounds : Leads (KeepsBounds n) s (ownSetBasket b s) := by
  refine withText_leads (.refl s) fun _ => ?_
  split
  · next hd => exact modBasket_bounds fun _ hx => .inr (legal_of_defaultAt hd hx)
  · exact .refuse (.refl s) _

theorem ownMoveStory_bounds : Leads (KeepsBounds n) s (ownMoveStory b s) := by
  have same := KeepsBounds.refl (n := n) s
  unfold ownMoveStory
  dsimp only
  split
  · refine withStory_leads same fun st => withActing_leads same fun acting =>
      .ite (.unchanged same _) (.ite (.refuse same _) ?_)
    split
    · exact .of (moveTo_bounds _ _ _ _)
    · exact .ite (.of (.step (moveTo_bounds _ _ _ _) (closeSession_bounds _ _ _)))
        (.unchanged same _)
    · exact .unchanged same _
    · exact .unchanged same _
  · exact .refuse same _

theorem ownSetStoryKey_bounds : Leads (KeepsBounds n) s (ownSetStoryKey b s) := by
  have same := KeepsBounds.refl (n := n) s
  unfold ownSetStoryKey
  dsimp only
  split
  · exact withStory_bounds fun _ hst => .ite (.unchanged same _)
      (.of (.step (recheckWhere_bounds _ _ _) (setStory_same_bounds hst rfl)))
  · split
    · exact .refuse same _
    · exact .unchanged same _

theorem ownAssignTerminal_bounds : Leads (KeepsBounds n) s (ownAssignTerminal b s) := by
  unfold ownAssignTerminal
  split
  · exact .ite (.of (reassign_bounds _ _ s)) (.of (attach_bounds _ _ s))
  · exact .refuse (.refl s) _

theorem ownDetachTerminal_bounds : Leads (KeepsBounds n) s (ownDetachTerminal b s) :=
  have same := KeepsBounds.refl s
  withTerminal_leads same fun t => .ite (.of (detach_bounds t s)) (.refuse same _)

theorem ownTakeKeys_bounds : Leads (KeepsBounds n) s (ownTakeKeys b s) :=
  .of (KeepsBounds.ite (removeKeys_bounds _ s) (.refl s))

/-- An order that writes a screen's base layer or its status (R77, R78, R84). -/
theorem ownPutScreenText_bounds : Leads (KeepsBounds n) s (ownPutScreenText b s) := by
  refine withText_leads (.refl s) fun _ => ?_
  split
  · exact modScreen_same_bounds fun _ => ⟨rfl, rfl⟩
  · exact .refuse (.refl s) _

theorem ownFillBase_bounds : Leads (KeepsBounds n) s (ownFillBase b s) := by
  unfold ownFillBase
  dsimp only
  split
  · exact modScreen_same_bounds fun _ => ⟨rfl, rfl⟩
  · exact .refuse (.refl s) _

theorem ownSetStatus_bounds : Leads (KeepsBounds n) s (ownSetStatus b s) :=
  withText_leads (.refl s) fun _ => withTerminal_leads (.refl s) fun _ =>
    .of (modScreen_same_bounds fun _ => ⟨rfl, rfl⟩)

theorem ownRepaint_bounds : Leads (KeepsBounds n) s (ownRepaint b s) :=
  withTerminal_leads (.refl s) fun t => .ite (.of (repaint_bounds t s)) (.refuse (.refl s) _)

theorem watchTarget_bounds (w target : Fin 32) :
    Leads (KeepsBounds n) s (watchTarget w target s) :=
  have same := KeepsBounds.refl s
  .ite (.refuse same _) (.ite (.refuse same _) (.ite (.refuse same _) (.ite (.refuse same _)
    (.ite (.refuse same _) (.of (setMode_bounds _ _ s))))))

theorem ownSetWatch_bounds : Leads (KeepsBounds n) s (ownSetWatch b s) := by
  have same := KeepsBounds.refl (n := n) s
  refine withTerminal_leads same fun w => ?_
  split
  · exact .of (KeepsBounds.ite (setMode_bounds _ _ s) same)
  · split
    · exact .refuse same _
    · exact .ite (.refuse same _) (watchTarget_bounds s w _)

theorem ownSetRotation_bounds : Leads (KeepsBounds n) s (ownSetRotation b s) := by
  have same := KeepsBounds.refl (n := n) s
  refine withTerminal_leads same fun t => .ite (.refuse same _) ?_
  dsimp only
  refine .ite (.refuse same _) ?_
  split
  · exact .refuse same _
  · split
    · exact .refuse same _
    · exact .of (.ite (endRotation_bounds t s) (beginRotation_bounds _ _ _ _ s))

theorem ownOpenWindow_bounds : Leads (KeepsBounds n) s (ownOpenWindow b s) := by
  have same := KeepsBounds.refl (n := n) s
  unfold ownOpenWindow
  split
  · exact withStory_leads same fun st => .ite (.refuse same _) (.ite (.refuse same _)
      (.ite (.refuse same _) (.ite
        (.ite (.refuse same _) (.ite (.unchanged same _) (.of (openEdit_bounds _ _ _ _ s))))
        (.ite (.refuse same _) (.of (.of_frame (openRef_keeps _ _ _ _ s) (by decide)))))))
  · exact .refuse same _

theorem ownCloseWindow_bounds : Leads (KeepsBounds n) s (ownCloseWindow b s) := by
  have same := KeepsBounds.refl (n := n) s
  unfold ownCloseWindow
  split
  · split
    · exact closeSession_bounds _ _ s
    · exact .refuse same _
  · split
    · exact .of (.of_frame (clearRef_keeps _ s) (by decide))
    · exact .refuse same _
  · exact .refuse same _

theorem ownSetWidths_bounds : Leads (KeepsBounds n) s (ownSetWidths b s) := by
  have same := KeepsBounds.refl (n := n) s
  unfold ownSetWidths
  split
  · exact .refuse same _
  · dsimp only
    split
    · exact .refuse same _
    next hgood =>
    split
    · exact .unchanged same _
    · exact loadFace_bounds _ s (Bool.eq_false_iff.mpr hgood)

theorem ownSetSetting_bounds : Leads (KeepsBounds n) s (ownSetSetting b s) := by
  have same := KeepsBounds.refl (n := n) s
  unfold ownSetSetting
  dsimp only
  split
  · exact .refuse same _
  · refine withStory_leads same fun st => ?_
    split
    · exact .unchanged same _
    · exact .of (KeepsBounds.ite same (changeSetting_bounds _ _ s (clampSetting_legal _)))

theorem ownFitStory_bounds : Leads (KeepsBounds n) s (ownFitStory b s) := by
  have same := KeepsBounds.refl (n := n) s
  refine withStory_leads same fun st => ?_
  split
  · exact .refuse same _
  split
  · exact .unchanged same _
  split
  · exact .refuse same _
  next hroom => exact .of (joinFitQueue_bounds _ (Nat.lt_of_not_le hroom))

theorem ownQueueJob_bounds : Leads (KeepsBounds n) s (ownQueueJob b s) := by
  have same := KeepsBounds.refl (n := n) s
  refine .ite (.refuse same _) ?_
  split
  · unfold queueJob
    split
    · exact .unchanged same _
    split
    · exact .refuse same _
    next hroom =>
    split
    · exact .unchanged same _
    · exact acceptJob_bounds _ _ _ s (Nat.lt_of_not_le hroom)
  · exact .refuse same _

theorem ownSetChannel_bounds : Leads (KeepsBounds n) s (ownSetChannel b s) :=
  withChannel_leads (.refl s) fun _ => .of (changeSettings_bounds _ _ _ _ _ s)

theorem ownResume_bounds : Leads (KeepsBounds n) s (ownResume b s) := by
  have same := KeepsBounds.refl (n := n) s
  refine withChannel_leads same fun c => ?_
  split
  · exact modChannel_same_bounds fun _ => ⟨rfl, rfl, rfl, rfl, rfl⟩
  · exact .unchanged same _
  · exact .unchanged same _
  · exact .unchanged same _

theorem ownFlushChannel_bounds : Leads (KeepsBounds n) s (ownFlushChannel b s) := by
  have same := KeepsBounds.refl (n := n) s
  refine withChannel_leads same fun c => ?_
  split
  · exact .unchanged same _
  · exact .unchanged same _
  · exact .unchanged same _
  · exact modChannel_shrinks_bounds (Channel.flush_shrinks _ _)

theorem ownCancelJob_bounds : Leads (KeepsBounds n) s (ownCancelJob b s) := by
  have same := KeepsBounds.refl (n := n) s
  refine withChannel_leads same fun c => .ite (.refuse same _) ?_
  split
  · exact .refuse same _
  · refine .ite ?_ ?_
    · exact .ite (.refuse same _) (.of (.step (modChannel_bounds (Channel.cancel_spare _ _))
        (releaseJob_bounds _ s)))
    · split
      · exact .refuse same _
      · exact cancelQueued_bounds _ _ s

theorem ownSetWireLine_bounds : Leads (KeepsBounds n) s (ownSetWireLine b s) := by
  unfold ownSetWireLine
  split
  · exact .refuse (.refl s) _
  · exact .of (.ite (.refl s) (changeWire_bounds _ _ _ s))

end

end Sys2Proof.Machine
end

section
/-! SUPPORT. The link's queues and its watch (R183 to R185, R189, R190), and every step keeping every bound. -/

namespace Sys2Proof.Machine

/-! ### The link -/

/-- The inbound and the reply queue hold no more than their capacities (R183, R185). -/
def LinkQueues (s : State) : Prop := s.link.inbound.length ≤ 8 ∧ s.link.replies.length ≤ 8

/-- The link's queues stay within their capacities, and its watch within its ranges. -/
def KeepsLink (s u : State) : Prop :=
  (LinkQueues s → LinkQueues u) ∧ (LinkWatchLegal s → LinkWatchLegal u)

theorem KeepsLink.refl (s : State) : KeepsLink s s := ⟨id, id⟩

theorem KeepsLink.trans {s u v : State} (h : KeepsLink s u) (k : KeepsLink u v) : KeepsLink s v :=
  ⟨k.1 ∘ h.1, k.2 ∘ h.2⟩

/-- A further operation after one that keeps the link's bounds. -/
theorem KeepsLink.step {s u v : State} (k : KeepsLink u v) (h : KeepsLink s u) : KeepsLink s v :=
  h.trans k

theorem KeepsLink.of_same {s u : State} (h : u.link = s.link) : KeepsLink s u := by
  unfold KeepsLink LinkQueues LinkWatchLegal
  rw [h]
  exact ⟨id, id⟩

theorem KeepsLink.of_frame {gs : List Field} {s u : State} (k : KeepsBut gs s u)
    (h : ∀ f ∈ [Field.link], f ∉ gs) : KeepsLink s u :=
  .of_same (k .link (h _ List.mem_cons_self))

/-- An update that leaves the watch alone and lets neither queue grow. -/
theorem KeepsLink.of_shrinks {s u : State}
    (hinbound : u.link.inbound.length ≤ s.link.inbound.length)
    (hreplies : u.link.replies.length ≤ s.link.replies.length)
    (hwatch : u.link.watch = s.link.watch) (hfrom : u.link.watchFrom = s.link.watchFrom)
    (hlost : u.link.hostLost = s.link.hostLost) : KeepsLink s u := by
  refine ⟨fun h => ⟨hinbound.trans h.1, hreplies.trans h.2⟩, ?_⟩
  unfold LinkWatchLegal
  rw [hwatch, hfrom, hlost]
  exact id

theorem setReceiver_link (r : Receiver) (s : State) : KeepsLink s (setReceiver r s) :=
  .of_shrinks (Nat.le_refl _) (Nat.le_refl _) rfl rfl rfl

/-- A good frame ends HOST LOST and starts the watch timer again (R190). -/
theorem restartWatch_link (s : State) : KeepsLink s (restartWatch (endHostLost s)) := by
  have hlost : (endHostLost s).link.hostLost = false := by
    unfold endHostLost
    split
    · rfl
    · next h => exact Bool.eq_false_iff.mpr h
  have hsame : (endHostLost s).link.inbound = s.link.inbound ∧
      (endHostLost s).link.replies = s.link.replies ∧
      (endHostLost s).link.watch = s.link.watch := by
    unfold endHostLost
    split <;> exact ⟨rfl, rfl, rfl⟩
  obtain ⟨hinbound, hreplies, hwatch⟩ := hsame
  refine ⟨fun h => ⟨hinbound ▸ h.1, hreplies ▸ h.2⟩, fun h => ⟨fun p hp => ?_, fun hl => ?_, ?_⟩⟩
  · exact h.1 p (hwatch ▸ hp)
  · exact absurd (hlost.symm.trans hl) Bool.false_ne_true
  · show ((endHostLost s).link.watch.map fun _ => (endHostLost s).now).isSome =
      ((endHostLost s).link.watch.isSome && !(endHostLost s).link.hostLost)
    rw [Option.isSome_map, hlost]
    exact (Bool.and_true _).symm

theorem offerFrame_link (f : Frame) (s : State) : KeepsLink s (offerFrame f s) := by
  unfold offerFrame
  split
  · next hroom =>
    refine ⟨fun h => ⟨?_, h.2⟩, id⟩
    rw [List.length_append]
    exact of_decide_eq_true hroom
  · exact .of_frame (raiseLink_keeps _ _) (by decide)

theorem receiveByte_link (s : State) (b : Byte) : KeepsLink s (receiveByte s b) := by
  have hraised : ∀ g r, KeepsLink s (raiseLink g (setReceiver r s)) := fun g r =>
    (setReceiver_link r s).trans (.of_frame (raiseLink_keeps _ g) (by decide))
  unfold receiveByte
  split
  · split
    · exact setReceiver_link _ s
    · exact .refl s
  dsimp only
  split
  · exact setReceiver_link _ s
  split
  · exact hraised _ _
  split
  · exact setReceiver_link _ s
  split
  · exact (setReceiver_link _ s).trans ((restartWatch_link _).trans (offerFrame_link _ _))
  · exact hraised _ _

theorem receiveBytes_link (bytes : List Byte) (s : State) : KeepsLink s (receiveBytes bytes s) := by
  unfold receiveBytes
  induction bytes generalizing s with
  | nil => exact .refl s
  | cons b bytes ih => exact (receiveByte_link s b).trans (ih _)

theorem gapExpires_link (s : State) : KeepsLink s (gapExpires s) := by
  unfold gapExpires
  split
  · exact .refl s
  · exact .step (.of_frame (raiseLink_keeps _ _) (by decide)) (.step (setReceiver_link _ _)
      (.of_frame (advanceTo_keeps s _) (by decide)))

/-- HOST LOST is entered with the watch enabled, and stops its timer (R189). -/
theorem hostIsLost_link (s : State) : KeepsLink s (hostIsLost s) := by
  unfold hostIsLost
  split
  · next p f hwatch _ _ =>
    refine ⟨id, fun h => ⟨h.1, fun _ => ?_, ?_⟩⟩
    · show s.link.watch.isSome = true
      rw [hwatch]
      rfl
    · show false = (s.link.watch.isSome && !true)
      exact (Bool.and_false _).symm
  · exact .refl s

theorem frameSent_link (s : State) : KeepsLink s (frameSent s) := by
  unfold frameSent
  split
  · exact .refl s
  · exact .of_shrinks (Nat.le_refl _) (List.length_tail ▸ Nat.sub_le _ _) rfl rfl rfl
  · exact .of_shrinks (Nat.le_refl _) (Nat.le_refl _) rfl rfl rfl

theorem transmit_link (s : State) : KeepsLink s (transmit s) := by
  unfold transmit
  split
  · exact .refl s
  split
  · exact .of_shrinks (Nat.le_refl _) (Nat.le_refl _) rfl rfl rfl
  split
  · split
    · exact .refl s
    · exact .of_shrinks (Nat.le_refl _) (Nat.le_refl _) rfl rfl rfl
  · exact .refl s

theorem settle_link (s : State) : KeepsLink s (settle s) :=
  .step (transmit_link _) (.of_same (settle_before_transmit s).1)

/-! ### Orders (R184, R185) -/

theorem withOrder_link {f : Frame} {act : State → State} {s : State}
    (h : s.link.replies.length < 8 → KeepsLink s (act s)) : KeepsLink s (withOrder f act s) := by
  unfold withOrder
  split
  · next hready =>
    simp only [orderReady, Bool.and_eq_true, decide_eq_true_eq] at hready
    exact h hready.1.2
  split
  · exact .refl s
  · exact offerFrame_link f s

/-- An order is answered where the reply queue has room (R185). -/
theorem answer_link {kind tag : Byte} {s : State} {a : Answer}
    (hroom : s.link.replies.length < 8) (hinbound : a.1.link.inbound = s.link.inbound.tail)
    (hreplies : a.1.link.replies = s.link.replies)
    (hwatch : LinkWatchLegal s → LinkWatchLegal a.1) : KeepsLink s (answer kind tag a) := by
  refine ⟨fun h => ⟨?_, ?_⟩, hwatch⟩
  · show a.1.link.inbound.length ≤ 8
    rw [hinbound, List.length_tail]
    exact (Nat.sub_le _ _).trans h.1
  · show (a.1.link.replies ++ _).length ≤ 8
    rw [hreplies, List.length_append]
    exact hroom

/-- An order whose owner leaves the link alone. -/
theorem answer_link_of_same {kind tag : Byte} {s : State} {a : Answer}
    (hroom : s.link.replies.length < 8) (h : a.1.link = (dropHead s).link) :
    KeepsLink s (answer kind tag a) := by
  refine answer_link hroom (congrArg Link.inbound h) ((congrArg Link.replies h).trans rfl) ?_
  unfold LinkWatchLegal
  rw [h]
  exact id

/-- SET LINK WATCH enables the watch with a period brought into 1 to 60 seconds (R189). -/
theorem ownSetLinkWatch_link (b : List Byte) (s : State) :
    (ownSetLinkWatch b s).1.link.inbound = s.link.inbound ∧
      (ownSetLinkWatch b s).1.link.replies = s.link.replies ∧
      (LinkWatchLegal s → LinkWatchLegal (ownSetLinkWatch b s).1) := by
  unfold ownSetLinkWatch
  split
  · exact ⟨rfl, rfl, id⟩
  · next hnone =>
    refine ⟨rfl, rfl, fun ⟨_, hlost, _⟩ => ?_⟩
    have hback : s.link.hostLost = false := by
      rw [hnone] at hlost
      exact Bool.eq_false_iff.mpr fun h => Bool.false_ne_true (hlost h)
    refine ⟨fun p hp => ?_, fun _ => rfl, ?_⟩
    · cases hp
      exact clampTo_bounds (by decide) _
    · show true = (true && !s.link.hostLost)
      rw [hback]
      rfl

/-! ### Commands and steps -/

/-- Every bound that holds in s holds in u, the link's too. -/
def KeepsAll (s u : State) : Prop := KeepsBounds 64 s u ∧ KeepsLink s u

/-- An update that leaves the link alone. -/
theorem KeepsAll.of_linkless {gs : List Field} {s u : State} (h : KeepsBounds 64 s u)
    (k : KeepsBut gs s u) (hl : ∀ f ∈ [Field.link], f ∉ gs := by decide) : KeepsAll s u :=
  ⟨h, .of_frame k hl⟩

/-- An update of the link. -/
theorem KeepsAll.of_link {gs : List Field} {s u : State} (h : KeepsLink s u) (k : KeepsBut gs s u)
    (hgs : ∀ g ∈ gs, g ∉ boundedFields := by decide) : KeepsAll s u := ⟨.of_frame k hgs, h⟩

theorem order_bounds {fs : List Field} {kind tag : Byte} {need : Nat} {body : List Byte}
    {s t : State} {own : List Byte → State → Answer}
    (k : ∀ b s, Leads (KeepsBounds 64) s (own b s)) (hf : ∀ b s, Leads (KeepsBut fs) s (own b s))
    (h : Host.Outcome.next (takeOrder kind need own tag body s) =
      (.next t : Host.Outcome State Fault Refusal)) (hl : .link ∉ fs := by decide) :
    Ends KeepsAll s t := by
  refine event_ends ⟨withOrder_leads (followsLink_keepsBounds 64)
    (answer_leads (followsLink_keepsBounds 64) (.ite (.refuse (.refl _) _) (k _ _))),
    withOrder_link fun hroom => answer_link_of_same hroom ?_⟩ h
  split
  · rfl
  · exact hf body (dropHead s) .link hl

/-- An order whose owner touches no field with a bound. -/
theorem order_bounds_of_frame {fs : List Field} {kind tag : Byte} {need : Nat} {body : List Byte}
    {s t : State} {own : List Byte → State → Answer} (hf : ∀ b s, Leads (KeepsBut fs) s (own b s))
    (h : Host.Outcome.next (takeOrder kind need own tag body s) =
      (.next t : Host.Outcome State Fault Refusal))
    (hl : .link ∉ fs := by decide) (hgs : ∀ g ∈ fs, g ∉ boundedFields := by decide) :
    Ends KeepsAll s t :=
  order_bounds (fun b s => (hf b s).mono fun k => .of_frame k hgs) hf h hl

/-- An order that is refused in any case. -/
theorem refusedOrder_keepsAll (f : Frame) (kind tag : Byte) (r : ResultCode) (s : State) :
    KeepsAll s (withOrder f (fun s => answer kind tag (refuse r (dropHead s))) s) := by
  refine ⟨withOrder_leads (followsLink_keepsBounds 64)
    (answer_leads (followsLink_keepsBounds 64) (.refuse (.refl _) _)), withOrder_link fun hroom => ?_⟩
  exact answer_link_of_same hroom rfl

/-- A RESTART order is held, or refused (R193). -/
theorem takeRestart_link (f : Frame) {s : State} (hroom : s.link.replies.length < 8) :
    KeepsLink s (takeRestart f s) := by
  unfold takeRestart
  split
  · exact answer_link_of_same hroom rfl
  split
  · exact answer_link_of_same hroom rfl
  · refine ⟨fun h => ⟨?_, h.2⟩, id⟩
    show (if s.link.inbound = [] then [f] else s.link.inbound).length ≤ 8
    split
    · exact (by decide : 1 ≤ 8)
    · exact h.1

theorem linkStart_legal {s : State} {p : Option Nat} {now : Nat} (c : StartCause)
    (hp : ∀ x, p = some x → 1 ≤ x ∧ x ≤ 60) (h : s.link = Link.start c p (p.map fun _ => now)) :
    LinkQueues s ∧ LinkWatchLegal s := by
  unfold LinkQueues LinkWatchLegal
  rw [h]
  refine ⟨⟨Nat.zero_le _, Nat.zero_le _⟩, hp, nofun, ?_⟩
  show (p.map fun _ => now).isSome = (p.isSome && !false)
  rw [Option.isSome_map]
  exact (Bool.and_true _).symm

theorem startAs_link (c : StartCause) (tag : Byte) (s : State) : KeepsLink s (startAs c tag s) := by
  have hfresh : ∀ {u : State} (c : StartCause), u.link = Link.start c none none → KeepsLink s u :=
    fun c h => by
      obtain ⟨hqueues, hwatch⟩ := linkStart_legal (p := none) (now := 0) c nofun h
      exact ⟨fun _ => hqueues, fun _ => hwatch⟩
  cases c with
  | warm =>
    refine ⟨fun _ => ⟨Nat.zero_le _, Nat.zero_le _⟩, fun h => ?_⟩
    exact (linkStart_legal (p := s.link.watch) (now := s.now) .warm h.1 rfl).2
  | cold => exact hfresh .cold rfl
  | powerOn => exact hfresh .powerOn rfl

theorem startAs_keepsAll (c : StartCause) (tag : Byte) (s : State) : KeepsAll s (startAs c tag s) :=
  ⟨startAs_bounds c tag s, startAs_link c tag s⟩

theorem takeCode_keepsAll (t : Fin 32) (c : Byte) (s : State) : KeepsAll s (takeCode t c s) :=
  .of_linkless (takeCode_bounds t c s) (takeCode_keeps t c s)

/-- A command that leaves the link alone: a key, a timer, or an event of a line, a channel or the engine. -/
theorem exec_ends_keepsAll_of_linkless {i : Instr} {s t : State} (h : exec i s = .next t)
    (hi : Field.link ∉ touches i) : Ends KeepsAll s t := by
  have event : ∀ {u}, KeepsAll s u → Host.Outcome.next (settle u) =
      (.next t : Host.Outcome State Fault Refusal) → Ends KeepsAll s t := event_ends
  cases i with
  | clockTick =>
    exact event (.of_linkless (.ite (.of_frame (tick_keeps s) (by decide)) (.refl s))
      (KeepsBut.ite (tick_keeps s) (KeepsBut.refl _ s))) h
  | terminalCharacterReceived t r =>
    exact event (.of_linkless (receiveFrame_bounds t r s) (receiveFrame_keeps t r s)) h
  | terminalIdleExpiry t => exact event (.of_linkless (idleExpires_bounds t s) (idleExpires_keeps t s)) h
  | terminalBreak t => exact event (.of_linkless (breakSeen_bounds t s) (breakSeen_keeps t s)) h
  | textKey t c => exact event (takeCode_keepsAll t _ s) h
  | newParagraph t => exact event (takeCode_keepsAll t _ s) h
  | deleteBack t => exact event (takeCode_keepsAll t _ s) h
  | deleteForward t => exact event (takeCode_keepsAll t _ s) h
  | insertOvertypeToggle t => exact event (takeCode_keepsAll t _ s) h
  | cursorLeft t => exact event (takeCode_keepsAll t _ s) h
  | cursorRight t => exact event (takeCode_keepsAll t _ s) h
  | cursorUp t => exact event (takeCode_keepsAll t _ s) h
  | cursorDown t => exact event (takeCode_keepsAll t _ s) h
  | paneSwitch t => exact event (takeCode_keepsAll t _ s) h
  | clearMessage t => exact event (takeCode_keepsAll t _ s) h
  | repaintKey t => exact event (takeCode_keepsAll t _ s) h
  | functionKeyPrefix t => exact event (takeCode_keepsAll t _ s) h
  | functionKey t k =>
    exact event (.of_linkless (takeFunction_bounds t k s) (takeFunction_keeps t k s)) h
  | ignoredCode t c =>
    exact event (.of_linkless (.ite (takeCode_bounds t c s) (.refl s))
      (KeepsBut.ite (takeCode_keeps t c s) (KeepsBut.refl _ s))) h
  | terminalByteSent t =>
    exact event (.of_linkless (terminalByteSent_bounds t s) (terminalByteSent_keeps t s)) h
  | flashAlertExpiry t =>
    exact event (.of_linkless (flashExpires_bounds t s) (flashExpires_keeps t s)) h
  | rotationDwellExpiry t =>
    exact event (.of_linkless (dwellExpires_bounds t s) (dwellExpires_keeps t s)) h
  | fitGrantEnd => exact event (.of_linkless (fitGrantEnds_bounds s) (fitGrantEnds_keeps s)) h
  | channelGrantEnd c =>
    exact event (.of_linkless (channelGrantEnds_bounds c s) (channelGrantEnds_keeps c s)) h
  | typesetterByteSent c =>
    exact event (.of_linkless (typesetterByteSent_bounds c s) (typesetterByteSent_keeps c s)) h
  | typReady c level =>
    have hready : KeepsBounds 64 s (modChannel c (fun ch => { ch with ready := level }) s) :=
      modChannel_same_bounds fun _ => ⟨rfl, rfl, rfl, rfl, rfl⟩
    exact event (.of_linkless hready (modChannel_keeps s c _)) h
  | batchWaitExpiry c =>
    exact event (.of_linkless (batchWaitExpires_bounds c s) (batchWaitExpires_keeps c s)) h
  | channelStall c =>
    exact event (.of_linkless (channelStalls_bounds c s) (channelStalls_keeps c s)) h
  | wireCharacterReceived w r =>
    exact event (.of_linkless (receiveWire_bounds w r s) (receiveWire_keeps w r s)) h
  | wireBreak w => exact event (.of_linkless (wireBreak_bounds w s) (wireBreak_keeps w s)) h
  | wireIntakeCharacter w =>
    exact event (.of_linkless (takeIntake_bounds w s) (takeIntake_keeps w s)) h
  | wireSilenceExpiry w =>
    exact event (.of_linkless (silenceExpires_bounds w s) (silenceExpires_keeps w s)) h
  | _ => exact absurd (by simp [touches, orderFields, allFields]) hi

theorem exec_ends_keepsAll {i : Instr} {s t : State} (h : exec i s = .next t) :
    Ends KeepsAll s t := by
  have event : ∀ {u}, KeepsAll s u → Host.Outcome.next (settle u) =
      (.next t : Host.Outcome State Fault Refusal) → Ends KeepsAll s t := event_ends
  have reading : ∀ b (s : State), Leads (KeepsBut []) s (s, b) := fun b s => KeepsBut.refl [] s
  cases i with
  | powerOn => exact event (startAs_keepsAll .powerOn 0 s) h
  | restartMade =>
    refine event ?_ h
    split
    · exact ⟨.refl s, .refl s⟩
    · exact startAs_keepsAll _ _ s
  | frameReceived bytes => exact event (.of_link (receiveBytes_link _ s) (receiveBytes_keeps _ s)) h
  | linkLengthError hi lo => exact event (.of_link (receiveBytes_link _ s) (receiveBytes_keeps _ s)) h
  | gapTimerExpiry bytes =>
    have hk : KeepsBut [.link, .notices, .now] s (gapExpires (receiveBytes bytes s)) :=
      (gapExpires_keeps _).step (by decide) ((receiveBytes_keeps _ _).mono (by decide))
    exact event (.of_link ((receiveBytes_link bytes s).trans (gapExpires_link _)) hk) h
  | hostLost => exact event (.of_link (hostIsLost_link s) (hostIsLost_keeps s)) h
  | transmitFrameEnd => exact event (.of_link (frameSent_link s) (frameSent_keeps s)) h
  | unassignedKind kind tag body =>
    change (if kindAssigned kind then _ else _) = _ at h
    split at h
    · cases h
    · exact event (refusedOrder_keepsAll _ _ _ _ s) h
  | createStory => exact order_bounds ownCreateStory_bounds ownCreateStory_frame h
  | readStory => exact order_bounds_of_frame ownReadStory_onlyReads.leads h
  | setFlags => exact order_bounds ownSetFlags_bounds ownSetFlags_frame h
  | writeText => exact order_bounds ownWriteText_bounds ownWriteText_frame h
  | readText => exact order_bounds_of_frame ownReadText_onlyReads.leads h
  | spikeStory => exact order_bounds ownSpikeStory_bounds ownSpikeStory_frame h
  | clearMarks => exact order_bounds_of_frame ownClearMarks_frame h
  | setDesk => exact order_bounds ownSetDesk_bounds ownSetDesk_frame h
  | readDesk => exact order_bounds_of_frame ownReadDesk_onlyReads.leads h
  | setBasket => exact order_bounds ownSetBasket_bounds ownSetBasket_frame h
  | listBasket => exact order_bounds_of_frame ownListBasket_onlyReads.leads h
  | moveStory => exact order_bounds ownMoveStory_bounds ownMoveStory_frame h
  | setStoryKey => exact order_bounds ownSetStoryKey_bounds ownSetStoryKey_frame h
  | sendMessage => exact order_bounds_of_frame ownSendMessage_frame h
  | setClock => exact order_bounds_of_frame ownSetClock_frame h
  | startClock => exact order_bounds_of_frame ownStartClock_frame h
  | readClock => exact order_bounds_of_frame (fun _ s => reading _ s) h
  | setDeadline => exact order_bounds_of_frame ownSetDeadline_frame h
  | rearm => exact order_bounds_of_frame ownRearm_frame h
  | clearDeadline => exact order_bounds_of_frame ownClearDeadline_frame h
  | assignTerminal => exact order_bounds ownAssignTerminal_bounds ownAssignTerminal_frame h
  | detachTerminal => exact order_bounds ownDetachTerminal_bounds ownDetachTerminal_frame h
  | readTerminal => exact order_bounds_of_frame ownReadTerminal_onlyReads.leads h
  | takeKeys => exact order_bounds ownTakeKeys_bounds ownTakeKeys_frame h
  | putScreenText => exact order_bounds ownPutScreenText_bounds ownPutScreenText_frame h
  | fillBase => exact order_bounds ownFillBase_bounds ownFillBase_frame h
  | setStatus => exact order_bounds ownSetStatus_bounds ownSetStatus_frame h
  | repaint => exact order_bounds ownRepaint_bounds ownRepaint_frame h
  | setWatch => exact order_bounds ownSetWatch_bounds ownSetWatch_frame h
  | setRotation => exact order_bounds ownSetRotation_bounds ownSetRotation_frame h
  | readSession => exact order_bounds_of_frame ownReadSession_onlyReads.leads h
  | openWindow => exact order_bounds ownOpenWindow_bounds ownOpenWindow_frame h
  | closeWindow => exact order_bounds ownCloseWindow_bounds ownCloseWindow_frame h
  | setWidths => exact order_bounds ownSetWidths_bounds ownSetWidths_frame h
  | readWidths => exact order_bounds_of_frame ownReadWidths_onlyReads.leads h
  | setSetting => exact order_bounds ownSetSetting_bounds ownSetSetting_frame h
  | fitStory => exact order_bounds ownFitStory_bounds ownFitStory_frame h
  | readFitQueue => exact order_bounds_of_frame (fun _ s => reading _ s) h
  | queueJob => exact order_bounds ownQueueJob_bounds ownQueueJob_frame h
  | setArbitration => exact order_bounds_of_frame ownSetArbitration_frame h
  | setChannel => exact order_bounds ownSetChannel_bounds ownSetChannel_frame h
  | resume => exact order_bounds ownResume_bounds ownResume_frame h
  | flushChannel => exact order_bounds ownFlushChannel_bounds ownFlushChannel_frame h
  | cancelJob => exact order_bounds ownCancelJob_bounds ownCancelJob_frame h
  | readChannel => exact order_bounds_of_frame ownReadChannel_onlyReads.leads h
  | setWireLine => exact order_bounds ownSetWireLine_bounds ownSetWireLine_frame h
  | readWireLine => exact order_bounds_of_frame ownReadWireLine_onlyReads.leads h
  | setSelection => exact order_bounds_of_frame ownSetSelection_frame h
  | readSelection => exact order_bounds_of_frame (fun _ s => reading _ s) h
  | setWireReserve => exact order_bounds_of_frame ownSetWireReserve_frame h
  | setLinkWatch tag body =>
    refine event ⟨withOrder_leads (followsLink_keepsBounds 64) (answer_leads
      (followsLink_keepsBounds 64) (.ite (.refuse (.refl _) _)
        ((ownSetLinkWatch_frame body _).mono fun k => .of_frame k (by decide)))),
      withOrder_link fun hroom => ?_⟩ h
    obtain ⟨hinbound, hreplies, hwatch⟩ := ownSetLinkWatch_link body (dropHead s)
    split
    · exact answer_link_of_same hroom rfl
    · exact answer_link hroom hinbound hreplies hwatch
  | queryPart => exact order_bounds_of_frame (fun _ s => reading _ s) h
  | restart tag body =>
    exact event ⟨withOrder_leads (followsLink_keepsBounds 64)
      (.of_frame (takeRestart_keeps _ s) (by decide)), withOrder_link (takeRestart_link _)⟩ h
  | _ => exact exec_ends_keepsAll_of_linkless h (by simp [touches, keyFields])

theorem settle_keepsAll (s : State) : KeepsAll s (settle s) := ⟨settle_bounds s, settle_link s⟩

theorem KeepsAll.trans {s u v : State} (h : KeepsAll s u) (k : KeepsAll u v) : KeepsAll s v :=
  ⟨h.1.trans k.1, h.2.trans k.2⟩

/-- Every step keeps every bound. -/
theorem step_keepsAll {s t : State} (h : step s = .next t) : KeepsAll s t := by
  have exec_keepsAll : ∀ {i : Instr} {s}, exec i s = .next t → KeepsAll s t := fun hi => by
    obtain ⟨u, rfl, hu⟩ := exec_ends_keepsAll hi
    exact hu.trans (settle_keepsAll u)
  unfold step at h
  split at h
  · next q _ =>
    exact (KeepsAll.of_linkless (.of_frame (keeps_pending s q) (by decide))
      (keeps_pending s q)).trans (exec_keepsAll h)
  · unfold idleStep at h
    split at h
    · exact exec_keepsAll h
    · cases h
      exact (KeepsAll.of_linkless (.of_frame (keeps_now s (s.now + 1)) (by decide))
        (keeps_now s _)).trans (settle_keepsAll _)

/-! ### The invariants -/

theorem Channel.fits_iff_spare {ch : Channel} : ch.Fits ↔ ch.Spare 64 := Iff.rfl

theorem stepKeepsCapacities : Clause.StepKeepsCapacities := by
  rintro s t ⟨⟨hinbound, hreplies, hkeys, hfit⟩, ⟨hlines, hwires⟩, hchannels⟩ h
  obtain ⟨hbounds, hlink, -⟩ := step_keepsAll h
  obtain ⟨kinbound, kreplies⟩ := hlink ⟨hinbound, hreplies⟩
  exact ⟨⟨kinbound, kreplies, hbounds .keys hkeys, hbounds .fit hfit⟩,
    ⟨fun t => hbounds .lines t (hlines t), fun w => hbounds .wires w (hwires w)⟩,
    fun c => hbounds .channels c (hchannels c)⟩

theorem stepKeepsRanges : Clause.StepKeepsRanges := by
  rintro s t ⟨hfaces, hsettings, hwatch⟩ h
  obtain ⟨hbounds, -, hlink⟩ := step_keepsAll h
  exact ⟨hbounds .faces hfaces, hbounds.settings hsettings, hlink hwatch⟩

theorem stepKeepsScreensInOrder : Clause.StepKeepsScreensInOrder := fun _ _ hs h x =>
  (step_keepsAll h).1 .screens x (hs x)

/-- Settles O58: what an operation may do to each field keeps that field's bound, and every command and the end of its event are chains of operations. -/
theorem stepKeepsCapacitiesAndRanges : Obligations.StepKeepsCapacitiesAndRanges :=
  ⟨stepKeepsCapacities, stepKeepsRanges, stepKeepsScreensInOrder⟩

end Sys2Proof.Machine
end

section
/-! SUPPORT. TAKE KEYS, and what arrives on terminal lines and wire lines (R58, R64 to R66, R70, R71, R166 to R168). -/

namespace Sys2Proof.Machine

/-! ### TAKE KEYS (R70, R71) -/

section
variable {b : List Byte} {n : Nat}

theorem ownTakeKeys_read (h : u8 b 1 = 0) (hn : n = max 1 (min 16 (u8 b 0))) (s : State) :
    ownTakeKeys b s = (s, ⟨if n = u8 b 0 then .ok else .clamped,
      e16 (s.keys.take n).length ++ e16 s.keys.length ++ (s.keys.take n).flatMap eReport⟩) := by
  have hflag : ¬ flagAt b 1 = true := fun hf => flagAt_eq_true.mp hf h
  have hcount : clampTo 1 16 (u8 b 0) = n := hn.symm
  unfold ownTakeKeys
  simp only [hcount, if_neg hflag]
  rw [clampedIf_eq_not (p := n = u8 b 0) decide_eq_true_iff]

theorem removeKeys_keys (n : Nat) (s : State) : (removeKeys n s).keys = s.keys.drop n := by
  unfold removeKeys
  dsimp only
  split <;> rfl

/-- A queue left empty withdraws KEYS. -/
theorem removeKeys_notices (n : Nat) (s : State) : (removeKeys n s).notices =
    if s.keys.length ≤ n then s.notices.setPending srcKeys false else s.notices := by
  unfold removeKeys
  simp only [List.drop_eq_nil_iff]
  split <;> rfl

theorem ownTakeKeys_remove (h : u8 b 1 ≠ 0) (hn : n = max 1 (min 16 (u8 b 0))) (s : State) :
    ownTakeKeys b s = (removeKeys n s, ⟨if n = u8 b 0 then .ok else .clamped,
      e16 (s.keys.take n).length ++ e16 (s.keys.drop n).length ++
        (s.keys.take n).flatMap eReport⟩) := by
  have hcount : clampTo 1 16 (u8 b 0) = n := hn.symm
  unfold ownTakeKeys
  simp only [hcount, if_pos (flagAt_eq_true.mpr h), removeKeys_keys]
  rw [clampedIf_eq_not (p := n = u8 b 0) decide_eq_true_iff]

end

/-- Settles O31: without the remove flag the owner changes nothing, and with it the reports leave the queue. -/
theorem takeKeysReturnsTheOldest : Obligations.TakeKeysReturnsTheOldest := by
  intro tag body s n hlen ht hn
  refine ⟨fun hread => ?_, fun hremove => ?_⟩
  · exact reads_of_own (own := ownTakeKeys) rfl ht hlen (ownTakeKeys_read hread hn (dropHead s))
  · refine replies_of_own_eq (own := ownTakeKeys) rfl ht hlen
      (ownTakeKeys_remove hremove hn (dropHead s)) (removeKeys_keeps n (dropHead s)) (by decide) ?_
    exact ⟨removeKeys_keys n (dropHead s), removeKeys_notices n (dropHead s)⟩

/-! ### Terminal lines (R58, R64 to R66) -/

/-- R65: the FIFO is handed up with no batch in hand, at the trigger or once idle. -/
theorem Line.handUp_of_due {l : Line} (hbatch : l.batch = []) (hrx : l.rx ≠ [])
    (h : l.trigger ≤ l.rx.length ∨ l.idle = true) :
    l.handUp = { l with batch := l.rx, rx := [] } := by
  have hdue : l.handUpDue = true := by
    simp only [Line.handUpDue, hbatch, Bool.and_eq_true, Bool.or_eq_true, decide_eq_true_eq,
      Bool.not_eq_true', List.isEmpty_eq_false_iff, List.isEmpty_nil]
    exact ⟨⟨trivial, hrx⟩, h⟩
  exact if_pos hdue

theorem Line.handUp_of_batch {l : Line} (h : l.batch ≠ []) : l.handUp = l := by
  have hdue : ¬ l.handUpDue = true := fun hd => by
    simp only [Line.handUpDue, Bool.and_eq_true, List.isEmpty_iff] at hd
    exact h hd.1.1
  exact if_neg hdue

theorem Line.handUp_of_waiting {l : Line} (hrx : l.rx.length < l.trigger) (hidle : l.idle = false) :
    l.handUp = l := by
  have hdue : ¬ l.handUpDue = true := fun hd => by
    simp only [Line.handUpDue, hidle, Bool.and_eq_true, Bool.or_false, decide_eq_true_eq] at hd
    exact absurd hd.2 (Nat.not_le_of_lt hrx)
  exact if_neg hdue

/-- A character joins the FIFO of a line that is not idle, and the trigger is tested. -/
theorem Line.handUp_stored {l : Line} (hidle : l.idle = false) (c : Byte) :
    Line.handUp { l with rx := l.rx ++ [c] } =
      if l.batch = [] ∧ l.trigger ≤ l.rx.length + 1 then
        { l with rx := [], batch := l.rx ++ [c] }
      else { l with rx := l.rx ++ [c] } := by
  have hlength : (l.rx ++ [c]).length = l.rx.length + 1 := List.length_append
  by_cases hbatch : l.batch = []
  · by_cases htrigger : l.trigger ≤ l.rx.length + 1
    · rw [if_pos ⟨hbatch, htrigger⟩]
      exact Line.handUp_of_due (l := { l with rx := l.rx ++ [c] }) hbatch
        (List.append_ne_nil_of_right_ne_nil _ (List.cons_ne_nil _ _)) (.inl (hlength.symm ▸ htrigger))
    · rw [if_neg fun h => htrigger h.2]
      exact Line.handUp_of_waiting (l := { l with rx := l.rx ++ [c] })
        (hlength.symm ▸ Nat.lt_of_not_le htrigger) hidle
  · rw [if_neg fun h => hbatch h.1]
    exact Line.handUp_of_batch (l := { l with rx := l.rx ++ [c] }) hbatch

/-- R65: once idle, all that waits is handed up. -/
theorem Line.handUp_idle (l : Line) : Line.handUp { l with idle := true } =
    if l.batch = [] then { l with idle := true, rx := [], batch := l.rx }
    else { l with idle := true } := by
  by_cases hbatch : l.batch = []
  · rw [if_pos hbatch]
    by_cases hrx : l.rx = []
    · have hsame : Line.handUp { l with idle := true } = { l with idle := true } :=
        if_neg (by simp [Line.handUpDue, hrx])
      rw [hsame, hrx, ← hbatch]
    · exact Line.handUp_of_due (l := { l with idle := true }) hbatch hrx (.inr rfl)
  · rw [if_neg hbatch]
    exact Line.handUp_of_batch (l := { l with idle := true }) hbatch

section
variable {t : Fin 32} {s : State}

/-- The line a character comes in on is no longer idle. -/
theorem lineActive_self (t : Fin 32) (s : State) :
    (lineActive t s).lines[t] = { s.lines[t] with idle := false } := modLine_self t _ s

/-- One line was written, and is written again. -/
theorem modLine_of_set {u : State} {l : Line} (h : u.lines = s.lines.set t l) (f : Line → Line) :
    (modLine t f u).lines = s.lines.set t (f l) := by
  have hself : u.lines[t] = l := by
    rw [h]
    exact Vector.getElem_set_self t.isLt
  show u.lines.set t (f u.lines[t]) = _
  rw [hself, h, Vector.set_set]

theorem offerChar_stored (h : s.lines[t].rx.length < 16) (c : Byte) : offerChar t c s =
    modLine t (fun l => Line.handUp { l with rx := l.rx ++ [c] }) s := if_pos h

theorem offerChar_full (h : 16 ≤ s.lines[t].rx.length) (c : Byte) :
    offerChar t c s = raiseTerminal t TermEvents.addLineError s := if_neg (Nat.not_lt_of_le h)

/-- The line after a character that joins its FIFO. -/
theorem arrive_lines (h : s.lines[t].rx.length < 16) (c : Byte) :
    (arrive t c s).lines = s.lines.set t
      (if s.lines[t].batch = [] ∧ s.lines[t].trigger ≤ s.lines[t].rx.length + 1 then
        { s.lines[t] with idle := false, rx := [], batch := s.lines[t].rx ++ [c] }
      else { s.lines[t] with idle := false, rx := s.lines[t].rx ++ [c] }) := by
  have hroom : (lineActive t s).lines[t].rx.length < 16 := by
    rw [lineActive_self]
    exact h
  unfold arrive
  rw [offerChar_stored hroom, modLine_of_set (s := s) rfl,
    Line.handUp_stored (l := { s.lines[t] with idle := false }) rfl]

theorem arrive_keeps_lines (h : s.lines[t].rx.length < 16) (c : Byte) :
    KeepsBut [.lines] s (arrive t c s) := by
  have hroom : (lineActive t s).lines[t].rx.length < 16 := by
    rw [lineActive_self]
    exact h
  unfold arrive
  rw [offerChar_stored hroom]
  exact (modLine_keeps _ _ _).step (by decide) (lineActive_keeps t s)

theorem receiveFrame_detached (h : s.lines[t].attached = false) (f : RxFrame) :
    receiveFrame t f s = s := if_neg (Bool.eq_false_iff.mp h)

/-- A character with parity or framing wrong, and one for which the FIFO has no room, is lost (R64). -/
theorem receiveFrame_lost {f : RxFrame} (ha : s.lines[t].attached = true)
    (h : f.stop = false ∨ parityRight s.lines[t].format f = false ∨ 16 ≤ s.lines[t].rx.length) :
    receiveFrame t f s = raiseTerminal t TermEvents.addLineError (lineActive t s) := by
  refine (if_pos ha).trans ?_
  dsimp only
  rw [lineActive_self]
  by_cases hbad : (!f.stop || !parityRight s.lines[t].format f) = true
  · exact if_pos hbad
  · refine (if_neg hbad).trans (offerChar_full ?_ _)
    rw [lineActive_self]
    simp only [Bool.or_eq_true, Bool.not_eq_true', not_or] at hbad
    exact (h.resolve_left hbad.1).resolve_left hbad.2

theorem receiveFrame_stored {f : RxFrame} (ha : s.lines[t].attached = true) (hstop : f.stop = true)
    (hparity : parityRight s.lines[t].format f = true) :
    receiveFrame t f s = arrive t (frameCode s.lines[t].format f) s := by
  refine (if_pos ha).trans ?_
  dsimp only
  rw [lineActive_self]
  rw [hstop, hparity]
  rfl

end

theorem terminalFrameIsStoredOrRefused : Clause.TerminalFrameIsStoredOrRefused := by
  intro t f s
  have hexec : exec (.terminalCharacterReceived t f) s = .next (settle (receiveFrame t f s)) := rfl
  refine ⟨fun ha => ?_, fun ha => ⟨fun hbad => ?_, fun hstop hparity hroom => ?_⟩⟩
  · rw [receiveFrame_detached ha] at hexec
    exact ⟨s, hexec, KeepsBut.refl _ s, trivial⟩
  · rw [receiveFrame_lost ha hbad] at hexec
    obtain ⟨hpending, hevents⟩ := raiseTerminal_self t TermEvents.addLineError (lineActive t s)
    exact ⟨_, hexec, (raiseTerminal_keeps _ _ _).step (by decide)
      ((lineActive_keeps t s).mono (by decide)), rfl, hpending, hevents⟩
  · rw [receiveFrame_stored ha hstop hparity] at hexec
    exact ⟨_, hexec, arrive_keeps_lines hroom _, arrive_lines hroom _⟩

theorem idleTimeAndBreakOnATerminalLine : Clause.IdleTimeAndBreakOnATerminalLine := by
  intro t s
  have hidle : exec (.terminalIdleExpiry t) s = .next (settle (idleExpires t s)) := rfl
  have hbreak : exec (.terminalBreak t) s = .next (settle (breakSeen t s)) := rfl
  refine ⟨fun ha => ?_, fun ha => ⟨?_, ?_⟩⟩
  · have hoff := Bool.eq_false_iff.mp ha
    rw [show idleExpires t s = s from if_neg hoff] at hidle
    rw [show breakSeen t s = s from if_neg hoff] at hbreak
    exact ⟨⟨s, hidle, KeepsBut.refl _ s, trivial⟩, ⟨s, hbreak, KeepsBut.refl _ s, trivial⟩⟩
  · rw [show idleExpires t s = _ from if_pos ha] at hidle
    exact ⟨_, hidle, modLine_keeps _ _ _,
      congrArg (fun l => s.lines.set t.val l t.isLt) (Line.handUp_idle s.lines[t])⟩
  · have hframe := breakSeen_keeps t s
    rw [show breakSeen t s = _ from if_pos ha] at hbreak hframe
    obtain ⟨hpending, hevents⟩ := raiseTerminal_self t TermEvents.addAttention
      (modLine t (fun l => { l with rx := [], pfx := false }) s)
    exact ⟨_, hbreak, hframe.mono (by decide), rfl, rfl, hpending, hevents⟩

/-- Settles O32: a frame is lost or joins the FIFO, and the idle time and a break are read off the line's record. -/
theorem terminalReception : Obligations.TerminalReception :=
  ⟨terminalFrameIsStoredOrRefused, idleTimeAndBreakOnATerminalLine⟩

end Sys2Proof.Machine
end

section
/-! SUPPORT. The decoder's codes one by one: the lead code of a function key, function keys and ignored codes (R65, R67, R69). -/

namespace Sys2Proof.Machine

/-! ### What becomes of a function key (R69) -/

section
variable {t : Fin 32} {k : Fin 16} {s : State}

theorem isRotating_iff : isRotating s t = true ↔ ∃ r, s.screens[t].mode = .rotating r := by
  unfold isRotating
  cases s.screens[t].mode <;> simp

theorem strikeFunction_rotating (h : ∃ r, s.screens[t].mode = .rotating r) :
    strikeFunction t k s = bell t s := if_pos (isRotating_iff.mpr h)

theorem strikeFunction_refused (hmode : ∀ r, s.screens[t].mode ≠ .rotating r)
    (h : s.link.hostLost = true ∨ 64 ≤ s.keys.length) : strikeFunction t k s = refuseKey t s := by
  refine (if_neg fun hr => ?_).trans ?_
  · obtain ⟨r, hr⟩ := isRotating_iff.mp hr
    exact hmode r hr
  by_cases hlost : s.link.hostLost = true
  · exact if_pos hlost
  · exact (if_neg hlost).trans (if_pos (h.resolve_left hlost))

theorem strikeFunction_queued (hmode : ∀ r, s.screens[t].mode ≠ .rotating r)
    (hlost : s.link.hostLost = false) (hroom : s.keys.length < 64) : strikeFunction t k s =
      raiseSource srcKeys { s with keys := s.keys ++ [keyReport t k s] } := by
  refine (if_neg fun hr => ?_).trans ?_
  · obtain ⟨r, hr⟩ := isRotating_iff.mp hr
    exact hmode r hr
  · exact (if_neg (Bool.eq_false_iff.mp hlost)).trans (if_neg (Nat.not_le_of_lt hroom))

theorem keyReport_closed (h : s.panes[t].session = none) :
    keyReport t k s = ⟨t, k, 0, 0, stamp s⟩ := by
  unfold keyReport
  rw [h]

theorem keyReport_open {e : Session} (h : s.panes[t].session = some e) :
    keyReport t k s = ⟨t, k, e.story, e.cursor, stamp s⟩ := by
  unfold keyReport
  rw [h]

theorem keeps_lines (s : State) (x : Vector Line 32) : KeepsBut [.lines] s { s with lines := x } := by
  intro f hf
  cases f with
  | lines => exact absurd List.mem_cons_self hf
  | _ => rfl

/-- The three ways a function key ends, from the state in which the decoder hands it over. -/
theorem functionKey_completes {lines : Vector Line 32}
    (hexec : exec (.functionKey t k) s =
      .next (settle (strikeFunction t k { s with lines := lines }))) :
    ((∃ r, s.screens[t].mode = .rotating r) →
      Completes (.functionKey t k) [.lines, .screens] s fun u =>
        u.lines = lines ∧ u.screens = s.screens.set t { s.screens[t] with bell := true }) ∧
    ((∀ r, s.screens[t].mode ≠ .rotating r) → (s.link.hostLost = true ∨ 64 ≤ s.keys.length) →
      Completes (.functionKey t k) [.lines, .screens, .notices] s fun u =>
        u.lines = lines ∧ u.screens = s.screens.set t { s.screens[t] with bell := true } ∧
        u.notices.pending[srcTerminal t] = true ∧
        u.notices.terminal[t] = { s.notices.terminal[t] with keysRefused := true }) ∧
    ((∀ r, s.screens[t].mode ≠ .rotating r) → s.link.hostLost = false → s.keys.length < 64 →
      Completes (.functionKey t k) [.lines, .keys, .notices] s fun u =>
        u.lines = lines ∧ u.notices = s.notices.setPending srcKeys true ∧
        (s.panes[t].session = none → u.keys = s.keys ++ [⟨t, k, 0, 0, stamp s⟩]) ∧
        ∀ e, s.panes[t].session = some e →
          u.keys = s.keys ++ [⟨t, k, e.story, e.cursor, stamp s⟩]) := by
  have hkeeps : KeepsBut [.lines] s { s with lines := lines } := keeps_lines s lines
  refine ⟨fun hmode => ?_, fun hmode hfull => ?_, fun hmode hlost hroom => ?_⟩
  · rw [strikeFunction_rotating (s := { s with lines := lines }) hmode] at hexec
    exact ⟨_, hexec, (bell_keeps t _).step (by decide) (hkeeps.mono (by decide)), rfl, rfl⟩
  · rw [strikeFunction_refused (s := { s with lines := lines }) hmode hfull] at hexec
    obtain ⟨hpending, hevents⟩ :=
      raiseTerminal_self t TermEvents.addKeysRefused (bell t { s with lines := lines })
    exact ⟨_, hexec, (raiseTerminal_keeps _ _ _).step (by decide) ((bell_keeps t _).step (by decide)
      (hkeeps.mono (by decide))), rfl, rfl, hpending, hevents⟩
  · rw [strikeFunction_queued (s := { s with lines := lines }) hmode hlost hroom] at hexec
    refine ⟨_, hexec, (raiseSource_keeps _ _).step (by decide) ((keeps_keys _ _).step (by decide)
      (hkeeps.mono (by decide))), rfl, rfl, fun h => ?_, fun e h => ?_⟩
    · exact congrArg (fun r => s.keys ++ [r]) (keyReport_closed (s := { s with lines := lines }) h)
    · exact congrArg (fun r => s.keys ++ [r]) (keyReport_open (s := { s with lines := lines }) h)

end

/-! ### The decoder (R65, R67) -/

theorem functionOf_functionCode (k : Fin 16) : functionOf (functionCode k) = some k := by
  revert k
  decide

theorem functionCode_ne_prefix (k : Fin 16) : functionCode k ≠ prefixCode := by
  revert k
  decide

section
variable {t : Fin 32} {c : Byte} {s : State}

theorem decodeChar_prefix (h : s.lines[t].pfx = false) :
    decodeChar t prefixCode s = setPrefix t true s := by
  unfold decodeChar
  rw [if_neg (Bool.eq_false_iff.mp h), if_pos rfl]

theorem decodeChar_function {k : Fin 16} (h : s.lines[t].pfx = true) :
    decodeChar t (functionCode k) s = strikeFunction t k (setPrefix t false s) := by
  unfold decodeChar
  rw [if_pos h, functionOf_functionCode]
  rfl

theorem decodeChar_noFunction (h : s.lines[t].pfx = true) (hc : functionOf c = none) :
    decodeChar t c s = setPrefix t false s := by
  unfold decodeChar
  rw [if_pos h, hc]

theorem decodeChar_noKey (h : s.lines[t].pfx = false) (hc : c ≠ prefixCode)
    (hkey : plainKey c = none) : decodeChar t c s = s := by
  unfold decodeChar
  rw [if_neg (Bool.eq_false_iff.mp h), if_neg hc, hkey]

theorem nothingWaits_iff {l : Line} : l.nothingWaits = true ↔ l.batch = [] ∧ l.rx = [] := by
  simp [Line.nothingWaits, List.isEmpty_iff]

/-- With nothing before it, a code is decoded at once. -/
theorem takeCode_decoded (ha : s.lines[t].attached = true) (hbatch : s.lines[t].batch = [])
    (hrx : s.lines[t].rx = []) : takeCode t c s = decodeChar t c s := by
  have hhead : ¬ s.lines[t].batch.head? = some c := by
    rw [hbatch]
    exact nofun
  unfold takeCode
  dsimp only
  rw [ha, if_neg (by decide), if_neg hhead, if_pos (nothingWaits_iff.mpr ⟨hbatch, hrx⟩)]

/-- A code at the head of the batch is decoded, and leaves the batch. -/
theorem takeCode_head (ha : s.lines[t].attached = true) (h : s.lines[t].batch.head? = some c) :
    takeCode t c s = batchTaken t (decodeChar t c s) := by
  unfold takeCode
  dsimp only
  rw [ha, if_neg (by decide), if_pos h]

theorem setPrefix_self (p : Bool) : (setPrefix t p s).lines[t] = { s.lines[t] with pfx := p } :=
  modLine_self t _ s

theorem setPrefix_lines (p : Bool) :
    (setPrefix t p s).lines = s.lines.set t { s.lines[t] with pfx := p } := rfl

/-- A lead code taken again leaves the state as it was. -/
theorem setPrefix_cleared (h : s.lines[t].pfx = false) :
    setPrefix t false (setPrefix t true s) = s := by
  have hline : { s.lines[t] with pfx := false } = s.lines[t] := by rw [← h]
  have hlines : (setPrefix t false (setPrefix t true s)).lines = s.lines := by
    rw [setPrefix_lines, setPrefix_self, setPrefix_lines, Vector.set_set]
    show s.lines.set t { s.lines[t] with pfx := false } = s.lines
    rw [hline]
    exact Vector.set_getElem_self t.isLt
  show { s with lines := (setPrefix t false (setPrefix t true s)).lines } = s
  rw [hlines]

theorem takeFunction_prefixed (ha : s.lines[t].attached = true) (hpfx : s.lines[t].pfx = true)
    (k : Fin 16) : takeFunction t k s = takeCode t (functionCode k) s := by
  unfold takeFunction
  dsimp only
  rw [ha, if_neg (by decide), if_pos hpfx]

/-- Both codes are taken together. -/
theorem takeFunction_both {k : Fin 16} (ha : s.lines[t].attached = true)
    (hpfx : s.lines[t].pfx = false)
    (h : s.lines[t].batch.take 2 = [prefixCode, functionCode k] ∨ s.lines[t].nothingWaits = true) :
    takeFunction t k s = takeCode t (functionCode k) (takeCode t prefixCode s) := by
  unfold takeFunction
  dsimp only
  rw [ha, if_neg (by decide), if_neg (Bool.eq_false_iff.mp hpfx), if_pos]
  rwa [Bool.or_eq_true, decide_eq_true_eq]

/-- Where other characters wait, both codes arrive behind them. -/
theorem takeFunction_arrives {k : Fin 16} (ha : s.lines[t].attached = true)
    (hpfx : s.lines[t].pfx = false) (hbatch : s.lines[t].batch ≠ [])
    (h : s.lines[t].batch.take 2 ≠ [prefixCode, functionCode k]) :
    takeFunction t k s = arrive t (functionCode k) (arrive t prefixCode s) := by
  unfold takeFunction
  dsimp only
  rw [ha, if_neg (by decide), if_neg (Bool.eq_false_iff.mp hpfx), if_neg]
  rw [Bool.or_eq_true, decide_eq_true_eq, nothingWaits_iff]
  exact fun hd => hd.elim h fun hw => hbatch hw.1

/-- A free decoder hands a function key over at once. -/
theorem takeFunction_free (h : DecoderFree s t) (k : Fin 16) :
    takeFunction t k s = strikeFunction t k s := by
  obtain ⟨ha, hpfx, hbatch, hrx⟩ := h
  have hself := setPrefix_self (t := t) (s := s) true
  rw [takeFunction_both ha hpfx (.inr (nothingWaits_iff.mpr ⟨hbatch, hrx⟩)),
    takeCode_decoded ha hbatch hrx, decodeChar_prefix hpfx,
    takeCode_decoded (by rw [hself]; exact ha) (by rw [hself]; exact hbatch) (by rw [hself]; exact hrx),
    decodeChar_function (by rw [hself]), setPrefix_cleared hpfx]

end

/-! ### The clauses -/

theorem functionKeyQueuesAReport : Clause.FunctionKeyQueuesAReport := by
  intro t k s hfree
  have hexec : exec (.functionKey t k) s = .next (settle (strikeFunction t k s)) :=
    congrArg (fun u => Host.Outcome.next (settle u)) (takeFunction_free hfree k)
  refine ⟨?_, functionKey_completes (lines := s.lines) hexec⟩
  obtain ⟨ha, hpfx, hbatch, hrx⟩ := hfree
  have hprefix : exec (.functionKeyPrefix t) s = .next (settle (setPrefix t true s)) :=
    congrArg (fun u => Host.Outcome.next (settle u))
      ((takeCode_decoded ha hbatch hrx).trans (decodeChar_prefix hpfx))
  exact ⟨_, hprefix, modLine_keeps _ _ _, rfl⟩

theorem functionKeyFollowsItsPrefix : Clause.FunctionKeyFollowsItsPrefix := by
  intro t k s ha hpfx hbatch hrx
  have hexec : exec (.functionKey t k) s =
      .next (settle (strikeFunction t k (setPrefix t false s))) :=
    congrArg (fun u => Host.Outcome.next (settle u)) ((takeFunction_prefixed ha hpfx k).trans
      ((takeCode_decoded ha hbatch hrx).trans (decodeChar_function hpfx)))
  exact functionKey_completes hexec

/-- At the head of the batch, a function key is handed over with its second code still in the batch. -/
theorem takeFunction_batch {t : Fin 32} {k : Fin 16} {s : State} {rest : List Byte}
    (ha : s.lines[t].attached = true) (hpfx : s.lines[t].pfx = false)
    (hbatch : s.lines[t].batch = prefixCode :: functionCode k :: rest) :
    takeFunction t k s = batchTaken t (strikeFunction t k
      { s with lines := s.lines.set t { s.lines[t] with batch := functionCode k :: rest } }) := by
  have htail : Line.handUp { s.lines[t] with pfx := true, batch := functionCode k :: rest } =
      { s.lines[t] with pfx := true, batch := functionCode k :: rest } :=
    Line.handUp_of_batch (List.cons_ne_nil _ _)
  have hself : (batchTaken t (setPrefix t true s)).lines[t] =
      { s.lines[t] with pfx := true, batch := functionCode k :: rest } := by
    unfold batchTaken
    rw [modLine_self, setPrefix_self, hbatch]
    exact htail
  have hlines : (setPrefix t false (batchTaken t (setPrefix t true s))).lines =
      s.lines.set t { s.lines[t] with batch := functionCode k :: rest } := by
    rw [setPrefix_lines, hself]
    show ((s.lines.set t _).set t _).set t _ = _
    rw [Vector.set_set, Vector.set_set, ← hpfx]
  have hstate : setPrefix t false (batchTaken t (setPrefix t true s)) =
      { s with lines := s.lines.set t { s.lines[t] with batch := functionCode k :: rest } } := by
    rw [← hlines]
    rfl
  rw [takeFunction_both ha hpfx (.inl (by rw [hbatch]; rfl)),
    takeCode_head ha (by rw [hbatch]; rfl), decodeChar_prefix hpfx,
    takeCode_head (by rw [hself]; exact ha) (by rw [hself]; rfl), decodeChar_function (by rw [hself]),
    hstate]

theorem functionKeyKeepsItsTwoCodes : Clause.FunctionKeyKeepsItsTwoCodes := by
  intro t k s ha hpfx
  refine ⟨fun rest hbatch hmode => ?_, fun hbatch hhead hroom => ?_⟩
  · have hexec : exec (.functionKey t k) s = .next (settle (takeFunction t k s)) := rfl
    rw [takeFunction_batch ha hpfx hbatch, strikeFunction_rotating (by exact hmode)] at hexec
    refine ⟨_, hexec, (modLine_keeps _ _ _).step (by decide) ((bell_keeps _ _).step (by decide)
      ((keeps_lines s _).mono (by decide))), ?_, rfl⟩
    exact modLine_of_set (s := s) (l := { s.lines[t] with batch := functionCode k :: rest }) rfl _
  · have hexec : exec (.functionKey t k) s = .next (settle (takeFunction t k s)) := rfl
    rw [takeFunction_arrives ha hpfx hbatch hhead] at hexec
    have hone := arrive_lines (t := t) (s := s) (by omega) prefixCode
    rw [if_neg fun h => hbatch h.1] at hone
    have hself : (arrive t prefixCode s).lines[t] =
        { s.lines[t] with idle := false, rx := s.lines[t].rx ++ [prefixCode] } :=
      (congrArg (fun v : Vector Line 32 => v[t]) hone).trans (Vector.getElem_set_self t.isLt)
    have hspace : (arrive t prefixCode s).lines[t].rx.length < 16 := by
      rw [hself, List.length_append]
      exact hroom
    have htwo := arrive_lines hspace (functionCode k)
    rw [hself, if_neg fun h => hbatch h.1] at htwo
    refine ⟨_, hexec, KeepsBut.trans (arrive_keeps_lines (by omega) _)
      (arrive_keeps_lines hspace _), htwo.trans ?_⟩
    rw [hone, Vector.set_set]
    show s.lines.set t { s.lines[t] with
      idle := false, rx := s.lines[t].rx ++ [prefixCode] ++ [functionCode k] } = _
    rw [List.append_assoc]
    rfl

theorem ignoredCodesDoNothing : Clause.IgnoredCodesDoNothing := by
  intro t c s
  refine ⟨fun ⟨ha, hpfx, hbatch, hrx⟩ hkey hc => ?_, fun ha hpfx hbatch hrx hc => ?_⟩
  · have hsame : (if isIgnored s.lines[t].pfx c then takeCode t c s else s) = s := by
      rw [takeCode_decoded ha hbatch hrx, decodeChar_noKey hpfx hc hkey, ite_self]
    exact ⟨s, congrArg (fun u => Host.Outcome.next (settle u)) hsame, KeepsBut.refl _ s, trivial⟩
  · have hignored : isIgnored s.lines[t].pfx c = true := by
      rw [hpfx, isIgnored, hc]
      rfl
    have hcleared : (if isIgnored s.lines[t].pfx c then takeCode t c s else s) =
        setPrefix t false s := by
      rw [if_pos hignored, takeCode_decoded ha hbatch hrx, decodeChar_noFunction hpfx hc]
    exact ⟨_, congrArg (fun u => Host.Outcome.next (settle u)) hcleared, modLine_keeps _ _ _, rfl⟩

/-- Settles O33: the decoder hands a function key over in one of three states, and the key then ends in one of three ways. -/
theorem functionKeysAndIgnoredCodes : Obligations.FunctionKeysAndIgnoredCodes :=
  ⟨functionKeyQueuesAReport, functionKeyFollowsItsPrefix, functionKeyKeepsItsTwoCodes,
    ignoredCodesDoNothing⟩

end Sys2Proof.Machine
end

section
/-! SUPPORT. Frames and breaks on a wire line, and intake in HUNT, SKIP and HEADER (R58, R166 to R168). -/

namespace Sys2Proof.Machine

/-! ### Frames and breaks (R166) -/

theorem modify_length_append {α : Type} (f : α → α) (init : List α) (last : α) :
    (init ++ [last]).modify init.length f = init ++ [f last] := by
  induction init with
  | nil => rfl
  | cons x init ih => exact congrArg (x :: ·) ih

theorem markTail_append (f : WireChar → WireChar) (init : List WireChar) (last : WireChar) :
    markTail f (init ++ [last]) = init ++ [f last] := by
  have hindex : (init ++ [last]).length - 1 = init.length := by
    rw [List.length_append]
    rfl
  rw [markTail, hindex, modify_length_append]

section
variable {w : Fin 4} {s : State}

/-- One wire line was written, and is written again. -/
theorem modWire_of_set {u : State} {l : Wire} (h : u.wires = s.wires.set w l) (f : Wire → Wire) :
    (modWire w f u).wires = s.wires.set w (f l) := by
  have hself : u.wires[w] = l := by
    rw [h]
    exact Vector.getElem_set_self w.isLt
  show u.wires.set w (f u.wires[w]) = _
  rw [hself, h, Vector.set_set]

/-- A character has come in, from which the silence is counted (R176). -/
def wireTimed (w : Fin 4) (s : State) : State := modWire w (fun l => { l with silenceFrom := s.now }) s

theorem wireTimed_self (w : Fin 4) (s : State) :
    (wireTimed w s).wires[w] = { s.wires[w] with silenceFrom := s.now } := modWire_self w _ s

theorem receiveWire_off (h : s.wires[w].intake = .off) (f : RxFrame) : receiveWire w f s = s :=
  if_pos h

theorem receiveWire_joins (h : s.wires[w].intake ≠ .off) (hroom : s.wires[w].fifo.length < 16)
    (f : RxFrame) : receiveWire w f s = modWire w (fun l => { l with
      fifo := l.fifo ++ [⟨frameCode l.format f,
        !f.stop || !parityRight s.wires[w].format f, false, false⟩] }) (wireTimed w s) := by
  refine (if_neg h).trans ?_
  have hspace : (wireTimed w s).wires[w].fifo.length < 16 := by
    rw [wireTimed_self]
    exact hroom
  refine (if_pos hspace).trans ?_
  show modWire w (fun l => { l with fifo := l.fifo ++ [⟨frameCode l.format f,
    !f.stop || !parityRight (wireTimed w s).wires[w].format f, false, false⟩] }) (wireTimed w s) = _
  rw [wireTimed_self]

theorem receiveWire_full (h : s.wires[w].intake ≠ .off) (hfull : 16 ≤ s.wires[w].fifo.length)
    (f : RxFrame) : receiveWire w f s = loseChar w (wireTimed w s) := by
  refine (if_neg h).trans ?_
  have hspace : ¬ (wireTimed w s).wires[w].fifo.length < 16 := by
    rw [wireTimed_self]
    exact Nat.not_lt_of_le hfull
  exact if_neg hspace

theorem wireBreak_off (h : s.wires[w].intake = .off) : wireBreak w s = s := by
  unfold wireBreak
  split
  · unfold intakeBreak
    rw [h]
  · rfl

theorem wireBreak_waiting (h : s.wires[w].intake ≠ .off) (hfifo : s.wires[w].fifo ≠ []) :
    wireBreak w s =
      modWire w (fun l => { l with fifo := markTail (fun c => { c with brk := true }) l.fifo }) s :=
  (if_neg hfifo).trans (if_neg h)

end

theorem wireFramesJoinTheFifo : Clause.WireFramesJoinTheFifo := by
  intro w f s
  have hframe : exec (.wireCharacterReceived w f) s = .next (settle (receiveWire w f s)) := rfl
  have hbreak : exec (.wireBreak w) s = .next (settle (wireBreak w s)) := rfl
  refine ⟨fun hoff => ?_, fun hon hroom => ?_, fun init last hon hfifo => ⟨fun hfull => ?_, ?_⟩,
    fun hfifo hintake => ?_⟩
  · rw [receiveWire_off hoff] at hframe
    rw [wireBreak_off hoff] at hbreak
    exact ⟨⟨s, hframe, KeepsBut.refl _ s, trivial⟩, ⟨s, hbreak, KeepsBut.refl _ s, trivial⟩⟩
  · rw [receiveWire_joins hon hroom] at hframe
    refine ⟨_, hframe, (modWire_keeps _ _ _).step (by decide) (modWire_keeps _ _ _), ?_⟩
    exact modWire_of_set (s := s) (u := wireTimed w s) rfl _
  · rw [receiveWire_full hon hfull] at hframe
    obtain ⟨hpending, hsummary⟩ := raiseWire_self w WireSummary.addOverrun (modWire w (fun l =>
      { l with fifo := markTail (fun c => { c with loss := true }) l.fifo }) (wireTimed w s))
    refine ⟨_, hframe, (raiseWire_keeps _ _ _).step (by decide) ((modWire_keeps _ _ _).step (by decide)
      ((modWire_keeps _ _ _).mono (by decide))), ?_, hpending, hsummary⟩
    have hmarked := modWire_of_set (s := s) (u := wireTimed w s) rfl fun l =>
      { l with fifo := markTail (fun c => { c with loss := true }) l.fifo }
    refine hmarked.trans ?_
    rw [← markTail_append (fun c => { c with loss := true }), ← hfifo]
  · have hwaiting : s.wires[w].fifo ≠ [] := by
      rw [hfifo]
      exact List.append_ne_nil_of_right_ne_nil _ (List.cons_ne_nil _ _)
    rw [wireBreak_waiting hon hwaiting] at hbreak
    refine ⟨_, hbreak, modWire_keeps _ _ _, ?_⟩
    rw [← markTail_append (fun c => { c with brk := true }), ← hfifo]
    rfl
  · rw [show wireBreak w s = _ from if_pos hfifo, intakeBreak_hunt hintake.symm] at hbreak
    exact ⟨_, hbreak, setIntake_keeps _ _ _, rfl⟩

/-! ### HUNT, SKIP and HEADER (R167, R168) -/

section
variable {w : Fin 4} {s : State} {c : WireChar} {got : List Byte}

/-- In HUNT and SKIP only an undamaged SOH counts. -/
theorem intakeChar_hunt (h : s.wires[w].intake = .hunt ∨ s.wires[w].intake = .skip) :
    intakeChar w c s = if c.code = 0x01#8 ∧ c.damaged = false then setIntake w (.header []) s else s := by
  have hsoh : (c.code = sohCode && !c.damaged) = true ↔ c.code = 0x01#8 ∧ c.damaged = false := by
    rw [Bool.and_eq_true, decide_eq_true_eq, Bool.not_eq_true']
    rfl
  unfold intakeChar
  rcases h with h | h
  · rw [h]
    simp only [hsoh]
  · rw [h]
    simp only [hsoh]

theorem intakeChar_header_damaged (h : s.wires[w].intake = .header got) (hd : c.damaged = true) :
    intakeChar w c s = raiseWire w WireSummary.addCharacter (setIntake w .skip s) := by
  unfold intakeChar
  rw [h]
  exact if_pos hd

/-- A character wrong for its position enters SKIP. -/
theorem takeHeading_wrong {code : Byte} (hsoh : code ≠ 0x01#8)
    (hmark : code = 0x0D#8 → got.length < 6) (hfit : headingFits got.length code = false) :
    takeHeading w got code s = raiseWire w WireSummary.addHeader (setIntake w .skip s) := by
  have hopen : ¬ (code = 0x0D#8 && decide (6 ≤ got.length)) = true := fun h => by
    obtain ⟨hcode, hlen⟩ := Bool.and_eq_true_iff.mp h
    exact absurd (of_decide_eq_true hlen) (Nat.not_le_of_lt (hmark (of_decide_eq_true hcode)))
  exact (if_neg hsoh).trans ((if_neg hopen).trans (if_neg (Bool.eq_false_iff.mp hfit)))

end

theorem intakeHuntsAndReadsHeadings : Clause.IntakeHuntsAndReadsHeadings := by
  intro w s c cs hfifo hloss hbrk
  have hexec : exec (.wireIntakeCharacter w) s =
      .next (settle (intakeChar w c (handed w cs s))) := by
    rw [exec_wireIntakeCharacter hfifo, marksTaken_quiet _ _ hbrk, lossTaken_none _ _ hloss]
  have hhand := handed_keeps w cs s
  have hself := handed_self w cs s
  have hintake := handed_intake w cs s
  refine ⟨fun hstate => ?_, fun got hheader => ?_⟩
  · rw [← hintake] at hstate
    rw [intakeChar_hunt hstate] at hexec
    refine ⟨_, hexec, KeepsBut.ite ((setIntake_keeps _ _ _).step (by decide) hhand) hhand, ?_⟩
    split
    · exact modWire_of_set (s := s) (handed_wires w cs s) _
    · exact handed_wires w cs s
  have hheader' := hintake.trans hheader
  have hskip := setIntake_self w .skip (handed w cs s)
  rw [hself] at hskip
  refine ⟨fun hd => ?_, fun hd hsoh => ?_, fun hd hsoh hmark hfit => ?_, fun hd hsoh hfit => ?_⟩
  · rw [intakeChar_header_damaged hheader' hd] at hexec
    obtain ⟨hpending, hsummary⟩ :=
      raiseWire_self w WireSummary.addCharacter (setIntake w .skip (handed w cs s))
    exact ⟨_, hexec, (raiseWire_keeps _ _ _).step (by decide) ((setIntake_keeps _ _ _).step (by decide)
      (hhand.mono (by decide))), congrArg Wire.intake hskip, congrArg Wire.fifo hskip, hpending,
      hsummary⟩
  · rw [intakeChar_header hheader' hd, hsoh] at hexec
    have hset := modWire_self w (fun l => { l with intake := .header [] }) (handed w cs s)
    rw [hself] at hset
    rw [show takeHeading w got 0x01#8 (handed w cs s) = _ from if_pos rfl] at hexec
    refine ⟨_, hexec, (modWire_keeps _ _ _).step (by decide) hhand, ?_⟩
    exact ⟨congrArg Wire.intake hset, congrArg Wire.fifo hset⟩
  · rw [intakeChar_header hheader' hd, takeHeading_wrong hsoh hmark hfit] at hexec
    obtain ⟨-, hsummary⟩ :=
      raiseWire_self w WireSummary.addHeader (setIntake w .skip (handed w cs s))
    exact ⟨_, hexec, (raiseWire_keeps _ _ _).step (by decide) ((setIntake_keeps _ _ _).step (by decide)
      (hhand.mono (by decide))), congrArg Wire.intake hskip, congrArg Wire.fifo hskip, hsummary⟩
  · rw [intakeChar_header hheader' hd, takeHeading_fits hfit hsoh] at hexec
    refine ⟨_, hexec, (modWire_keeps _ _ _).step (by decide) hhand, ?_⟩
    have hset := modWire_self w (fun l =>
      { l with intake := .header (if got.length < 21 then got ++ [c.code] else got) }) (handed w cs s)
    rw [hself] at hset
    exact ⟨congrArg Wire.intake hset, congrArg Wire.fifo hset⟩

/-- Settles O54: a frame joins the FIFO or leaves its loss on the tail, and intake takes the head of the FIFO by its state. -/
theorem wireReception : Obligations.WireReception :=
  ⟨wireFramesJoinTheFifo, intakeHuntsAndReadsHeadings⟩

end Sys2Proof.Machine
end

section
/-! SUPPORT. The images of a screen: the layers, the status row, the rotation display and the rest position (R76 to R85, R90, R93, R95, R103). -/

namespace Sys2Proof.Machine

/-! ### The composed image (R76, R88, R93) -/

/-- Nothing an image shows is changed before the images are composed. -/
theorem shownImage_settling (s : State) (t : Fin 32) :
    shownImage (grantEngine (moveAll s)) t = shownImage s t := by
  unfold grantEngine
  split
  · rfl
  · rfl

theorem mem_allRows {r : Nat} : r ∈ allRows ↔ 1 ≤ r ∧ r ≤ 24 := by
  unfold allRows
  rw [List.mem_range'_1]
  omega

theorem mem_recompose_marks {sc : Screen} {im : Image} {r : Nat} :
    r ∈ (sc.recompose im).marks ↔
      1 ≤ r ∧ r ≤ 24 ∧ (r ∈ sc.marks ∨ sc.composed.rows[r - 1]? ≠ im.rows[r - 1]?) := by
  show r ∈ allRows.filter (fun r => sc.marks.contains r ||
    sc.composed.rows[r - 1]? != im.rows[r - 1]?) ↔ _
  rw [List.mem_filter, mem_allRows, Bool.or_eq_true, List.contains_iff_mem, bne_iff_ne, and_assoc]

theorem EmitStep.composed_eq {sc sc' : Screen} {tx tx' : List Byte} (h : EmitStep sc tx sc' tx') :
    sc'.composed = sc.composed := by
  cases h with
  | row =>
    unfold takeRow
    dsimp only
    split <;> rfl
  | _ => rfl

theorem emit_composed (n : Nat) (sc : Screen) (tx : List Byte) :
    (emit n sc tx).1.composed = sc.composed :=
  emit_induct (P := fun u _ => u.composed = sc.composed) (fun h k => h.composed_eq.trans k) id n rfl

theorem composedImageIsTheShownImage : Clause.ComposedImageIsTheShownImage := by
  intro s t
  refine ⟨fun ha => ?_, fun x hx => ?_, fun hx => ?_, fun sc im r => ⟨rfl, mem_recompose_marks⟩⟩
  · have hlines := (grant_move_screens_lines s).2
    rw [settle_screen, refreshTerminal_attached _ t (hlines ▸ ha)]
    exact (emit_composed _ _ _).trans (shownImage_settling s t)
  · unfold shownImage
    rw [hx]
  · unfold shownImage
    split
    · next x h => exact absurd h (hx x)
    · rfl

/-! ### The status row (R81 to R85) -/

theorem padTo_nil (n : Nat) : padTo n [] = List.replicate n spaceCode := by
  rw [padTo, List.nil_append, List.take_replicate, Nat.min_self]

theorem decimal_digit {n : Nat} (h : n < 10) : decimal n = [digit n] := by
  have hmin : min n 999 = n := by omega
  unfold decimal
  simp only [hmin, if_pos h]

theorem editionOf_zero {s : State} {e : Fin 5} (h : e.val = 0) : editionOf s e = none := dif_pos h

theorem editionOf_succ {s : State} {e : Fin 5} {d : Fin 4} (h : e.val = d.val + 1) :
    editionOf s e = some s.editions[d] := by
  have hne : e.val ≠ 0 := by omega
  have hval : e.val - 1 = d.val := by omega
  unfold editionOf
  rw [dif_neg hne]
  simp only [hval]
  rfl

theorem ownRows_getLast (s : State) (t : Fin 32) : (ownRows s t).getLast? = some (statusRow s t) :=
  List.getLast?_concat

section
variable {s : State} {t : Fin 32}

theorem sessionStory_none (h : s.panes[t].session = none) : sessionStory s t = none := by
  unfold sessionStory
  rw [h]

theorem sessionStory_some {e : Session} {st : Story} (h : s.panes[t].session = some e)
    (hst : storyOf s e.story = some st) : sessionStory s t = some st := by
  unfold sessionStory
  rw [h]
  exact hst

theorem countdown_none (h : sessionStory s t = none) : countdown s t = [] := by
  unfold countdown
  rw [h]

theorem countdown_noEdition {st : Story} (h : sessionStory s t = some st)
    (he : s.baskets[st.basket].edition.val = 0) : countdown s t = [] := by
  unfold countdown
  rw [h]
  dsimp only
  rw [editionOf_zero he]

/-- The countdown to an edition's deadline (R85). -/
theorem countdown_edition {st : Story} {d : Fin 4} (h : sessionStory s t = some st)
    (he : s.baskets[st.basket].edition.val = d.val + 1) : countdown s t =
      match s.editions[d].state with
      | .passed => asc "E" ++ [digit (d.val + 1)] ++ asc " LATE"
      | .unarmed => []
      | .armed =>
        if s.clock.state = .unset then []
        else asc "E" ++ [digit (d.val + 1)] ++ asc " " ++
          decimal ((s.editions[d].time - s.clock.value + 59) / 60 / 60) ++ asc ":" ++
          two ((s.editions[d].time - s.clock.value + 59) / 60 % 60) := by
  unfold countdown
  rw [h]
  dsimp only
  rw [editionOf_succ he, he, decimal_digit (by omega)] <;> rfl

end

section
variable {s : State} {t : Fin 32}

theorem stateField_hostLost (h : s.link.hostLost = true) : stateField s t = asc "HOST LOST" := if_pos h

theorem stateField_flash (h : s.link.hostLost = false) {f : Flash} (hf : s.screens[t].flash = some f) :
    stateField s t = asc "FLASH " ++ padTo 10 f.slug := by
  unfold stateField
  rw [if_neg (Bool.eq_false_iff.mp h), hf]

theorem stateField_quiet (h : s.link.hostLost = false) (hf : s.screens[t].flash = none) :
    stateField s t = match sessionStory s t with
      | some st => if storyLate s st then asc "LATE" else s.screens[t].status
      | none => s.screens[t].status := by
  unfold stateField
  rw [if_neg (Bool.eq_false_iff.mp h), hf] <;> rfl

/-- The slug of the story in the edit session, and its fit. -/
def sessionSlug (s : State) (t : Fin 32) : List Byte := ((sessionStory s t).map (·.slug)).getD []

def sessionFit (s : State) (t : Fin 32) : List Byte := ((sessionStory s t).map fitText).getD []

theorem statusRow_eq (s : State) (t : Fin 32) : statusRow s t = clockField s ++ cellsOf .normal
    ([spaceCode] ++ padTo 16 (sessionSlug s t) ++ [spaceCode] ++ padTo 10 (sessionFit s t) ++
      [spaceCode] ++ padTo 16 (stateField s t) ++ [spaceCode] ++ padTo 8 (countdown s t) ++
      List.replicate 15 spaceCode ++ padTo 3 (if s.slots[t] = none then [] else asc "MSG")) := by
  have hmsg : (if s.slots[t].isSome then asc "MSG" else []) =
      if s.slots[t] = none then [] else asc "MSG" := by
    cases s.slots[t] <;> rfl
  unfold statusRow sessionSlug sessionFit
  rw [hmsg]
  cases sessionStory s t <;> rfl

theorem sessionSlug_of {st : Story} (h : sessionStory s t = some st) : sessionSlug s t = st.slug := by
  rw [sessionSlug, h]
  rfl

theorem sessionFit_of {st : Story} (h : sessionStory s t = some st) :
    sessionFit s t = fitText st := by
  rw [sessionFit, h]
  rfl

end

/-- The texts of a fit status (R82). -/
theorem fitText_eq (st : Story) :
    (st.fit.status = .on → fitText st = asc "ON") ∧ (st.fit.status = .unknown → fitText st = asc "FIT ?") ∧
      (st.fit.status = .pending → fitText st = asc "FIT ..") ∧
      (st.fit.status = .none → fitText st = []) ∧
      ∀ n, n = fitLines st.setting st.fit.depth →
        (st.fit.status = .over → fitText st = asc "OVER " ++ decimal n ++ asc "L") ∧
        (st.fit.status = .short → fitText st = asc "SHORT " ++ decimal n ++ asc "L") := by
  refine ⟨fun h => ?_, fun h => ?_, fun h => ?_, fun h => ?_, fun n hn =>
    ⟨fun h => ?_, fun h => ?_⟩⟩
  all_goals
    unfold fitText
    rw [h]
  · rw [hn]
  · rw [hn]

theorem statusRowShowsItsFields : Clause.StatusRowShowsItsFields := by
  intro s t
  refine ⟨clockField s, sessionSlug s t, sessionFit s t, stateField s t, countdown s t, _,
    (ownRows_getLast s t).trans (congrArg some (statusRow_eq s t)), fun h => ?_, fun h => ?_,
    fun h => ?_, fun h => ?_, fun e st he hst => ?_, stateField_hostLost, fun hlink =>
    ⟨fun f hf => stateField_flash hlink hf, fun hf => ⟨fun h => ?_, fun e st he hst => ?_⟩⟩, rfl⟩
  · unfold clockField
    rw [h]
  · unfold clockField
    rw [h]
    rfl
  · unfold clockField
    rw [h]
    rfl
  · have hnone := sessionStory_none h
    exact ⟨by rw [sessionSlug, hnone]; rfl, by rw [sessionFit, hnone]; rfl, countdown_none hnone⟩
  · have hsome := sessionStory_some he hst
    rw [sessionFit_of hsome]
    obtain ⟨hon, hunknown, hpending, hnone, hlines⟩ := fitText_eq st
    refine ⟨sessionSlug_of hsome, rfl, hon, hunknown, hpending, hnone, hlines,
      countdown_noEdition hsome, fun d hd => ?_⟩
    have hcount := countdown_edition hsome hd
    refine ⟨fun h => ?_, fun h => ?_, fun h hu => ?_, fun m h hset hm => ?_⟩
    · rw [hcount, h]
    · rw [hcount, h]
    · rw [hcount, h]
      exact if_pos hu
    · rw [hcount, h, hm]
      exact if_neg hset
  · rw [stateField_quiet hlink hf, sessionStory_none h]
  · rw [stateField_quiet hlink hf, sessionStory_some he hst]

/-! ### The layers (R76, R79, R80) -/

section
variable {s : State} {t : Fin 32}

/-- The rows under the message row: the rotation display, or the layers. -/
def bodyRows (s : State) (t : Fin 32) : List (List Cell) :=
  match s.screens[t].mode with
  | .rotating r => rotationRows s r
  | _ => layeredRows s t

theorem bodyRows_rotating {r : Rotation} (h : s.screens[t].mode = .rotating r) :
    bodyRows s t = rotationRows s r := by
  unfold bodyRows
  rw [h]

theorem bodyRows_layered (h : ∀ r, s.screens[t].mode ≠ .rotating r) :
    bodyRows s t = layeredRows s t := by
  unfold bodyRows
  split
  · next r hr => exact absurd hr (h r)
  · rfl

theorem ownRows_empty (h : s.slots[t] = none) : ownRows s t = bodyRows s t ++ [statusRow s t] := by
  unfold ownRows bodyRows
  rw [h] <;> rfl

theorem ownRows_message {m : Message} (h : s.slots[t] = some m) :
    ownRows s t = messageRow s m :: (bodyRows s t).drop 1 ++ [statusRow s t] := by
  unfold ownRows bodyRows
  rw [h] <;> rfl

/-- Below row 1 a message changes nothing (R80). -/
theorem ownRows_tail {row : List Cell} {rows : List (List Cell)} (h : bodyRows s t = row :: rows) :
    (ownRows s t).tail = rows ++ [statusRow s t] := by
  cases hslot : s.slots[t] with
  | none =>
    rw [ownRows_empty hslot, h]
    rfl
  | some m =>
    rw [ownRows_message hslot, h]
    rfl

theorem ownRows_head (hslot : s.slots[t] = none) {row : List Cell} {rows : List (List Cell)}
    (h : bodyRows s t = row :: rows) : (ownRows s t).head? = some row := by
  rw [ownRows_empty hslot, h]
  rfl

theorem editRows_none (h : s.panes[t].session = none) : editRows s t = none := by
  unfold editRows
  rw [h]

theorem editRows_some {e : Session} {st : Story} (h : s.panes[t].session = some e)
    (hst : storyOf s e.story = some st) :
    editRows s t = some (paneRows (editWidth s.lines[t].layout) (textOf s st) e.top) := by
  unfold editRows
  rw [h]
  dsimp only
  rw [hst]

theorem refRows_none (h : s.panes[t].ref = none) : refRows s t = none := by
  unfold refRows
  rw [h]

theorem refRows_some {r : RefPane} {st : Story} (h : s.panes[t].ref = some r)
    (hst : storyOf s r.story = some st) :
    refRows s t = some (paneRows 39 (textOf s st) r.top) := by
  unfold refRows
  rw [h]
  dsimp only
  rw [hst]
  rfl

theorem refSlug_none (h : s.panes[t].ref = none) : refSlug s t = none := by
  unfold refSlug
  rw [h]

theorem refSlug_some {r : RefPane} {st : Story} (h : s.panes[t].ref = some r)
    (hst : storyOf s r.story = some st) : refSlug s t = some st.slug := by
  unfold refSlug
  rw [h]
  dsimp only
  rw [hst]
  rfl

/-- In FULL the edit pane covers what is below row 1. -/
theorem layeredRows_full {row1 : List Cell} {below : List (List Cell)}
    (hbase : s.screens[t].base = row1 :: below) (hlayout : s.lines[t].layout = .full) :
    layeredRows s t = row1 :: (editRows s t).getD below := by
  unfold layeredRows
  rw [hlayout, hbase]
  cases editRows s t <;> rfl

/-- In SPLIT row 1 names the story of the reference pane, and a bar stands between the panes. -/
theorem layeredRows_split {row1 : List Cell} {below : List (List Cell)}
    (hbase : s.screens[t].base = row1 :: below) (hlayout : s.lines[t].layout = .split) :
    layeredRows s t = (match refSlug s t with
        | none => row1
        | some slug => cellsOf .bright (padTo 16 slug) ++ row1.drop 16) ::
      List.zipWith (fun l r => l ++ (⟨0x7C#8, .normal⟩ : Cell) :: r)
        ((refRows s t).getD (below.map (·.take 39))) ((editRows s t).getD (below.map (·.drop 40))) := by
  unfold layeredRows
  rw [hlayout, hbase]
  dsimp only
  rw [List.zip, List.map_zipWith]
  simp only [List.append_assoc, List.cons_append, List.nil_append]
  rfl

end

theorem panesAndMessageCoverTheBase : Clause.PanesAndMessageCoverTheBase := by
  intro s t row1 below hmode hbase
  have hbody := bodyRows_layered hmode
  refine ⟨fun m hm => ?_, fun hlayout => ?_, fun hlayout => ?_⟩
  · rw [ownRows_message hm]
    rfl
  · have hrows := hbody.trans (layeredRows_full hbase hlayout)
    refine ⟨fun hslot => ownRows_head hslot hrows, fun h => ?_, fun e st he hst => ?_⟩
    · rw [ownRows_tail hrows, editRows_none h]
      rfl
    · rw [ownRows_tail hrows, editRows_some he hst, hlayout]
      rfl
  · have hrows := hbody.trans (layeredRows_split hbase hlayout)
    refine ⟨fun hslot h => ?_, fun r st hslot hr hst => ?_, fun left right hleft hright => ?_⟩
    · rw [ownRows_head hslot hrows, refSlug_none h]
    · rw [ownRows_head hslot hrows, refSlug_some hr hst]
    · have hleftRows : (refRows s t).getD (below.map (·.take 39)) = left := by
        rcases hleft with ⟨h, rfl⟩ | ⟨r, st, hr, hst, rfl⟩
        · rw [refRows_none h]
          rfl
        · rw [refRows_some hr hst]
          rfl
      have hrightRows : (editRows s t).getD (below.map (·.drop 40)) = right := by
        rcases hright with ⟨h, rfl⟩ | ⟨e, st, he, hst, rfl⟩
        · rw [editRows_none h]
          rfl
        · rw [editRows_some he hst, hlayout]
          rfl
      rw [ownRows_tail hrows, hleftRows, hrightRows]

/-! ### The rest position (R90, R93, R103) -/

section
variable {s : State} {t : Fin 32}

theorem ownRest_rotating {r : Rotation} (h : s.screens[t].mode = .rotating r) :
    ownRest s t = (24, 80) := by
  unfold ownRest
  rw [h]

/-- The rest position where the terminal does not rotate. -/
theorem ownRest_still (h : ∀ r, s.screens[t].mode ≠ .rotating r) : ownRest s t =
    match s.panes[t].session with
    | none => (24, 80)
    | some e =>
      match e.focus with
      | .edit => cursorCell s t e
      | .reference => (2, 1) := by
  unfold ownRest
  split
  · next r hr => exact absurd hr (h r)
  · rfl

theorem ownRest_closed (h : s.panes[t].session = none) : ownRest s t = (24, 80) := by
  unfold ownRest
  split
  · rfl
  · rw [h]

end

theorem restPositionFollowsTheFocus : Clause.RestPositionFollowsTheFocus := by
  intro s t
  refine ⟨fun h => ?_, fun e st rows hmode he hst => ?_, fun x hx => ?_, fun hx => ?_⟩
  · rcases h with ⟨r, hr⟩ | h
    · exact ownRest_rotating hr
    · exact ownRest_closed h
  · have hrest := ownRest_still hmode
    rw [he] at hrest
    dsimp only at hrest
    refine ⟨fun hf => ?_, fun hf hlayout hrows => ?_, fun hf hlayout hrows => ?_⟩
    · rw [hf] at hrest
      exact hrest
    · rw [hf] at hrest
      refine hrest.trans ?_
      unfold cursorCell
      rw [hst, hrows, hlayout]
      exact congrArg (Prod.mk _) (Nat.zero_add _)
    · rw [hf] at hrest
      refine hrest.trans ?_
      unfold cursorCell
      rw [hst, hrows, hlayout]
      rfl
  · obtain ⟨-, hwatching, -⟩ := composedImageIsTheShownImage s t
    rw [hwatching x hx]
  · obtain ⟨-, -, hown, -⟩ := composedImageIsTheShownImage s t
    rw [hown hx]

/-! ### The rotation display (R95) -/

section
variable {s : State} {t : Fin 32} {r : Rotation} {b : Fin 64}

/-- The edition that a rotation display names, and its LATE. -/
def editionText (e : Fin 5) : List Byte := if e.val = 0 then [] else asc "E" ++ decimal e

def lateText (s : State) (bk : Basket) : List Byte := if basketLate s bk then asc "LATE" else []

theorem rotationRows_eq (h : r.baskets[r.position - 1]? = some b) :
    rotationRows s r = cellsOf .bright
        (padTo 12 s.baskets[b].name ++ [spaceCode] ++ padTo 2 (editionText s.baskets[b].edition) ++
          [spaceCode] ++ padTo 4 (lateText s s.baskets[b]) ++ List.replicate 54 spaceCode ++
          padTo 6 (decimal r.position ++ asc " OF " ++ decimal r.baskets.length)) ::
      (((s.baskets[b].list.take 22).filterMap fun id => (storyOf s id).map rotationStoryRow) ++
        List.replicate 22 blankRow).take 22 := by
  unfold rotationRows Rotation.shown
  rw [h]
  rfl

theorem lateText_edition {bk : Basket} {d : Fin 4} (h : bk.edition.val = d.val + 1) :
    lateText s bk = if s.editions[d].state = .passed then asc "LATE" else [] := by
  unfold lateText basketLate
  rw [editionOf_succ h]
  simp only [decide_eq_true_eq]

theorem getElem?_filterMap_of_isSome {α β : Type} {g : α → Option β} {l : List α}
    (h : ∀ a ∈ l, (g a).isSome = true) (i : Nat) : (l.filterMap g)[i]? = l[i]?.bind g := by
  induction l generalizing i with
  | nil => rfl
  | cons a l ih =>
    obtain ⟨v, hv⟩ := Option.isSome_iff_exists.mp (h a List.mem_cons_self)
    rw [List.filterMap_cons_some hv]
    cases i with
    | zero => exact hv.symm
    | succ i => exact ih (fun x hx => h x (List.mem_cons_of_mem _ hx)) i

/-- With every story of the list in the directory, row i of the list is row i below the heading. -/
theorem rotationList_getElem? (hall : ∀ id ∈ s.baskets[b].list, (storyOf s id).isSome = true) {i : Nat}
    (hi : i < 22) :
    ((((s.baskets[b].list.take 22).filterMap fun id => (storyOf s id).map rotationStoryRow) ++
      List.replicate 22 blankRow).take 22)[i]? =
      match s.baskets[b].list[i]? with
      | some id => (storyOf s id).map rotationStoryRow
      | none => some blankRow := by
  have hsome : ∀ id ∈ s.baskets[b].list.take 22,
      ((storyOf s id).map rotationStoryRow).isSome = true := fun id hid => by
    rw [Option.isSome_map]
    exact hall id (List.mem_of_mem_take hid)
  have hget := getElem?_filterMap_of_isSome hsome i
  rw [List.getElem?_take_of_lt hi] at hget ⊢
  cases hid : s.baskets[b].list[i]? with
  | some id =>
    rw [hid, Option.bind_some] at hget
    obtain ⟨st, hst⟩ := Option.isSome_iff_exists.mp (hall id (List.mem_of_getElem? hid))
    rw [hst, Option.map_some] at hget
    rw [List.getElem?_append_left (List.getElem?_eq_some_iff.mp hget).1, hget]
    exact (congrArg (Option.map rotationStoryRow) hst).symm
  | none =>
    rw [hid, Option.bind_none] at hget
    rw [List.getElem?_append_right (List.getElem?_eq_none_iff.mp hget), List.getElem?_replicate,
      if_pos (by omega)]

end

theorem rotationStoryRow_eq (st : Story) : rotationStoryRow st =
    cellsOf (if st.priority = .flash then .bright else .normal)
      (padTo 80 (padTo 16 st.slug ++ [spaceCode] ++
        (match st.priority with
          | .flash => asc "F"
          | .urgent => asc "U"
          | .routine => asc "R") ++ [spaceCode] ++
        padTo 7 (match st.holding with
          | .filing _ => asc "FILING"
          | .idle => asc "IDLE"
          | .editing _ => asc "EDITING"
          | .setting _ => asc "SETTING") ++ [spaceCode] ++
        padTo 10 (fitText st) ++ [spaceCode] ++
        match st.filed with
        | none => asc "--:--:--"
        | some v => two (v / 3600) ++ asc ":" ++ two (v / 60 % 60) ++ asc ":" ++ two (v % 60))) := by
  unfold rotationStoryRow
  cases st.filed <;> cases st.priority <;> cases st.holding <;> rfl

theorem rotationDisplayShowsTheBasket : Clause.RotationDisplayShowsTheBasket := by
  intro s t r b hmode hshown hall
  have hbody := (bodyRows_rotating hmode).trans (rotationRows_eq hshown)
  have hrow : ∀ i, i < 22 → (ownRows s t)[i + 1]? = match s.baskets[b].list[i]? with
      | some id => (storyOf s id).map rotationStoryRow
      | none => some blankRow := fun i hi => by
    rw [← List.getElem?_tail, ownRows_tail hbody, List.getElem?_append_left (by simp [hi]),
      rotationList_getElem? hall hi]
  refine ⟨fun hslot => ⟨_, _, ownRows_head hslot hbody, fun h => ?_, fun d hd => ?_⟩,
    fun i id st hi hid hst => ?_, fun i hlen hi => ?_⟩
  · exact ⟨if_pos h, by rw [lateText, basketLate, editionOf_zero h]; rfl⟩
  · refine ⟨?_, lateText_edition hd⟩
    rw [editionText, if_neg (by omega), hd, decimal_digit (by omega)]
  · rw [hrow i hi, hid]
    dsimp only
    rw [hst, Option.map_some, rotationStoryRow_eq] <;> rfl
  · rw [hrow i hi, List.getElem?_eq_none hlen]

end Sys2Proof.Machine
end

section
/-! SUPPORT. The display rows of a text: the five cases that end a row, the rows as a division of the text, and what a pane shows of them (R102, R103). -/

namespace Sys2Proof.Machine

/-! ### Where a run of characters stops -/

theorem length_takeWhile_eq {α : Type} {p : α → Bool} {l : List α} {n : Nat} (hn : n ≤ l.length)
    (hall : ∀ a ∈ l.take n, p a = true) (hstop : ∀ a, l[n]? = some a → p a = false) :
    (l.takeWhile p).length = n := by
  have hrest : (l.drop n).takeWhile p = [] := by
    cases hdrop : l.drop n with
    | nil => rfl
    | cons a as =>
      have hget : l[n]? = some a := by rw [← List.head?_drop, hdrop, List.head?_cons]
      exact List.takeWhile_cons_of_neg (by rw [hstop a hget]; exact Bool.false_ne_true)
  calc (l.takeWhile p).length
      = ((l.take n ++ l.drop n).takeWhile p).length := by rw [List.take_append_drop]
    _ = n := by
      rw [List.takeWhile_append_of_pos hall, hrest, List.append_nil, List.length_take, min_eq_left hn]

theorem length_takeWhile_le {α : Type} (p : α → Bool) (l : List α) : (l.takeWhile p).length ≤ l.length :=
  (List.takeWhile_prefix p).length_le

theorem stops_of_takeWhile {α : Type} {p : α → Bool} {l : List α} {a : α}
    (h : l[(l.takeWhile p).length]? = some a) : p a = false := by
  induction l with
  | nil => exact absurd h (by simp)
  | cons x xs ih =>
    cases hx : p x with
    | true =>
      rw [List.takeWhile_cons_of_pos hx, List.length_cons, List.getElem?_cons_succ] at h
      exact ih h
    | false =>
      rw [List.takeWhile_cons_of_neg (by rw [hx]; exact Bool.false_ne_true), List.length_nil,
        List.getElem?_cons_zero, Option.some.injEq] at h
      exact h ▸ hx

theorem takeWhile_ne_eq_self {x : Byte} {l : List Byte} (h : x ∉ l) :
    (l.takeWhile fun c => c ≠ x) = l :=
  List.takeWhile_eq_self_iff.mpr fun _ hc => decide_eq_true (ne_of_mem_of_not_mem hc h)

/-! ### The five cases (R102) -/

section
variable {w : Nat} {rest : List Byte}

theorem beforeMark_length {win : List Byte} (h : markCode ∉ win) :
    (win.takeWhile fun c => c ≠ markCode).length = win.length := by
  rw [takeWhile_ne_eq_self h]

theorem rowLength_mark {p : Nat} (hp : (rest.take w)[p]? = some markCode)
    (hfirst : markCode ∉ (rest.take w).take p) : rowLength w rest = p + 1 := by
  have hlt := (List.getElem?_eq_some_iff.mp hp).1
  have hlen : ((rest.take w).takeWhile fun c => c ≠ markCode).length = p :=
    length_takeWhile_eq hlt.le (fun c hc => decide_eq_true fun he => hfirst (he ▸ hc)) fun c hc => by
      rw [hp, Option.some.injEq] at hc
      simp [hc]
  unfold rowLength
  dsimp only
  rw [hlen, if_pos hlt]

theorem rowLength_short (h : markCode ∉ rest.take w) (hw : rest.length ≤ w) :
    rowLength w rest = rest.length := by
  unfold rowLength
  dsimp only
  rw [beforeMark_length h, if_neg (lt_irrefl _), if_pos hw]

section
variable (h : markCode ∉ rest.take w) (hw : w < rest.length)
include h hw

theorem rowLength_spaces {n : Nat} (hn : n ≠ 0) (hspaces : ∀ j, j < n → rest[w + j]? = some spaceCode)
    (hstop : rest[w + n]? ≠ some spaceCode) :
    rowLength w rest = w + n + if rest[w + n]? = some markCode then 1 else 0 := by
  have hlast := (List.getElem?_eq_some_iff.mp (hspaces (n - 1) (by omega))).1
  have hlen : ((rest.drop w).takeWhile fun c => c = spaceCode).length = n := by
    refine length_takeWhile_eq (by rw [List.length_drop]; omega) (fun c hc => ?_) fun c hc => ?_
    · obtain ⟨j, hj, rfl⟩ := List.mem_take_iff_getElem.mp hc
      have hget := hspaces j (by omega)
      rw [← List.getElem?_drop] at hget
      exact decide_eq_true (List.getElem_of_getElem? hget).2
    · rw [List.getElem?_drop] at hc
      exact decide_eq_false fun he => hstop (he ▸ hc)
  have hhead : rest[w]? = some spaceCode := hspaces 0 (by omega)
  unfold rowLength
  dsimp only
  rw [beforeMark_length h, if_neg (lt_irrefl _), if_neg (by omega), List.head?_drop, if_pos hhead, hlen,
    List.head?_drop, List.getElem?_drop]

theorem rowLength_markBehind (hmark : rest[w]? = some markCode) : rowLength w rest = w + 1 := by
  unfold rowLength
  dsimp only
  rw [beforeMark_length h, if_neg (lt_irrefl _), if_neg (by omega), List.head?_drop, hmark,
    if_neg (by decide), if_pos rfl]

theorem rowLength_broken (hspace : rest[w]? ≠ some spaceCode) (hmark : rest[w]? ≠ some markCode) :
    rowLength w rest = (afterLastSpace (rest.take w)).getD w := by
  unfold rowLength
  dsimp only
  rw [beforeMark_length h, if_neg (lt_irrefl _), if_neg (by omega), List.head?_drop, if_neg hspace,
    if_neg hmark]

end

theorem afterLastSpace_some {win : List Byte} {p : Nat} (hp : win[p]? = some spaceCode)
    (hlast : spaceCode ∉ win.drop (p + 1)) : afterLastSpace win = some (p + 1) := by
  have hlt := (List.getElem?_eq_some_iff.mp hp).1
  have hlen : (win.reverse.takeWhile fun c => c ≠ spaceCode).length = win.length - (p + 1) := by
    refine length_takeWhile_eq (by rw [List.length_reverse]; omega) (fun c hc => ?_) fun c hc => ?_
    · rw [List.take_reverse, show win.length - (win.length - (p + 1)) = p + 1 by omega,
        List.mem_reverse] at hc
      exact decide_eq_true fun he => hlast (he ▸ hc)
    · rw [List.getElem?_reverse (by omega), show win.length - 1 - (win.length - (p + 1)) = p by omega, hp,
        Option.some.injEq] at hc
      simp [hc]
  unfold afterLastSpace
  dsimp only
  rw [hlen, if_neg (by omega), show win.length - (win.length - (p + 1)) = p + 1 by omega]

theorem afterLastSpace_none {win : List Byte} (h : spaceCode ∉ win) : afterLastSpace win = none := by
  unfold afterLastSpace
  dsimp only
  rw [takeWhile_ne_eq_self fun hc => h (List.mem_reverse.mp hc), List.length_reverse, if_pos rfl]

theorem afterLastSpace_bounds {win : List Byte} {k : Nat} (h : afterLastSpace win = some k) :
    1 ≤ k ∧ k ≤ win.length := by
  have hle := length_takeWhile_le (fun c => decide (c ≠ spaceCode)) win.reverse
  rw [List.length_reverse] at hle
  unfold afterLastSpace at h
  dsimp only at h
  split at h
  · cases h
  · rw [Option.some.injEq] at h
    omega

/-- A row takes a character, and no more than there are. -/
theorem rowLength_bounds (hw : 1 ≤ w) (hrest : rest ≠ []) :
    1 ≤ rowLength w rest ∧ rowLength w rest ≤ rest.length := by
  have hpos := List.length_pos_iff.mpr hrest
  have hwin : (rest.take w).length ≤ rest.length := List.length_take_le' _ _
  unfold rowLength
  dsimp only
  split
  · omega
  split
  · omega
  have hspaces := length_takeWhile_le (fun c => decide (c = spaceCode)) (rest.drop w)
  rw [List.length_drop] at hspaces
  split
  · split
    next hmark =>
      have hlt := (List.getElem?_eq_some_iff.mp ((List.head?_drop).symm.trans hmark)).1
      rw [List.length_drop] at hlt
      omega
    · omega
  split
  · omega
  cases hlast : afterLastSpace (rest.take w) with
  | none => exact ⟨hw, by rw [Option.getD_none]; omega⟩
  | some k =>
    have := afterLastSpace_bounds hlast
    rw [Option.getD_some]
    omega

end

/-! ### A text divided into rows (R102) -/

/-- A text that has an end row: the empty text, and one that ends with a paragraph mark. -/
def HasEndRow (text : List Byte) : Prop := text = [] ∨ text.getLast? = some markCode

/-- The rows of a text from an offset on: rows with characters one behind the other up to the text's end, and the end row there where the text has one. -/
inductive RowsOf (w : Nat) (text : List Byte) : Nat → List DRow → Prop
  | done : ¬ HasEndRow text → RowsOf w text text.length []
  | endRow : HasEndRow text → RowsOf w text text.length [⟨text.length, 0⟩]
  | row {start : Nat} {rows : List DRow} : start < text.length →
      RowsOf w text (start + rowLength w (text.drop start)) rows →
      RowsOf w text start (⟨start, rowLength w (text.drop start)⟩ :: rows)

section
variable {w : Nat} {text : List Byte} (hw : 1 ≤ w)
include hw

theorem rowLength_drop {start : Nat} (h : start < text.length) :
    1 ≤ rowLength w (text.drop start) ∧ start + rowLength w (text.drop start) ≤ text.length := by
  have hb := rowLength_bounds hw (rest := text.drop start) (by simpa using h)
  rw [List.length_drop] at hb
  omega

/-- With fuel for what remains, and endRow true exactly where the text has its end row. -/
theorem rowsFrom_rowsOf {n start : Nat} {endRow : Bool} (hstart : start ≤ text.length)
    (hfuel : text.length < start + n)
    (hend : start = text.length → (endRow = true ↔ HasEndRow text)) :
    RowsOf w text start (rowsFrom w n start (text.drop start) endRow) := by
  induction n generalizing start endRow with
  | zero => omega
  | succ n ih =>
    cases hdrop : text.drop start with
    | nil =>
      have heq : start = text.length := le_antisymm hstart (List.drop_eq_nil_iff.mp hdrop)
      subst heq
      rw [rowsFrom]
      split
      next h => exact .endRow ((hend rfl).mp h)
      next h => exact .done fun he => h ((hend rfl).mpr he)
    | cons c rest =>
      have hlt : start < text.length := by
        by_contra hge
        rw [List.drop_eq_nil_of_le (by omega)] at hdrop
        cases hdrop
      obtain ⟨hpos, hle⟩ := rowLength_drop hw hlt
      rw [rowsFrom, ← hdrop, max_eq_right hpos, List.drop_drop]
      refine .row hlt (ih hle (by omega) fun hall => ?_)
      have hlast : ((text.drop start).take (rowLength w (text.drop start))).getLast? = text.getLast? := by
        rw [List.take_of_length_le (by rw [List.length_drop]; omega), List.getLast?_drop,
          if_neg (by omega)]
      have hne : text ≠ [] := fun he => by rw [he] at hlt; exact Nat.not_lt_zero _ hlt
      rw [hlast, decide_eq_true_iff, HasEndRow, or_iff_right hne]

theorem displayRows_rowsOf : RowsOf w text 0 (displayRows w text) := by
  refine rowsFrom_rowsOf (start := 0) hw (Nat.zero_le _) (by omega) fun h => ?_
  exact ⟨fun _ => .inl (List.length_eq_zero_iff.mp h.symm), fun _ => rfl⟩

end

section
variable {w : Nat} {text : List Byte} {start : Nat} {rows : List DRow} (h : RowsOf w text start rows)
include h

theorem RowsOf.head_start {r : DRow} (hr : rows.head? = some r) : r.start = start := by
  cases h with
  | done _ => cases hr
  | endRow _ => cases hr; rfl
  | row _ _ => cases hr; rfl

theorem RowsOf.nil_start (hnil : rows = []) : start = text.length := by
  cases h with
  | done _ => rfl
  | endRow _ => cases hnil
  | row _ _ => cases hnil

/-- Each row begins where the one before it ends. -/
theorem RowsOf.consecutive {i : Nat} {r next : DRow} (hr : rows[i]? = some r)
    (hnext : rows[i + 1]? = some next) : next.start = r.start + r.len := by
  induction h generalizing i with
  | done _ => cases hr
  | endRow _ => cases hnext
  | row _ hrest ih =>
    cases i with
    | zero =>
      cases hr
      exact hrest.head_start (by rw [List.head?_eq_getElem?]; exact hnext)
    | succ i => exact ih hr hnext

/-- The last row ends at the text's end. -/
theorem RowsOf.last_end {r : DRow} (hr : rows.getLast? = some r) : r.start + r.len = text.length := by
  induction h with
  | done _ => cases hr
  | endRow _ => cases hr; rfl
  | @row start rows _ hrest ih =>
    cases rows with
    | nil =>
      cases hr
      exact hrest.nil_start rfl
    | cons x xs => exact ih (by rw [← hr, List.getLast?_cons_cons])

/-- A row without characters is the end row. -/
theorem RowsOf.empty_row (hw : 1 ≤ w) {i : Nat} {r : DRow} (hr : rows[i]? = some r) (hlen : r.len = 0) :
    i + 1 = rows.length ∧ r.start = text.length := by
  induction h generalizing i with
  | done _ => cases hr
  | endRow _ =>
    cases i with
    | zero => cases hr; exact ⟨rfl, rfl⟩
    | succ i => cases hr
  | row hlt _ ih =>
    cases i with
    | zero =>
      cases hr
      have := (rowLength_drop hw hlt).1
      dsimp only at hlen
      omega
    | succ i =>
      obtain ⟨hi, hstart⟩ := ih hr
      exact ⟨by rw [List.length_cons, hi], hstart⟩

theorem RowsOf.exists_empty_iff (hw : 1 ≤ w) : (∃ r ∈ rows, r.len = 0) ↔ HasEndRow text := by
  induction h with
  | done hno => exact ⟨fun ⟨r, hr, _⟩ => absurd hr List.not_mem_nil, fun he => absurd he hno⟩
  | endRow hyes => exact ⟨fun _ => hyes, fun _ => ⟨_, List.mem_singleton_self _, rfl⟩⟩
  | row hlt _ ih =>
    have := (rowLength_drop hw hlt).1
    rw [← ih, List.exists_mem_cons_iff, or_iff_right (by dsimp only; omega)]

/-- A row with characters takes what the five cases say of the rest of the text. -/
theorem RowsOf.len_eq {r : DRow} (hr : r ∈ rows) (hlen : r.len ≠ 0) :
    r.len = rowLength w (text.drop r.start) := by
  induction h with
  | done _ => cases hr
  | endRow _ =>
    cases List.mem_singleton.mp hr
    exact absurd rfl hlen
  | row _ _ ih =>
    rcases List.mem_cons.mp hr with rfl | hr
    · rfl
    · exact ih hr

end

/-! ### The row of an offset -/

theorem rowIndex_succ {rows : List DRow} (h : RowsFrom 0 rows) (hne : rows ≠ []) (off : Nat) :
    rowIndex rows off + 1 = (rowsUpTo rows off).length := by
  have := rowsUpTo_pos h hne off
  rw [rowIndex_eq]
  omega

/-- The row behind an offset's row begins behind the offset. -/
theorem lt_start_of_behind {rows : List DRow} (h : RowsFrom 0 rows) (hne : rows ≠ []) {off : Nat}
    {next : DRow} (hnext : rows[rowIndex rows off + 1]? = some next) : off < next.start := by
  rw [rowIndex_succ h hne] at hnext
  have hstop := stops_of_takeWhile (p := fun r : DRow => decide (r.start ≤ off)) hnext
  exact Nat.lt_of_not_le (of_decide_eq_false hstop)

theorem offset_lies_on_row {w : Nat} {text : List Byte} (hw : 1 ≤ w) {off : Nat} (hoff : off ≤ text.length) :
    ∃ r, (displayRows w text)[rowIndex (displayRows w text) off]? = some r ∧
      rowStart (displayRows w text) off = r.start ∧ r.start ≤ off ∧
      (off < r.start + r.len ∨
        off = text.length ∧ rowIndex (displayRows w text) off + 1 = (displayRows w text).length) := by
  have hrise := displayRows_rising w text
  have hne := displayRows_ne_nil w text
  have hrows := displayRows_rowsOf (text := text) hw
  have hlt := rowIndex_lt hrise hne off
  have hget := List.getElem?_eq_getElem hlt
  have hstart : rowStart (displayRows w text) off =
      ((displayRows w text)[rowIndex (displayRows w text) off]).start := by
    rw [rowStart, rowAt_eq hlt]
  refine ⟨_, hget, hstart, hstart ▸ rowStart_le hrise hne off, ?_⟩
  cases hnext : (displayRows w text)[rowIndex (displayRows w text) off + 1]? with
  | some next =>
    have hbehind := lt_start_of_behind hrise hne hnext
    rw [hrows.consecutive hget hnext] at hbehind
    exact .inl hbehind
  | none =>
    have hlast : rowIndex (displayRows w text) off + 1 = (displayRows w text).length := by
      have := List.getElem?_eq_none_iff.mp hnext
      omega
    have hend := hrows.last_end (r := (displayRows w text)[rowIndex (displayRows w text) off]) (by
      rw [List.getLast?_eq_getElem?, ← hlast, Nat.add_sub_cancel]
      exact hget)
    rcases Nat.lt_or_eq_of_le hoff with hin | hat
    · exact .inl (hend ▸ hin)
    · exact .inr ⟨hat, hlast⟩

theorem displayRowsEndByTheFiveCases : Clause.DisplayRowsEndByTheFiveCases := by
  rintro w text rows hw rfl
  have hrows := displayRows_rowsOf (text := text) hw
  have hne := displayRows_ne_nil w text
  refine ⟨?_, fun i r next hr hnext => hrows.consecutive hr hnext, ?_,
    fun i r hr hlen => hrows.empty_row hw hr hlen, hrows.exists_empty_iff hw, ?_,
    fun off hoff => offset_lies_on_row hw hoff⟩
  · exact ⟨_, List.head?_eq_some_head hne, hrows.head_start (List.head?_eq_some_head hne)⟩
  · exact ⟨_, List.getLast?_eq_some_getLast hne, hrows.last_end (List.getLast?_eq_some_getLast hne)⟩
  · rintro r rest win hr hlen rfl rfl
    rw [hrows.len_eq hr hlen]
    refine ⟨fun p hp hfirst => rowLength_mark hp hfirst, fun hmark hle => rowLength_short hmark hle,
      fun hmark hlt => ⟨fun n hspace hspaces hstop => ?_, fun hbehind => rowLength_markBehind hmark hlt hbehind,
        fun hspace hbehind => ?_⟩⟩
    · have hn : n ≠ 0 := fun h0 => by
        rw [h0, Nat.add_zero] at hstop
        exact hstop hspace
      exact rowLength_spaces hmark hlt hn hspaces hstop
    · rw [rowLength_broken hmark hlt hspace hbehind]
      exact ⟨fun p hp hlast => by rw [afterLastSpace_some hp hlast, Option.getD_some],
        fun hnone => by rw [afterLastSpace_none hnone, Option.getD_none]⟩

/-! ### The rows of a pane (R103) -/

/-- A character as a pane shows it. -/
def paneChar (c : Byte) : Byte := if c = markCode then spaceCode else c

theorem padTo_length (n : Nat) (t : List Byte) : (padTo n t).length = n := by
  rw [padTo, List.length_take, List.length_append, List.length_replicate]
  omega

theorem padTo_getElem? {n j : Nat} (hj : j < n) (t : List Byte) :
    (padTo n t)[j]? = some (t[j]?.getD spaceCode) := by
  rw [padTo, List.getElem?_take_of_lt hj]
  cases ht : t[j]? with
  | some c => rw [List.getElem?_append_left (List.getElem?_eq_some_iff.mp ht).1, ht, Option.getD_some]
  | none =>
    rw [List.getElem?_append_right (List.getElem?_eq_none_iff.mp ht), List.getElem?_replicate,
      if_pos (by omega), Option.getD_none]

theorem paneRow_length (w : Nat) (text : List Byte) (r : DRow) : (paneRow w text r).length = w := by
  unfold paneRow cellsOf
  rw [List.length_map, padTo_length]

theorem paneRow_getElem? {w j : Nat} (hj : j < w) (text : List Byte) (r : DRow) :
    (paneRow w text r)[j]? = some
      ⟨if j < r.len then ((text[r.start + j]?).map paneChar).getD spaceCode else spaceCode, .normal⟩ := by
  unfold paneRow cellsOf
  rw [List.getElem?_map, padTo_getElem? hj, List.getElem?_map, List.getElem?_take_of_lt hj,
    List.getElem?_take]
  split
  · rw [List.getElem?_drop]
    rfl
  · rfl

theorem paneRows_length (w : Nat) (text : List Byte) (top : Nat) : (paneRows w text top).length = 22 := by
  unfold paneRows
  rw [List.length_take, List.length_append, List.length_replicate]
  omega

theorem paneRows_getElem? (w : Nat) (text : List Byte) (top : Nat) {i : Nat} (hi : i < 22) :
    (paneRows w text top)[i]? =
      some (((displayRows w text)[rowIndex (displayRows w text) top + i]?.map (paneRow w text)).getD
        (spaces w .normal)) := by
  have hshown : ((shownRows (displayRows w text) top).map (paneRow w text))[i]? =
      (displayRows w text)[rowIndex (displayRows w text) top + i]?.map (paneRow w text) := by
    rw [List.getElem?_map, shownRows, List.getElem?_take_of_lt hi, List.getElem?_drop]
  unfold paneRows
  rw [List.getElem?_take_of_lt hi, ← hshown]
  cases hrow : ((shownRows (displayRows w text) top).map (paneRow w text))[i]? with
  | some row => rw [List.getElem?_append_left (List.getElem?_eq_some_iff.mp hrow).1, hrow, Option.getD_some]
  | none =>
    rw [List.getElem?_append_right (List.getElem?_eq_none_iff.mp hrow), List.getElem?_replicate,
      if_pos (by omega), Option.getD_none]

theorem columnOf_eq {w : Nat} {rows : List DRow} {off : Nat} {r : DRow}
    (h : rows[rowIndex rows off]? = some r) : columnOf w rows off = min w (off - r.start + 1) := by
  have hget := List.getElem?_eq_some_iff.mp h
  rw [columnOf, rowStart, rowAt_eq hget.1, hget.2]

theorem panesShowTheirRows : Clause.PanesShowTheirRows := by
  rintro w top text rows - rfl
  refine ⟨paneRows_length w text top, fun i hi => ⟨_, paneRows_getElem? w text top hi, ?_⟩,
    fun off r hr _ => columnOf_eq hr⟩
  cases hrow : (displayRows w text)[rowIndex (displayRows w text) top + i]? with
  | some row =>
    rw [Option.map_some, Option.getD_some]
    refine ⟨paneRow_length w text row, fun r j hr hj => ?_, fun hle => ?_⟩
    · cases hr
      rw [paneRow_getElem? hj]
      refine ⟨fun c hin hc => ?_, fun hout => by rw [if_neg (by omega)]; rfl⟩
      rw [if_pos hin, hc]
      rfl
    · rw [List.getElem?_eq_none hle] at hrow
      cases hrow
  | none => exact ⟨List.length_replicate, fun _ _ hr => (Option.some_ne_none _ hr.symm).elim, fun _ => rfl⟩

end Sys2Proof.Machine
end

section
/-! SUPPORT. The codes of a row in hand: which columns they redraw, and what a terminal makes of them (R73, R89). -/

namespace Sys2Proof.Machine

/-! ### The columns in which two rows differ -/

section
variable {shown old : List Cell}

theorem differingColumns_rising : (differingColumns shown old).Pairwise (· < ·) := by
  have hsub : (differingColumns shown old).Sublist (((shown.zip old).zipIdx 1).map Prod.snd) := by
    unfold differingColumns
    induction (shown.zip old).zipIdx 1 with
    | nil => exact .slnil
    | cons p ps ih =>
      rw [List.filterMap_cons, List.map_cons]
      split
      next h => exact .cons _ ih
      next d h =>
        split at h
        · cases h
        · cases h
          exact .cons_cons _ ih
  rw [List.zipIdx_map_snd] at hsub
  exact List.Pairwise.sublist hsub List.pairwise_lt_range'

section
variable (hlen : shown.length = old.length)
include hlen

theorem mem_differingColumns {d : Nat} :
    d + 1 ∈ differingColumns shown old ↔ shown[d]? ≠ old[d]? := by
  unfold differingColumns
  rw [List.mem_filterMap]
  constructor
  · rintro ⟨p, hp, hd⟩
    split at hd
    next => cases hd
    next hne =>
      rw [Option.some.injEq] at hd
      obtain ⟨hle, -, -⟩ := List.mem_zipIdx hp
      have hget := List.mk_mem_zipIdx_iff_le_and_getElem?_sub.mp (show (p.1, p.2) ∈ _ from hp)
      rw [hd, Nat.add_sub_cancel] at hget
      obtain ⟨hs, ho⟩ := List.getElem?_zip_eq_some.mp hget.2
      rw [hs, ho]
      exact fun he => hne (Option.some.inj he)
  · intro hne
    have hlt : d < shown.length := by
      by_contra hge
      exact hne (by rw [List.getElem?_eq_none (by omega), List.getElem?_eq_none (by omega)])
    have hs := List.getElem?_eq_getElem hlt
    have ho := List.getElem?_eq_getElem (hlen ▸ hlt : d < old.length)
    refine ⟨((shown[d], old[d]), d + 1), ?_, ?_⟩
    · refine List.mk_mem_zipIdx_iff_le_and_getElem?_sub.mpr ⟨by omega, ?_⟩
      rw [Nat.add_sub_cancel]
      exact List.getElem?_zip_eq_some.mpr ⟨hs, ho⟩
    · rw [hs, ho] at hne
      exact if_neg fun he => hne (congrArg some he)

theorem differingColumns_eq_nil : differingColumns shown old = [] ↔ shown = old := by
  refine ⟨fun h => List.ext_getElem? fun d => ?_, fun h => ?_⟩
  · by_contra hne
    exact absurd ((mem_differingColumns hlen).mpr hne) (by rw [h]; exact List.not_mem_nil)
  · refine List.eq_nil_iff_forall_not_mem.mpr fun d hd => ?_
    cases d with
    | zero =>
      obtain ⟨p, hp, hd⟩ := List.mem_filterMap.mp hd
      have := (List.mem_zipIdx hp).1
      split at hd
      · cases hd
      · rw [Option.some.injEq] at hd
        omega
    | succ d => exact (mem_differingColumns hlen).mp hd (by rw [h])

end

theorem le_getLastD_of_rising {f d : Nat} {more : List Nat} (h : (f :: more).Pairwise (· < ·))
    (hd : d ∈ f :: more) : d ≤ more.getLastD f := by
  induction more generalizing f d with
  | nil => exact (List.mem_singleton.mp hd).le
  | cons m ms ih =>
    obtain ⟨hf, hms⟩ := List.pairwise_cons.mp h
    rw [List.getLastD_cons]
    rcases List.mem_cons.mp hd with rfl | hd
    · exact (hf m List.mem_cons_self).le.trans (ih hms List.mem_cons_self)
    · exact ih hms hd

/-- The first and the last of the columns in which two rows of 80 cells differ. -/
structure DifferBetween (shown old : List Cell) (f l : Nat) : Prop where
  pos : 1 ≤ f
  le : f ≤ l
  bound : l ≤ 80
  before : shown.take (f - 1) = old.take (f - 1)
  behind : shown.drop l = old.drop l

theorem differBetween_of_cons (hshown : shown.length = 80) (hold : old.length = 80) {f : Nat}
    {more : List Nat} (h : differingColumns shown old = f :: more) :
    DifferBetween shown old f (more.getLastD f) := by
  have hlen : shown.length = old.length := hshown.trans hold.symm
  have hrise := differingColumns_rising (shown := shown) (old := old)
  have hlast : more.getLastD f ∈ differingColumns shown old := by
    rw [h]
    exact List.getLastD_mem_cons
  have hbounds : ∀ d ∈ differingColumns shown old, 1 ≤ d ∧ d ≤ 80 := fun d hd => by
    have hmem : d ∈ ((shown.zip old).zipIdx 1).map Prod.snd := by
      obtain ⟨p, hp, hpd⟩ := List.mem_filterMap.mp hd
      split at hpd
      · cases hpd
      · cases hpd
        exact List.mem_map_of_mem hp
    rw [List.zipIdx_map_snd, List.mem_range'_1, List.length_zip] at hmem
    omega
  have hmin : ∀ d ∈ differingColumns shown old, f ≤ d := fun d hd => by
    rw [h] at hd hrise
    rcases List.mem_cons.mp hd with rfl | hd
    · exact le_rfl
    · exact ((List.pairwise_cons.mp hrise).1 d hd).le
  have hmax : ∀ d ∈ differingColumns shown old, d ≤ more.getLastD f := fun d hd => by
    rw [h] at hd hrise
    exact le_getLastD_of_rising hrise hd
  have hagree : ∀ d, d + 1 < f ∨ more.getLastD f < d + 1 → shown[d]? = old[d]? := fun d hd => by
    by_contra hne
    have hmem := (mem_differingColumns hlen).mpr hne
    have := hmin _ hmem
    have := hmax _ hmem
    omega
  refine ⟨(hbounds f (h ▸ List.mem_cons_self)).1, hmin _ hlast, (hbounds _ hlast).2,
    List.ext_getElem? fun d => ?_, List.ext_getElem? fun d => ?_⟩
  · rw [List.getElem?_take, List.getElem?_take]
    split
    · exact hagree d (by omega)
    · rfl
  · rw [List.getElem?_drop, List.getElem?_drop]
    exact hagree _ (by omega)

/-! ### The clear column -/

theorem clearColumn_bounds (hshown : shown.length = 80) : 1 ≤ clearColumn shown ∧ clearColumn shown ≤ 81 := by
  have hle := length_takeWhile_le (fun c => decide (c = Cell.blank)) shown.reverse
  rw [List.length_reverse] at hle
  unfold clearColumn
  omega

theorem drop_clearColumn (hshown : shown.length = 80) :
    shown.drop (clearColumn shown - 1) = List.replicate (81 - clearColumn shown) Cell.blank := by
  have hle := length_takeWhile_le (fun c => decide (c = Cell.blank)) shown.reverse
  rw [List.length_reverse] at hle
  have hblank : ∀ c ∈ shown.drop (clearColumn shown - 1), c = Cell.blank := fun c hc => by
    have hrev := List.prefix_iff_eq_take.mp
      (List.takeWhile_prefix (l := shown.reverse) fun c => decide (c = Cell.blank))
    rw [List.take_reverse] at hrev
    have hmem : c ∈ shown.reverse.takeWhile fun c => decide (c = Cell.blank) := by
      rw [hrev, List.mem_reverse]
      have hcol : clearColumn shown - 1 =
          shown.length - (shown.reverse.takeWhile fun c => decide (c = Cell.blank)).length := by
        unfold clearColumn
        omega
      rwa [hcol] at hc
    exact of_decide_eq_true (List.mem_takeWhile_imp (p := fun c => decide (c = Cell.blank)) hmem)
  refine List.eq_replicate_iff.mpr ⟨?_, hblank⟩
  rw [List.length_drop, hshown]
  have := clearColumn_bounds hshown
  omega

end

/-! ### What a terminal draws (R73) -/

theorem draw_positionCode {r c : Nat} (hr : 1 ≤ r) (hr' : r ≤ 24) (hc : 1 ≤ c) (hc' : c ≤ 80) (im : Sent) :
    im.draw (positionCode (r, c)) = { im with cursor := (r, c) } := by
  have hrow : (BitVec.ofNat 8 (0x20 + r - 1)).toNat - 0x20 + 1 = r := by
    rw [BitVec.toNat_ofNat, Nat.mod_eq_of_lt (by omega)]
    omega
  have hcol : (BitVec.ofNat 8 (0x20 + c - 1)).toNat - 0x20 + 1 = c := by
    rw [BitVec.toNat_ofNat, Nat.mod_eq_of_lt (by omega)]
    omega
  show (if (0x10#8 : Byte) = 0x10#8 then { im with cursor := (_, _) } else im) = _
  rw [if_pos rfl, hrow, hcol]

theorem draw_attrCode (a : Attr) (im : Sent) : im.draw (attrCode a) = { im with attr := a } := by
  cases a <;> rfl

theorem draw_text {c : Byte} (h : isText c = true) (im : Sent) : im.draw [c] = im.putChar c := by
  have hne : ∀ x : Byte, isText x = false → c ≠ x := fun x hx he => by
    rw [he, hx] at h
    exact Bool.false_ne_true h
  show (if c = 0x12#8 then _ else if c = 0x13#8 then _ else if c = 0x07#8 then im else im.putChar c) = _
  rw [if_neg (hne _ (by decide)), if_neg (hne _ (by decide)), if_neg (hne _ (by decide))]

/-! ### Drawing a row -/

/-- A row of which the first n cells are drawn. -/
def rowDrawn (shown old : List Cell) (n : Nat) : List Cell := shown.take n ++ old.drop n

/-- A terminal whose row r is drawn up to a cell, with the cursor behind it. -/
def Sent.drawing (rows : List (List Cell)) (r : Nat) (shown old : List Cell) (n : Nat) (a : Attr) : Sent :=
  ⟨rows.set (r - 1) (rowDrawn shown old n), (r, min 80 (n + 1)), a⟩

section
variable {rows : List (List Cell)} {r : Nat} {shown old : List Cell}

theorem modRow_drawing (n : Nat) (a : Attr) (hr : r - 1 < rows.length) (g : List Cell → List Cell) :
    (Sent.drawing rows r shown old n a).modRow r g =
      ⟨rows.set (r - 1) (g (rowDrawn shown old n)), (r, min 80 (n + 1)), a⟩ := by
  have hmod : (rows.set (r - 1) (rowDrawn shown old n)).modify (r - 1) g =
      rows.set (r - 1) (g (rowDrawn shown old n)) := by
    rw [List.modify_eq_set_getElem?, List.getElem?_set_self hr, Option.map_eq_map, Option.map_some,
      Option.getD_some, List.set_set]
  unfold Sent.modRow Sent.drawing
  rw [hmod]

theorem rowDrawn_set {n : Nat} {c : Cell} (hc : shown[n]? = some c) (hold : n < old.length) :
    (rowDrawn shown old n).set n c = rowDrawn shown old (n + 1) := by
  obtain ⟨hn, rfl⟩ := List.getElem?_eq_some_iff.mp hc
  have hlen : (shown.take n).length = n := by rw [List.length_take, min_eq_left hn.le]
  unfold rowDrawn
  rw [List.set_append_right _ _ hlen.le, hlen, Nat.sub_self, List.drop_eq_getElem_cons hold,
    List.set_cons_zero, ← List.take_append_getElem hn, List.append_assoc]
  rfl

variable (hr : r - 1 < rows.length) (hshown : shown.length = 80)
include hr hshown

theorem draw_clearRow {n : Nat} (hn : n < 80) (hclear : clearColumn shown ≤ n + 1) (a : Attr) :
    (Sent.drawing rows r shown old n a).draw clearRowCode =
      ⟨rows.set (r - 1) shown, (r, min 80 (n + 1)), a⟩ := by
  have hcol : min 80 (n + 1) = n + 1 := min_eq_right hn
  have hblank : shown.drop n = List.replicate (80 - n) Cell.blank := by
    have hdrop := congrArg (List.drop (n - (clearColumn shown - 1))) (drop_clearColumn hshown)
    have := clearColumn_bounds hshown
    rw [List.drop_drop, List.drop_replicate] at hdrop
    rwa [show clearColumn shown - 1 + (n - (clearColumn shown - 1)) = n by omega,
      show 81 - clearColumn shown - (n - (clearColumn shown - 1)) = 80 - n by omega] at hdrop
  have hrow : (rowDrawn shown old n).take n ++ List.replicate (80 - n) Cell.blank = shown := by
    rw [rowDrawn, List.take_append_of_le_length (by rw [List.length_take]; omega), List.take_take, min_self,
      ← hblank, List.take_append_drop]
  show (Sent.drawing rows r shown old n a).modRow r
    (fun row => row.take (min 80 (n + 1) - 1) ++ List.replicate (81 - min 80 (n + 1)) Cell.blank) = _
  rw [modRow_drawing n a hr, hcol, Nat.add_sub_cancel, show 81 - (n + 1) = 80 - n by omega, hrow]

variable (hold : old.length = 80)
include hold

theorem draw_cell {n : Nat} {c : Cell} (hc : shown[n]? = some c) (htext : isText c.ch = true) :
    (Sent.drawing rows r shown old n c.attr).draw [c.ch] =
      Sent.drawing rows r shown old (n + 1) c.attr := by
  have hn : n < 80 := hshown ▸ (List.getElem?_eq_some_iff.mp hc).1
  have hcol : min 80 (n + 1) = n + 1 := min_eq_right hn
  rw [draw_text htext]
  show ({ (Sent.drawing rows r shown old n c.attr).modRow r
      (fun row => row.set (min 80 (n + 1) - 1) ⟨c.ch, c.attr⟩) with
    cursor := (r, min 80 (min 80 (n + 1) + 1)) } : Sent) = _
  rw [modRow_drawing n c.attr hr, hcol, Nat.add_sub_cancel, rowDrawn_set hc (hold ▸ hn)]
  rfl

/-- The codes of cells draw these cells, behind those that are drawn. -/
theorem foldl_cellCodes (htext : ∀ c ∈ shown, isText c.ch = true) {cells : List Cell} {n : Nat} (a : Attr)
    (hcells : cells <+: shown.drop n) :
    (cellCodes a cells).1.foldl Sent.draw (Sent.drawing rows r shown old n a) =
      Sent.drawing rows r shown old (n + cells.length) (cellCodes a cells).2 := by
  induction cells generalizing n a with
  | nil => rfl
  | cons c cs ih =>
    have hn : n < shown.length := by
      by_contra hge
      rw [List.drop_eq_nil_of_le (by omega)] at hcells
      exact absurd (List.prefix_nil.mp hcells) (List.cons_ne_nil _ _)
    rw [List.drop_eq_getElem_cons hn, List.cons_prefix_cons] at hcells
    obtain ⟨rfl, hcs⟩ := hcells
    have hdraw := draw_cell hr hshown hold (List.getElem?_eq_getElem hn) (htext _ (List.getElem_mem hn))
    have hfirst : (if shown[n].attr = a then [[shown[n].ch]] else [attrCode shown[n].attr, [shown[n].ch]]).foldl
        Sent.draw (Sent.drawing rows r shown old n a) =
        Sent.drawing rows r shown old (n + 1) shown[n].attr := by
      split
      next heq => rw [← heq]; exact hdraw
      next => rw [List.foldl_cons, draw_attrCode]; exact hdraw
    rw [cellCodes, List.foldl_append, hfirst, ih _ hcs, List.length_cons]
    exact congrArg (Sent.drawing rows r shown old · _) (by omega)

/-- The codes of a row in hand draw it, and leave the cursor and the attributes the sent image takes. -/
theorem foldl_rowCodes (htext : ∀ c ∈ shown, isText c.ch = true) {f l : Nat}
    (hdiff : DifferBetween shown old f l) (hr1 : 1 ≤ r) (hr24 : r ≤ 24) (hrow : rows[r - 1]? = some old)
    (cursor : Nat × Nat) (a : Attr) :
    (rowCodes r shown f l a).1.foldl Sent.draw ⟨rows, cursor, a⟩ =
      ⟨rows.set (r - 1) shown, (rowCodes r shown f l a).2.1, (rowCodes r shown f l a).2.2⟩ := by
  obtain ⟨hf, hfl, hl, hbefore, hbehind⟩ := hdiff
  have hclear := clearColumn_bounds hshown
  have hstart : (Sent.mk rows cursor a).draw (positionCode (r, f)) =
      Sent.drawing rows r shown old (f - 1) a := by
    have hset : rows.set (r - 1) old = rows := by
      obtain ⟨_, rfl⟩ := List.getElem?_eq_some_iff.mp hrow
      exact List.set_getElem_self _
    have hnone : rowDrawn shown old (f - 1) = old := by
      rw [rowDrawn, hbefore, List.take_append_drop]
    rw [draw_positionCode hr1 hr24 hf (hfl.trans hl), Sent.drawing, hnone, hset, Nat.sub_add_cancel hf,
      min_eq_right (hfl.trans hl)]
  generalize hstop : (if clearColumn shown ≤ l then clearColumn shown - 1 else l) = stop
  generalize hcells : (shown.take stop).drop (f - 1) = cells
  have hlen : cells.length = min stop 80 - (f - 1) := by
    rw [← hcells, List.length_drop, List.length_take, hshown]
  have hsub : cells <+: shown.drop (f - 1) := by
    rw [← hcells, List.drop_take]
    exact List.take_prefix _ _
  have hcodes : rowCodes r shown f l a = (positionCode (r, f) :: (cellCodes a cells).1 ++
      (if clearColumn shown ≤ l then [clearRowCode] else []), (r, min 80 (f + cells.length)),
      (cellCodes a cells).2) := by
    rw [← hcells, ← hstop]
    rfl
  have hcol : f - 1 + cells.length + 1 = f + cells.length := by omega
  rw [hcodes, List.foldl_append, List.foldl_cons, hstart, foldl_cellCodes hr hshown hold htext a hsub]
  dsimp only
  by_cases hj : clearColumn shown ≤ l
  · rw [if_pos hj] at hstop ⊢
    rw [List.foldl_cons, List.foldl_nil, draw_clearRow hr hshown (by omega) (by omega), hcol]
  · rw [if_neg hj] at hstop ⊢
    have hall : rowDrawn shown old l = shown := by rw [rowDrawn, ← hbehind, List.take_append_drop]
    rw [List.foldl_nil, Sent.drawing, hcol, show f - 1 + cells.length = l by omega, hall]

end

/-! ### Taking a row in hand (R89) -/

section
variable {sc : Screen} {im : Sent} {r : Nat} {shown old : List Cell}
  (hshown : sc.composed.rows[r - 1]? = some shown) (hold : im.rows[r - 1]? = some old)

theorem takeRow_leaves (sc : Screen) (im : Sent) (r : Nat) :
    (takeRow sc im r).marks = sc.marks.erase r ∧ (takeRow sc im r).last = some r := by
  unfold takeRow
  dsimp only
  split <;> exact ⟨rfl, rfl⟩

include hshown hold

theorem takeRow_same (h : differingColumns shown old = []) :
    takeRow sc im r = { sc with last := some r, marks := sc.marks.erase r } := by
  unfold takeRow
  rw [hshown, hold]
  dsimp only [Option.getD_some]
  rw [h]

theorem takeRow_differs {f : Nat} {more : List Nat} (h : differingColumns shown old = f :: more) :
    takeRow sc im r =
      { sc with
        last := some r
        marks := sc.marks.erase r
        hand := some (r, (rowCodes r shown f (more.getLastD f) im.attr).1)
        sent := some ⟨im.rows.set (r - 1) shown, (rowCodes r shown f (more.getLastD f) im.attr).2.1,
          (rowCodes r shown f (more.getLastD f) im.attr).2.2⟩ } := by
  unfold takeRow
  rw [hshown, hold]
  dsimp only [Option.getD_some]
  rw [h]

end

theorem rowCodesDrawTheRow : Clause.RowCodesDrawTheRow := by
  intro sc im r shown old hr1 hr24 hcomposed hsent hshown hold htext hhand
  have hlen : shown.length = old.length := hshown.trans hold.symm
  obtain ⟨hmarks, hlast⟩ := takeRow_leaves sc im r
  refine ⟨hmarks, hlast, fun heq => ?_, fun hne => ?_⟩
  · rw [takeRow_same hcomposed hsent ((differingColumns_eq_nil hlen).mpr heq)]
    exact ⟨hhand, rfl⟩
  · cases hcols : differingColumns shown old with
    | nil => exact absurd ((differingColumns_eq_nil hlen).mp hcols) hne
    | cons f more =>
      rw [takeRow_differs hcomposed hsent hcols]
      refine ⟨_, _, rfl, rfl, ?_, rfl, fun f' hf' => by cases hf'; rfl⟩
      exact foldl_rowCodes (List.getElem?_eq_some_iff.mp hsent).1 hshown hold htext
        (differBetween_of_cons hshown hold hcols) hr1 hr24 hsent im.cursor im.attr

/-- Settles O60: the shown image is composed of its layers, display rows divide the text and the panes show them, and the codes of a row taken in hand draw it. -/
theorem rowsAreComposedAndSent : Obligations.RowsAreComposedAndSent :=
  ⟨composedImageIsTheShownImage, statusRowShowsItsFields, panesAndMessageCoverTheBase,
    displayRowsEndByTheFiveCases, panesShowTheirRows, restPositionFollowsTheFocus,
    rotationDisplayShowsTheBasket, rowCodesDrawTheRow⟩

end Sys2Proof.Machine
end

section
/-! SUPPORT. ASSIGN TERMINAL for a detached terminal, and DETACH TERMINAL (R60, R62, R93, R117). -/

namespace Sys2Proof.Machine

/-! ### An answer seen through what it keeps -/

/-- An order in hand whose owner leaves u, without touching the link: what holds of every state that is u but for its link holds when the order is answered. -/
theorem replies_of_own_kept {i : Instr} {kind tag : Byte} {body : List Byte} {s u : State}
    {need : Nat} {own : List Byte → State → Answer} {r : Reply} {fs : List Field}
    {P : State → Prop} (hi : exec i s = .next (takeOrder kind need own tag body s))
    (ht : Takes ⟨kind, tag, body⟩ s) (hn : need ≤ body.length)
    (ho : own body (dropHead s) = (u, r)) (hk : KeepsBut fs (dropHead s) u)
    (hl : Field.link ∉ fs) (hP : ∀ w, KeepsBut [.link] u w → P w) : Replies i kind tag r fs s P :=
  replies_of_own_eq hi ht hn ho hk hl (hP _ (keeps_link u _))

/-! ### The assignment an order's body gives (R60) -/

theorem val_of_inRange {n v : Nat} {i : Fin n} (h : inRange n v = some i) : i.val = v := by
  unfold inRange at h
  split at h
  · cases h
    rfl
  · cases h

theorem Layout.code_of_ofCode {v : Nat} {l : Layout} (h : Layout.ofCode v = some l) : l.code = v := by
  unfold Layout.ofCode at h
  split at h
  · cases h
    rfl
  · cases h
    rfl
  · cases h

theorem Layout.ofCode_eq_none {v : Nat} (h : 2 ≤ v) : Layout.ofCode v = none := by
  unfold Layout.ofCode
  split
  · omega
  · omega
  · rfl

theorem clampParity_eq (v : Nat) :
    clampParity v = if v = 1 then .even else if v = 2 then .odd else .none := by
  unfold clampParity
  split
  · rfl
  · rfl
  next h1 h2 => rw [if_neg h1, if_neg h2]

section
variable {body : List Byte}

theorem assignmentOf_none (h : 16 ≤ u8 body 1 ∨ 16 ≤ u8 body 2 ∨ 2 ≤ u8 body 3) :
    assignmentOf body = none := by
  unfold assignmentOf
  rcases h with h | h | h
  · rw [inRange_eq_none h]
  · rw [inRange_eq_none h]
    split
    next hkey _ => cases hkey
    next => rfl
  · rw [Layout.ofCode_eq_none h]
    split
    next hlayout => cases hlayout
    next => rfl

variable {a : Assignment} (h : assignmentOf body = some a)
include h

/-- The fields of the assignment; the format and the trigger are clamped. -/
theorem assignmentOf_fields : a.desk.val = u8 body 1 ∧ a.key.val = u8 body 2 ∧
    a.layout.code = u8 body 3 ∧ a.format = (lineFormatAt body 4).1 ∧
    a.trigger = (if 9 < body.length then clampTrigger (u8 body 9) else 1) ∧
    a.clamped = ((lineFormatAt body 4).2 ||
      (decide (9 < body.length) && decide (a.trigger ≠ u8 body 9))) := by
  unfold assignmentOf at h
  split at h
  next d k l hd hk hl =>
    cases h
    exact ⟨val_of_inRange hd, val_of_inRange hk, Layout.code_of_ofCode hl, rfl, rfl, rfl⟩
  next => cases h

theorem assignmentOf_clamped : a.clamped = true ↔ a.format.rate ≠ u16 body 4 ∨
    a.format.dataBits ≠ u8 body 6 ∨ 2 < u8 body 7 ∨ a.format.stopBits ≠ u8 body 8 ∨
    (9 < body.length ∧ a.trigger ≠ u8 body 9) := by
  obtain ⟨-, -, -, hformat, -, hclamped⟩ := assignmentOf_fields h
  rw [hclamped, hformat]
  unfold lineFormatAt
  simp only [Bool.or_eq_true, Bool.and_eq_true, decide_eq_true_eq, or_assoc]

end

/-! ### Writing one terminal's screen -/

section
variable {t : Fin 32} {s : State}

/-- One screen was written, and is written again. -/
theorem modScreen_of_set {u : State} {sc : Screen} (h : u.screens = s.screens.set t sc)
    (f : Screen → Screen) : (modScreen t f u).screens = s.screens.set t (f sc) := by
  have hself : u.screens[t] = sc := by
    rw [h]
    exact Vector.getElem_set_self t.isLt
  show u.screens.set t (f u.screens[t]) = _
  rw [hself, h, Vector.set_set]

theorem set_self_at {α : Type} (v : Vector α 32) (x : α) : (v.set t x)[t] = x :=
  Vector.getElem_set_self t.isLt

theorem set_other_at {α : Type} {x : Fin 32} (hx : x ≠ t) (v : Vector α 32) (y : α) :
    (v.set t y)[x] = v[x] :=
  Vector.getElem_set_ne t.isLt x.isLt fun he => hx (Fin.ext he.symm)

/-! ### A detached terminal is attached (R60) -/

/-- A line that is attached with an assignment. -/
def Line.assigned (a : Assignment) (l : Line) : Line :=
  { l with
    attached := true, desk := a.desk, key := a.key, layout := a.layout, format := a.format
    trigger := a.trigger, batch := [], idle := false }

theorem attach_lines (a : Assignment) :
    (attach t a s).lines = s.lines.set t (s.lines[t].emptied.assigned a) :=
  modLine_of_set (u := emptyFifos t s) rfl (Line.assigned a)

theorem attach_screens (a : Assignment) : (attach t a s).screens =
    s.screens.set t { s.screens[t] with waiting := false, mode := .normal }.repaint :=
  modScreen_of_set (u := setSlot t none (modScreen t (fun sc => { sc with mode := .normal })
      (modLine t (Line.assigned a) (emptyFifos t s))))
    (modScreen_of_set (u := modLine t (Line.assigned a) (emptyFifos t s)) rfl
      fun sc => { sc with mode := .normal })
    Screen.repaint

theorem attach_slots (a : Assignment) : (attach t a s).slots = s.slots.set t none := rfl

theorem ownAssignTerminal_range {body : List Byte}
    (h : 32 ≤ u8 body 0 ∨ 16 ≤ u8 body 1 ∨ 16 ≤ u8 body 2 ∨ 2 ≤ u8 body 3) (s : State) :
    ownAssignTerminal body s = refuse .range s := by
  unfold ownAssignTerminal
  rcases h with h | h
  · rw [inRange_eq_none h]
  · rw [assignmentOf_none h]
    split
    next hnone => cases hnone
    next => rfl

theorem ownAssignTerminal_detached {body : List Byte} {a : Assignment} (ht : u8 body 0 = t.val)
    (ha : assignmentOf body = some a) (hs : s.lines[t].attached = false) :
    ownAssignTerminal body s = (attach t a s, ⟨if a.clamped then .clamped else .ok, []⟩) := by
  unfold ownAssignTerminal
  rw [inRange_of_val ht, ha]
  exact if_neg (Bool.eq_false_iff.mp hs)

end

theorem assignTerminalGivesTheAssignment : Clause.AssignTerminalGivesTheAssignment := by
  intro tag body s hlen htakes
  refine ⟨fun hrange => refuses_of_own (own := ownAssignTerminal) rfl htakes hlen
    (ownAssignTerminal_range hrange _), fun t a ht ha => ⟨?_, fun hdetached => ?_⟩⟩
  · obtain ⟨hdesk, hkey, hlayout, hformat, htrigger, -⟩ := assignmentOf_fields ha
    refine ⟨hdesk, hkey, hlayout, ?_, ?_, ?_, ?_, htrigger, assignmentOf_clamped ha⟩
    · rw [hformat]; rfl
    · rw [hformat]; rfl
    · rw [hformat]; rfl
    · rw [hformat]; exact clampParity_eq _
  · refine replies_of_own_kept (own := ownAssignTerminal) rfl htakes hlen
      (ownAssignTerminal_detached (s := dropHead s) ht ha hdetached) (attach_keeps t a (dropHead s))
      (by decide) fun w hw => ?_
    have hlines : w.lines = s.lines.set t (s.lines[t].emptied.assigned a) :=
      (hw .lines (by decide)).trans (attach_lines (s := dropHead s) a)
    have hscreens : w.screens =
        s.screens.set t { s.screens[t] with waiting := false, mode := .normal }.repaint :=
      (hw .screens (by decide)).trans (attach_screens (s := dropHead s) a)
    have hslots : w.slots = s.slots.set t none :=
      (hw .slots (by decide)).trans (attach_slots (s := dropHead s) a)
    rw [hlines, hscreens, set_self_at, set_self_at]
    refine ⟨rfl, rfl, rfl, rfl, rfl, rfl, rfl, rfl, rfl, hslots, rfl, rfl, rfl, fun x hx => ?_⟩
    exact ⟨set_other_at hx _ _, set_other_at hx _ _⟩

/-! ### DETACH TERMINAL (R62, R93, R117) -/

/-- A screen whose watch of a target has ended. -/
def Screen.unwatched (target : Fin 32) (sc : Screen) : Screen :=
  if sc.mode = .watching target then { sc with mode := .normal, marks := allRows }.repaint else sc

theorem Screen.unwatched_layers (target : Fin 32) (sc : Screen) :
    (sc.unwatched target).base = sc.base ∧ (sc.unwatched target).status = sc.status := by
  unfold Screen.unwatched
  split <;> exact ⟨rfl, rfl⟩

theorem endWatchers_screens (target : Fin 32) (s : State) (x : Fin 32) :
    (endWatchers target s).screens[x] = s.screens[x].unwatched target := by
  refine forTerminals_at (fun s x => s.screens[x]) (fun _ => Screen.unwatched target)
    (fun s x => ?_) (fun s x y hy => ?_) s x
  · unfold Screen.unwatched
    by_cases hw : s.screens[x].mode = .watching target
    · rw [if_pos hw, if_pos (show watches s x target = true from decide_eq_true hw)]
      exact (modScreen_self x _ _).trans (congrArg Screen.repaint (modScreen_self x _ s))
    · rw [if_neg hw, if_neg fun h : watches s x target = true => hw (of_decide_eq_true h)]
  · by_cases hw : watches s x target = true
    · rw [if_pos hw]
      exact (modScreen_other _ _ hy).trans (modScreen_other _ s hy)
    · rw [if_neg hw]

/-- Both panes of a terminal are closed, and no other's (R117). -/
theorem closePanes_panes (t : Fin 32) (s : State) :
    (closePanes t s).panes = s.panes.set t ⟨none, none⟩ := by
  have hclosed : (closeSession t true s).panes[t] = { s.panes[t] with session := none } := by
    rw [panes_closeSession]
    exact set_self_at _ _
  show (closeSession t true s).panes.set t ⟨(closeSession t true s).panes[t].session.map _, none⟩ = _
  rw [hclosed, panes_closeSession, Vector.set_set]
  rfl

theorem closePanes_ended {s : State} {t : Fin 32} {e : Session} {st : Story}
    (he : s.panes[t].session = some e) (hst : storyOf s e.story = some st) :
    SessionEnded s (closePanes t s) e st :=
  (closeSession_ended he hst).congr rfl rfl

section
variable {t : Fin 32} {s : State}

/-- A line that is detached. -/
def Line.detached (l : Line) : Line := { l with attached := false, batch := [], idle := false }

/-- What DETACH TERMINAL does once the panes are closed and the watchers told: the terminal's slot, screen and line are cleared. -/
def clearTerminal (t : Fin 32) (s : State) : State :=
  modLine t Line.detached (emptyFifos t (setSlot t none (modScreen t Screen.detached s)))

theorem detach_eq (t : Fin 32) (s : State) :
    detach t s = clearTerminal t (endWatchers t (closePanes t s)) := rfl

theorem clearTerminal_lines : (clearTerminal t s).lines = s.lines.set t s.lines[t].emptied.detached :=
  modLine_of_set (u := emptyFifos t (setSlot t none (modScreen t Screen.detached s))) rfl Line.detached

theorem clearTerminal_screens : (clearTerminal t s).screens =
    s.screens.set t { s.screens[t].detached with waiting := false } :=
  modScreen_of_set (u := modLine t Line.emptied (setSlot t none (modScreen t Screen.detached s))) rfl
    fun sc => { sc with waiting := false }

theorem clearTerminal_slots : (clearTerminal t s).slots = s.slots.set t none := rfl

theorem clearTerminal_keeps (t : Fin 32) (s : State) :
    KeepsBut [.lines, .screens, .slots] s (clearTerminal t s) :=
  (modLine_keeps _ _ _).step (by decide) ((emptyFifos_keeps _ _).step (by decide)
    ((setSlot_keeps _ _ _).step (by decide) ((modScreen_keeps _ _ _).mono (by decide))))

/-- Before the terminal's own slot, screen and line are cleared. -/
theorem unwatched_keeps (t : Fin 32) (s : State) :
    KeepsBut [.stories, .fit, .panes, .screens] s (endWatchers t (closePanes t s)) :=
  (endWatchers_keeps t _).step (by decide) ((closePanes_keeps t s).mono (by decide))

theorem unwatched_screens (x : Fin 32) :
    (endWatchers t (closePanes t s)).screens[x] = s.screens[x].unwatched t := by
  rw [endWatchers_screens, closePanes_keeps t s .screens (by decide)]

theorem detach_lines : (detach t s).lines = s.lines.set t s.lines[t].emptied.detached := by
  rw [detach_eq, clearTerminal_lines, unwatched_keeps t s .lines (by decide)]

theorem detach_screens_self : (detach t s).screens[t] =
    { (s.screens[t].unwatched t).detached with waiting := false } := by
  rw [detach_eq, clearTerminal_screens, set_self_at, unwatched_screens]

theorem detach_screens_other {x : Fin 32} (hx : x ≠ t) :
    (detach t s).screens[x] = s.screens[x].unwatched t := by
  rw [detach_eq, clearTerminal_screens, set_other_at hx, unwatched_screens]

theorem detach_slots : (detach t s).slots = s.slots.set t none := by
  rw [detach_eq, clearTerminal_slots, unwatched_keeps t s .slots (by decide)]

theorem closed_of_detach : KeepsBut [.lines, .screens, .slots] (closePanes t s) (detach t s) :=
  detach_eq t s ▸ (clearTerminal_keeps t _).step (by decide)
    ((endWatchers_keeps t (closePanes t s)).mono (by decide))

theorem detach_panes : (detach t s).panes = s.panes.set t ⟨none, none⟩ :=
  (closed_of_detach .panes (by decide)).trans (closePanes_panes t s)

theorem detach_ended {e : Session} {st : Story} (he : s.panes[t].session = some e)
    (hst : storyOf s e.story = some st) : SessionEnded s (detach t s) e st :=
  (closePanes_ended he hst).congr (closed_of_detach .fit (by decide))
    (storyOf_of_stories (closed_of_detach .stories (by decide)) _)

theorem ownDetachTerminal_attached {body : List Byte} (ht : u8 body 0 = t.val)
    (hs : s.lines[t].attached = true) : ownDetachTerminal body s = (detach t s, ⟨.ok, []⟩) := by
  unfold ownDetachTerminal withTerminal
  rw [inRange_of_val ht]
  exact if_pos hs

theorem ownDetachTerminal_detached {body : List Byte} (ht : u8 body 0 = t.val)
    (hs : s.lines[t].attached = false) : ownDetachTerminal body s = refuse .noSuch s := by
  unfold ownDetachTerminal withTerminal
  rw [inRange_of_val ht]
  exact if_neg (Bool.eq_false_iff.mp hs)

end

theorem ownDetachTerminal_range {body : List Byte} (h : 32 ≤ u8 body 0) (s : State) :
    ownDetachTerminal body s = refuse .range s := by
  unfold ownDetachTerminal withTerminal
  rw [inRange_eq_none h]

theorem detachTerminalEndsEverythingButTheBase : Clause.DetachTerminalEndsEverythingButTheBase := by
  intro tag body s hlen htakes
  refine ⟨fun hrange => refuses_of_own (own := ownDetachTerminal) rfl htakes hlen
    (ownDetachTerminal_range hrange _), fun t ht => ⟨fun hdetached => ?_, fun hattached => ?_⟩⟩
  · exact refuses_of_own (own := ownDetachTerminal) rfl htakes hlen
      (ownDetachTerminal_detached (s := dropHead s) ht hdetached)
  · refine replies_of_own_kept (own := ownDetachTerminal) rfl htakes hlen
      (ownDetachTerminal_attached (s := dropHead s) ht hattached) (detach_keeps t (dropHead s))
      (by decide) fun w hw => ?_
    have hlines : w.lines = s.lines.set t s.lines[t].emptied.detached :=
      (hw .lines (by decide)).trans (detach_lines (s := dropHead s))
    have hscreens : w.screens = (detach t (dropHead s)).screens := hw .screens (by decide)
    have hself : w.screens[t] = { (s.screens[t].unwatched t).detached with waiting := false } := by
      rw [hscreens]
      exact detach_screens_self (s := dropHead s)
    have hother : ∀ x : Fin 32, x ≠ t → w.screens[x] = s.screens[x].unwatched t := fun x hx => by
      rw [hscreens]
      exact detach_screens_other (s := dropHead s) hx
    have hslots : w.slots = s.slots.set t none :=
      (hw .slots (by decide)).trans (detach_slots (s := dropHead s))
    have hpanes : w.panes = s.panes.set t ⟨none, none⟩ :=
      (hw .panes (by decide)).trans (detach_panes (s := dropHead s))
    have hended : ∀ e st, s.panes[t].session = some e → storyOf s e.story = some st →
        SessionEnded s w e st := fun e st he hst =>
      (detach_ended (s := dropHead s) he hst).congr (hw .fit (by decide))
        (storyOf_of_stories (hw .stories (by decide)) _)
    obtain ⟨hbase, hstatus⟩ := s.screens[t].unwatched_layers t
    rw [hlines, hself, hpanes, set_self_at, set_self_at]
    refine ⟨rfl, rfl, rfl, rfl, hslots, rfl, rfl, rfl, rfl, hbase, hstatus, hended, fun x hx => ?_⟩
    rw [hother x hx]
    refine ⟨set_other_at hx _ _, set_other_at hx _ _, fun hw => ?_, fun hw => ?_⟩
    · rw [Screen.unwatched, if_pos (of_decide_eq_true hw)]
      exact ⟨rfl, rfl⟩
    · exact if_neg (of_decide_eq_false hw)

end Sys2Proof.Machine
end

section
/-! SUPPORT. ASSIGN TERMINAL for an attached terminal: its four steps, and what each of them reaches (R61, R93). -/

namespace Sys2Proof.Machine

/-! ### The line of a reassigned terminal (R61, R65) -/

/-- Step 1 for the line: a new format empties its FIFOs. -/
def Line.reformatted (a : Assignment) (l : Line) : Line :=
  if l.format = a.format then l else { l with format := a.format }.emptied

/-- Step 1 for the line: a new trigger makes the hand-up test. -/
def Line.retriggered (a : Assignment) (l : Line) : Line :=
  if l.trigger = a.trigger then l else Line.handUp { l with trigger := a.trigger }

/-- The line after all steps. -/
def Line.reassigned (a : Assignment) (l : Line) : Line :=
  { (l.reformatted a).retriggered a with layout := a.layout, desk := a.desk, key := a.key }

section
variable {l : Line}

theorem Line.handUp_eq (l : Line) : l.handUp = { l with batch := l.handUp.batch, rx := l.handUp.rx } := by
  unfold Line.handUp
  split <;> rfl

theorem Line.handUp_rx_nil (h : l.rx = []) : l.handUp.rx = [] := by
  unfold Line.handUp
  split
  · rfl
  · exact h

variable {a : Assignment}

/-- A new trigger changes the trigger, and passes the FIFO on or not. -/
theorem Line.retriggered_eq (a : Assignment) (l : Line) : l.retriggered a =
    { l with trigger := a.trigger, batch := (l.retriggered a).batch, rx := (l.retriggered a).rx } := by
  unfold Line.retriggered
  split
  next h => rw [← h]
  next h => exact Line.handUp_eq _

theorem Line.retriggered_rx_nil (h : l.rx = []) : (l.retriggered a).rx = [] := by
  unfold Line.retriggered
  split
  · exact h
  · exact Line.handUp_rx_nil h

theorem Line.retriggered_due (htrigger : l.trigger ≠ a.trigger) (hbatch : l.batch = [])
    (h : a.trigger ≤ l.rx.length ∨ l.idle = true) :
    (l.retriggered a).batch = l.rx ∧ (l.retriggered a).rx = [] := by
  rw [Line.retriggered, if_neg htrigger]
  by_cases hrx : l.rx = []
  · have hnone : Line.handUp { l with trigger := a.trigger } = { l with trigger := a.trigger } :=
      if_neg (by simp [Line.handUpDue, hrx])
    rw [hnone]
    exact ⟨hbatch.trans hrx.symm, hrx⟩
  · rw [Line.handUp_of_due (l := { l with trigger := a.trigger }) hbatch hrx h]
    exact ⟨rfl, rfl⟩

theorem Line.retriggered_waits (h : l.trigger = a.trigger ∨ l.batch ≠ [] ∨
    (l.rx.length < a.trigger ∧ l.idle = false)) :
    (l.retriggered a).batch = l.batch ∧ (l.retriggered a).rx = l.rx := by
  unfold Line.retriggered
  split
  · exact ⟨rfl, rfl⟩
  next htrigger =>
    have hsame : Line.handUp { l with trigger := a.trigger } = { l with trigger := a.trigger } := by
      rcases h.resolve_left htrigger with hbatch | ⟨hrx, hidle⟩
      · exact Line.handUp_of_batch (l := { l with trigger := a.trigger }) hbatch
      · exact Line.handUp_of_waiting (l := { l with trigger := a.trigger }) hrx hidle
    rw [hsame]
    exact ⟨rfl, rfl⟩

/-- The fields of the reassigned line that no test decides. -/
theorem Line.reassigned_fields (a : Assignment) (l : Line) :
    (l.reassigned a).attached = l.attached ∧ (l.reassigned a).desk = a.desk ∧
      (l.reassigned a).key = a.key ∧ (l.reassigned a).layout = a.layout ∧
      (l.reassigned a).format = a.format ∧ (l.reassigned a).trigger = a.trigger ∧
      (l.reassigned a).idle = l.idle := by
  unfold Line.reassigned
  rw [Line.retriggered_eq]
  unfold Line.reformatted
  split
  next h => exact ⟨rfl, rfl, rfl, rfl, h, rfl, rfl⟩
  next => exact ⟨rfl, rfl, rfl, rfl, rfl, rfl, rfl⟩

theorem Line.reassigned_newFormat (h : l.format ≠ a.format) :
    (l.reassigned a).rx = [] ∧ (l.reassigned a).tx = [] ∧ (l.reassigned a).pfx = false ∧
      (l.reassigned a).sending = match l.sending with
        | .rest => .rest
        | .busy f _ => .busy f false := by
  have hempty : l.reformatted a = { l with format := a.format }.emptied := if_neg h
  have hrx : ((l.reformatted a).retriggered a).rx = [] :=
    Line.retriggered_rx_nil (by rw [hempty]; rfl)
  refine ⟨hrx, ?_⟩
  unfold Line.reassigned
  rw [Line.retriggered_eq, hempty]
  exact ⟨rfl, rfl, rfl⟩

theorem Line.reassigned_sameFormat (h : l.format = a.format) :
    (l.reassigned a).tx = l.tx ∧ (l.reassigned a).pfx = l.pfx ∧
      (l.reassigned a).sending = l.sending ∧ (l.reassigned a).batch = (l.retriggered a).batch ∧
      (l.reassigned a).rx = (l.retriggered a).rx := by
  have hsame : l.reformatted a = l := if_pos h
  unfold Line.reassigned
  rw [hsame, Line.retriggered_eq]
  exact ⟨rfl, rfl, rfl, rfl, rfl⟩

end

section
variable (t : Fin 32) (a : Assignment) (s : State)

/-! ### The four steps on the lines -/

/-- Step 1 before the trigger. -/
def reformat : State :=
  if s.lines[t].format = a.format then s
  else repaint t (emptyFifos t (modLine t (fun l => { l with format := a.format }) s))

theorem reassignLine_eq : reassignLine t a s =
    if (reformat t a s).lines[t].trigger = a.trigger then reformat t a s
    else modLine t (fun l => Line.handUp { l with trigger := a.trigger }) (reformat t a s) := rfl

theorem reformat_lines : (reformat t a s).lines = s.lines.set t (s.lines[t].reformatted a) := by
  unfold reformat Line.reformatted
  split
  · exact (Vector.set_getElem_self t.isLt).symm
  · exact modLine_of_set (u := modLine t (fun l => { l with format := a.format }) s) rfl Line.emptied

theorem reassignLine_lines : (reassignLine t a s).lines =
    s.lines.set t ((s.lines[t].reformatted a).retriggered a) := by
  have hself : (reformat t a s).lines[t] = s.lines[t].reformatted a := by
    rw [reformat_lines, set_self_at]
  rw [reassignLine_eq, hself]
  unfold Line.retriggered
  split
  · exact reformat_lines t a s
  · exact modLine_of_set (reformat_lines t a s) _

theorem reassignLayout_lines : (reassignLayout t a s).lines =
    s.lines.set t { s.lines[t] with layout := a.layout } := by
  unfold reassignLayout
  split
  next h =>
    rw [← h]
    exact (Vector.set_getElem_self t.isLt).symm
  next =>
    have hlines : (closePanes t s).lines = s.lines := closePanes_keeps t s .lines (by decide)
    show (closePanes t s).lines.set t { (closePanes t s).lines[t] with layout := a.layout } = _
    rw [hlines]

theorem reassignAuthority_lines : (reassignAuthority t a s).lines =
    s.lines.set t { s.lines[t] with desk := a.desk, key := a.key } := by
  unfold reassignAuthority
  split
  next h =>
    obtain ⟨hdesk, hkey⟩ := Bool.and_eq_true_iff.mp h
    rw [← of_decide_eq_true hdesk, ← of_decide_eq_true hkey]
    exact (Vector.set_getElem_self t.isLt).symm
  next => exact recheck_keeps none t _ .lines (by decide)

theorem reassignWatch_keeps : KeepsBut [.screens] s (reassignWatch t s) :=
  KeepsBut.ite (setMode_keeps _ _ _) (KeepsBut.refl _ _)

theorem authority_lines : (reassignAuthority t a (reassignLayout t a (reassignLine t a s))).lines =
    s.lines.set t (s.lines[t].reassigned a) := by
  rw [reassignAuthority_lines, reassignLayout_lines, reassignLine_lines, set_self_at, set_self_at,
    Vector.set_set, Vector.set_set]
  rfl

theorem reassign_lines : (reassign t a s).lines = s.lines.set t (s.lines[t].reassigned a) :=
  (reassignWatch_keeps t _ .lines (by decide)).trans (authority_lines t a s)

/-! ### The screens (R61, R93) -/

/-- The screen after step 1: a new format repaints. -/
def reformattedScreen : Screen :=
  if s.lines[t].format = a.format then s.screens[t] else { s.screens[t] with waiting := false }.repaint

/-- The screen after all steps: a new key other than 0 ends a watch. -/
def reassignedScreen : Screen :=
  if isWatching s t = true ∧ a.key ≠ 0 then
    { reformattedScreen t a s with mode := .normal, marks := allRows }
  else reformattedScreen t a s

theorem reformattedScreen_mode : (reformattedScreen t a s).mode = s.screens[t].mode := by
  unfold reformattedScreen
  split <;> rfl

theorem reformat_screens :
    (reformat t a s).screens = s.screens.set t (reformattedScreen t a s) := by
  unfold reformat reformattedScreen
  split
  · exact (Vector.set_getElem_self t.isLt).symm
  · exact modScreen_of_set (u := emptyFifos t (modLine t (fun l => { l with format := a.format }) s))
      (modScreen_of_set (u := modLine t Line.emptied (modLine t (fun l => { l with format := a.format }) s))
        (Vector.set_getElem_self t.isLt).symm fun sc => { sc with waiting := false }) Screen.repaint

theorem reassignLine_screens :
    (reassignLine t a s).screens = s.screens.set t (reformattedScreen t a s) := by
  rw [reassignLine_eq, ← reformat_screens]
  split <;> rfl

theorem reassignLayout_keeps :
    KeepsBut [.lines, .stories, .fit, .panes] s (reassignLayout t a s) :=
  KeepsBut.ite (KeepsBut.refl _ _) ((modLine_keeps _ _ _).step (by decide)
    ((closePanes_keeps t s).mono (by decide)))

theorem reassignAuthority_keeps :
    KeepsBut [.lines, .stories, .fit, .panes, .notices] s (reassignAuthority t a s) :=
  KeepsBut.ite (KeepsBut.refl _ _) ((recheck_keeps _ _ _).step (by decide)
    ((modLine_keeps _ _ _).mono (by decide)))

theorem reassign_screens :
    (reassign t a s).screens = s.screens.set t (reassignedScreen t a s) := by
  have hlines := authority_lines t a s
  have hscreens : (reassignAuthority t a (reassignLayout t a (reassignLine t a s))).screens =
      s.screens.set t (reformattedScreen t a s) :=
    (reassignAuthority_keeps t a _ .screens (by decide)).trans
      ((reassignLayout_keeps t a _ .screens (by decide)).trans (reassignLine_screens t a s))
  unfold reassign
  generalize reassignAuthority t a (reassignLayout t a (reassignLine t a s)) = v at hlines hscreens ⊢
  have hwatch : isWatching v t = isWatching s t := by
    unfold isWatching
    rw [hscreens, set_self_at, reformattedScreen_mode]
  have hkey : v.lines[t].key = a.key := by
    rw [hlines, set_self_at]
    rfl
  unfold reassignWatch reassignedScreen
  rw [hwatch, hkey]
  by_cases h : isWatching s t = true ∧ a.key ≠ 0
  · rw [if_pos h, if_pos (Bool.and_eq_true_iff.mpr ⟨h.1, decide_eq_true h.2⟩)]
    exact modScreen_of_set hscreens _
  · rw [if_neg h, if_neg fun hb => h ⟨(Bool.and_eq_true_iff.mp hb).1,
      of_decide_eq_true (Bool.and_eq_true_iff.mp hb).2⟩]
    exact hscreens

end

/-! ### Panes closed at one terminal -/

theorem countP_sub_at {t : Fin 32} {p q : Fin 32 → Bool} (hother : ∀ x, x ≠ t → q x = p x)
    (hself : q t = true → p t = true) :
    (List.finRange 32).countP p - (List.finRange 32).countP q =
      if p t = true ∧ q t = false then 1 else 0 := by
  by_cases h : p t = true ∧ q t = false
  · have hafter : ∀ x, q x = (p x && !decide (x = t)) := fun x => by
      by_cases hx : x = t
      · subst hx
        rw [h.2, decide_eq_true rfl]
        exact (Bool.and_false _).symm
      · rw [hother x hx, decide_eq_false hx]
        exact (Bool.and_true _).symm
    rw [countP_sub_of_split _ hafter fun x hx => of_decide_eq_true hx ▸ h.1, if_pos h]
    exact List.count_eq_one_of_mem (List.nodup_finRange 32) (List.mem_finRange t)
  · have hsame : q = p := funext fun x => by
      by_cases hx : x = t
      · subst hx
        cases hq : q x with
        | true => exact (hself hq).symm
        | false =>
          cases hp : p x with
          | true => exact absurd ⟨hp, hq⟩ h
          | false => rfl
      · exact hother x hx
    rw [hsame, Nat.sub_self, if_neg fun hpq => absurd (hpq.1.symm.trans hpq.2) (by decide)]

/-- The reply's two counts, where panes close at one terminal only (R61). -/
theorem eClosed_at {t : Fin 32} {s u : State} (hother : ∀ x : Fin 32, x ≠ t → u.panes[x] = s.panes[x])
    (hsession : u.panes[t].session.isSome = true → s.panes[t].session.isSome = true)
    (href : u.panes[t].ref.isSome = true → s.panes[t].ref.isSome = true) : eClosed s u =
    e16 (if s.panes[t].session ≠ none ∧ u.panes[t].session = none then 1 else 0) ++
      e16 (if s.panes[t].ref ≠ none ∧ u.panes[t].ref = none then 1 else 0) := by
  unfold eClosed panesOpen
  simp only [← List.countP_eq_length_filter]
  rw [countP_sub_at (p := fun x => s.panes[x].session.isSome) (q := fun x => u.panes[x].session.isSome)
      (fun x hx => by rw [hother x hx]) hsession,
    countP_sub_at (p := fun x => s.panes[x].ref.isSome) (q := fun x => u.panes[x].ref.isSome)
      (fun x hx => by rw [hother x hx]) href]
  simp only [Option.isSome_iff_ne_none, Option.isSome_eq_false_iff, Option.isNone_iff_eq_none]

/-! ### What the pane re-check reads of a line -/

section
variable {s u : State} {t : Fin 32} (only : Option Nat) (hdesk : u.lines[t].desk = s.lines[t].desk)
  (hkey : u.lines[t].key = s.lines[t].key) (hdesks : u.desks = s.desks) (hstories : u.stories = s.stories)
  (hpanes : u.panes = s.panes)
include hdesk hkey hdesks

theorem maySee_of_line (st : Story) : maySee u t st = maySee s t st := by
  unfold maySee rightsOver
  simp only [hdesk, hkey, hdesks]

include hstories hpanes

theorem sessionFails_of_line : sessionFails u t only = sessionFails s t only := by
  unfold sessionFails
  simp only [maySee_of_line hdesk hkey hdesks, hkey, hpanes, storyOf_of_stories hstories]

theorem refFails_of_line : refFails u t only = refFails s t only := by
  unfold refFails
  simp only [maySee_of_line hdesk hkey hdesks, hpanes, storyOf_of_stories hstories]

end

/-- The re-check in the words of the statements, where of the lines only the terminal's desk and key are known. -/
theorem panesRechecked_of_line {only : Option Nat} {t : Fin 32} {s u : State}
    (hdesk : u.lines[t].desk = s.lines[t].desk) (hkey : u.lines[t].key = s.lines[t].key)
    (hdesks : u.desks = s.desks) (hentries : OnlyReleases s u)
    (hview : paneView u t =
      recheckedView (sessionFails s t only) (refFails s t only) (paneView s t)) :
    PanesRechecked only t s u := by
  obtain ⟨hsession, href, hrest⟩ := panesRechecked_of_view (u := { u with lines := s.lines })
    (only := only) (t := t) (s := s) ⟨rfl, hdesks, hentries⟩ hview
  exact ⟨(sessionFails_of_line (s := { u with lines := s.lines }) only hdesk hkey rfl rfl rfl).trans hsession,
    (refFails_of_line (s := { u with lines := s.lines }) only hdesk hkey rfl rfl rfl).trans href, hrest⟩

/-- The link has no part in the re-check. -/
theorem PanesRechecked.of_link {only : Option Nat} {t : Fin 32} {s u w : State}
    (h : PanesRechecked only t s u) (hw : KeepsBut [.link] u w) : PanesRechecked only t s w := by
  have hlines : w.lines = u.lines := hw .lines (by decide)
  have hsession : sessionFails w t only = sessionFails u t only :=
    sessionFails_of_line only (by rw [hlines]) (by rw [hlines]) (hw .desks (by decide))
      (hw .stories (by decide)) (hw .panes (by decide))
  have href : refFails w t only = refFails u t only :=
    refFails_of_line only (by rw [hlines]) (by rw [hlines]) (hw .desks (by decide))
      (hw .stories (by decide)) (hw .panes (by decide))
  unfold PanesRechecked at h ⊢
  rw [hsession, href, hw .panes (by decide), hw .notices (by decide)]
  exact h

theorem SessionEnded.congr_before {s s' u : State} {e : Session} {st : Story} (h : SessionEnded s u e st)
    (hfit : s'.fit = s.fit) (hfaces : s'.faces = s.faces) : SessionEnded s' u e st := by
  obtain ⟨hplain, hoffer⟩ := h
  refine ⟨fun hm => ?_, fun hm => (hoffer hm).congr hfaces hfit rfl rfl⟩
  rw [hfit]
  exact hplain hm

section
variable {t : Fin 32} {a : Assignment} {s : State}

/-! ### A new layout (R61 step 2) -/

theorem reassignLine_sameAuthority : (reassignLine t a s).lines[t].layout = s.lines[t].layout ∧
    (reassignLine t a s).lines[t].desk = s.lines[t].desk ∧
    (reassignLine t a s).lines[t].key = s.lines[t].key := by
  rw [reassignLine_lines, set_self_at, Line.retriggered_eq]
  unfold Line.reformatted
  split <;> exact ⟨rfl, rfl, rfl⟩

/-- Once both panes are closed no pane fails the re-check. -/
theorem reassignAuthority_closed (h : s.panes[t] = ⟨none, none⟩) :
    KeepsBut [.lines] s (reassignAuthority t a s) := by
  have hpass : recheck none t (modLine t (fun l => { l with desk := a.desk, key := a.key }) s) =
      modLine t (fun l => { l with desk := a.desk, key := a.key }) s := by
    refine recheck_passes ?_ ?_
    · rw [sessionFails_eq, modLine_panes, h]
      rfl
    · rw [refFails_eq, modLine_panes, h]
      rfl
  unfold reassignAuthority
  rw [hpass]
  exact KeepsBut.ite (KeepsBut.refl _ _) (modLine_keeps _ _ _)

section
variable (h : s.lines[t].layout ≠ a.layout)
include h

theorem reassign_closed :
    KeepsBut [.lines, .screens] (closePanes t (reassignLine t a s)) (reassign t a s) := by
  have hlayout : reassignLayout t a (reassignLine t a s) =
      modLine t (fun l => { l with layout := a.layout }) (closePanes t (reassignLine t a s)) :=
    if_neg (by rw [reassignLine_sameAuthority.1]; exact h)
  have hclosed : (reassignLayout t a (reassignLine t a s)).panes[t] = ⟨none, none⟩ := by
    rw [hlayout, modLine_panes, closePanes_panes, set_self_at]
  exact (reassignWatch_keeps t _).step (by decide) (((reassignAuthority_closed hclosed).step (by decide)
    (hlayout ▸ modLine_keeps _ _ _)).mono (by decide))

theorem reassign_closed_panes : (reassign t a s).panes = s.panes.set t ⟨none, none⟩ := by
  rw [reassign_closed h .panes (by decide), closePanes_panes, reassignLine_keeps t a s .panes (by decide)]

theorem reassign_closed_notices : (reassign t a s).notices = s.notices :=
  (reassign_closed h .notices (by decide)).trans ((closePanes_keeps t _ .notices (by decide)).trans
    (reassignLine_keeps t a s .notices (by decide)))

theorem reassign_closed_ended {e : Session} {st : Story} (he : s.panes[t].session = some e)
    (hst : storyOf s e.story = some st) : SessionEnded s (reassign t a s) e st := by
  have hkeeps := reassignLine_keeps t a s
  have hended : SessionEnded (reassignLine t a s) (closePanes t (reassignLine t a s)) e st :=
    closePanes_ended (by rw [hkeeps .panes (by decide)]; exact he)
      ((storyOf_of_stories (hkeeps .stories (by decide)) _).trans hst)
  exact (hended.congr (reassign_closed h .fit (by decide))
    (storyOf_of_stories (reassign_closed h .stories (by decide)) _)).congr_before
      (hkeeps .fit (by decide)).symm (hkeeps .faces (by decide)).symm

theorem reassign_closed_stories_fit (hnone : s.panes[t].session = none) :
    (reassign t a s).stories = s.stories ∧ (reassign t a s).fit = s.fit := by
  have hkeeps := reassignLine_keeps t a s
  have hclear : closePanes t (reassignLine t a s) = clearRef t (reassignLine t a s) :=
    congrArg (clearRef t) (closeSession_closed (by rw [hkeeps .panes (by decide)]; exact hnone))
  have hclosed := hclear ▸ reassign_closed h
  exact ⟨(hclosed .stories (by decide)).trans (hkeeps .stories (by decide)),
    (hclosed .fit (by decide)).trans (hkeeps .fit (by decide))⟩

end

/-! ### A new desk or key (R61 step 3) -/

/-- The state of which the statement says that its panes are re-checked: the terminal has its new desk and key. -/
def authorityWritten (t : Fin 32) (a : Assignment) (s : State) : State :=
  { s with lines := s.lines.set t { s.lines[t] with desk := a.desk, key := a.key } }

/-- The state in which the machine re-checks the panes. -/
def beforeRecheck (t : Fin 32) (a : Assignment) (s : State) : State :=
  modLine t (fun l => { l with desk := a.desk, key := a.key }) (reassignLine t a s)

theorem beforeRecheck_keeps (t : Fin 32) (a : Assignment) (s : State) :
    KeepsBut [.lines, .screens] s (beforeRecheck t a s) :=
  (modLine_keeps _ _ _).step (by decide) (reassignLine_keeps t a s)

/-- Both states show the terminal the same panes under the same authority. -/
theorem beforeRecheck_fails :
    sessionFails (beforeRecheck t a s) t none = sessionFails (authorityWritten t a s) t none ∧
      refFails (beforeRecheck t a s) t none = refFails (authorityWritten t a s) t none := by
  have hkeeps := beforeRecheck_keeps t a s
  have hdesk : (beforeRecheck t a s).lines[t].desk = (authorityWritten t a s).lines[t].desk := by
    rw [beforeRecheck, modLine_self, authorityWritten, set_self_at]
  have hkey : (beforeRecheck t a s).lines[t].key = (authorityWritten t a s).lines[t].key := by
    rw [beforeRecheck, modLine_self, authorityWritten, set_self_at]
  exact ⟨sessionFails_of_line none hdesk hkey (hkeeps .desks (by decide)) (hkeeps .stories (by decide))
      (hkeeps .panes (by decide)),
    refFails_of_line none hdesk hkey (hkeeps .desks (by decide)) (hkeeps .stories (by decide))
      (hkeeps .panes (by decide))⟩

section
variable (hlayout : s.lines[t].layout = a.layout)
include hlayout

theorem reassignLayout_same :
    reassignLayout t a (reassignLine t a s) = reassignLine t a s :=
  if_pos (reassignLine_sameAuthority.1.trans hlayout)

/-- With the layout, the desk and the key as before, no pane is touched. -/
theorem reassign_still (hdesk : s.lines[t].desk = a.desk) (hkey : s.lines[t].key = a.key) :
    KeepsBut [.lines, .screens] s (reassign t a s) := by
  obtain ⟨-, hdesk', hkey'⟩ := reassignLine_sameAuthority (t := t) (a := a) (s := s)
  have hauthority : reassignAuthority t a (reassignLine t a s) = reassignLine t a s :=
    if_pos (Bool.and_eq_true_iff.mpr ⟨decide_eq_true (hdesk'.trans hdesk), decide_eq_true (hkey'.trans hkey)⟩)
  unfold reassign
  rw [reassignLayout_same hlayout, hauthority]
  exact (reassignWatch_keeps t _).step (by decide) (reassignLine_keeps t a s)

variable (hnew : s.lines[t].desk ≠ a.desk ∨ s.lines[t].key ≠ a.key)
include hnew

theorem reassign_rechecked :
    KeepsBut [.screens] (recheck none t (beforeRecheck t a s)) (reassign t a s) := by
  obtain ⟨-, hdesk, hkey⟩ := reassignLine_sameAuthority (t := t) (a := a) (s := s)
  have hauthority : reassignAuthority t a (reassignLine t a s) = recheck none t (beforeRecheck t a s) :=
    if_neg fun h => by
      obtain ⟨hd, hk⟩ := Bool.and_eq_true_iff.mp h
      exact hnew.elim (fun hn => hn (hdesk.symm.trans (of_decide_eq_true hd)))
        fun hn => hn (hkey.symm.trans (of_decide_eq_true hk))
  unfold reassign
  rw [reassignLayout_same hlayout, hauthority]
  exact reassignWatch_keeps t _

theorem reassign_rechecked_view : paneView (reassign t a s) t =
    recheckedView (sessionFails (authorityWritten t a s) t none) (refFails (authorityWritten t a s) t none)
      (paneView s t) := by
  obtain ⟨hsession, href⟩ := beforeRecheck_fails (t := t) (a := a) (s := s)
  rw [(reassign_rechecked hlayout hnew).paneView (by decide), paneView_recheck, hsession, href,
    (beforeRecheck_keeps t a s).paneView (by decide)]

theorem reassign_panesRechecked :
    PanesRechecked none t (authorityWritten t a s) (reassign t a s) := by
  have hre := reassign_rechecked hlayout hnew
  have hbefore := beforeRecheck_keeps t a s
  have hdesks : (reassign t a s).desks = s.desks :=
    (hre .desks (by decide)).trans ((recheck_keeps _ _ _ .desks (by decide)).trans
      (hbefore .desks (by decide)))
  have hentries : OnlyReleases s (reassign t a s) :=
    (OnlyReleases.of_stories (hbefore .stories (by decide))).trans
      ((recheck_sameAuthority none t (beforeRecheck t a s)).entries.trans
        (.of_stories (hre .stories (by decide))))
  have hline : (reassign t a s).lines[t].desk = (authorityWritten t a s).lines[t].desk ∧
      (reassign t a s).lines[t].key = (authorityWritten t a s).lines[t].key := by
    rw [reassign_lines, authorityWritten, set_self_at, set_self_at]
    exact ⟨rfl, rfl⟩
  exact panesRechecked_of_line hline.1 hline.2 hdesks hentries (reassign_rechecked_view hlayout hnew)

theorem reassign_rechecked_open :
    (reassign t a s).panes[t].session.isSome =
        (s.panes[t].session.isSome && !sessionFails (authorityWritten t a s) t none) ∧
      (reassign t a s).panes[t].ref.isSome =
        (s.panes[t].ref.isSome && !refFails (authorityWritten t a s) t none) := by
  have hpanes : (reassign t a s).panes[t] = s.panes[t].rechecked
      (sessionFails (authorityWritten t a s) t none) (refFails (authorityWritten t a s) t none) :=
    (Prod.mk.inj (reassign_rechecked_view hlayout hnew)).1
  rw [hpanes]
  exact Panes.rechecked_open _ _ _

theorem reassign_rechecked_ended {e : Session} {st : Story} (he : s.panes[t].session = some e)
    (hst : storyOf s e.story = some st) (hclosed : (reassign t a s).panes[t].session = none) :
    SessionEnded s (reassign t a s) e st := by
  have hre := reassign_rechecked hlayout hnew
  have hbefore := beforeRecheck_keeps t a s
  have hfails : sessionFails (beforeRecheck t a s) t none = true := by
    have hopen := (reassign_rechecked_open hlayout hnew).1
    rw [hclosed, he, ← beforeRecheck_fails.1] at hopen
    cases h : sessionFails (beforeRecheck t a s) t none with
    | true => rfl
    | false =>
      rw [h] at hopen
      cases hopen
  have hended := recheck_ended (by rw [hbefore .panes (by decide)]; exact he)
    ((storyOf_of_stories (hbefore .stories (by decide)) _).trans hst) hfails
  exact (hended.congr (hre .fit (by decide))
    (storyOf_of_stories (hre .stories (by decide)) _)).congr_before (hbefore .fit (by decide)).symm
      (hbefore .faces (by decide)).symm

theorem reassign_rechecked_stories_fit
    (hsame : (reassign t a s).panes[t].session.isSome = s.panes[t].session.isSome) :
    (reassign t a s).stories = s.stories ∧ (reassign t a s).fit = s.fit := by
  have hre := reassign_rechecked hlayout hnew
  have hbefore := beforeRecheck_keeps t a s
  have hpass : sessionFails (beforeRecheck t a s) t none = false := by
    rw [Bool.eq_false_iff]
    intro hfails
    have hopen := (reassign_rechecked_open hlayout hnew).1
    have hsome := isSome_of_sessionFails hfails
    rw [hbefore .panes (by decide)] at hsome
    rw [hsame, hsome, ← beforeRecheck_fails.1, hfails] at hopen
    cases hopen
  obtain ⟨hstories, hfit⟩ := recheck_stories_fit hpass
  exact ⟨(hre .stories (by decide)).trans (hstories.trans (hbefore .stories (by decide))),
    (hre .fit (by decide)).trans (hfit.trans (hbefore .fit (by decide)))⟩

theorem reassign_rechecked_other {x : Fin 32} (hx : x ≠ t) :
    paneView (reassign t a s) x = paneView s x := by
  rw [(reassign_rechecked hlayout hnew).paneView (by decide), paneView_recheck_other none _ hx,
    (beforeRecheck_keeps t a s).paneView (by decide)]

end

/-! ### All steps together -/

/-- The three ways a reassignment can treat the panes: closed for a new layout, re-checked for a new desk or key, or left alone. -/
theorem reassign_cases (t : Fin 32) (a : Assignment) (s : State) : s.lines[t].layout ≠ a.layout ∨
    (s.lines[t].layout = a.layout ∧ (s.lines[t].desk ≠ a.desk ∨ s.lines[t].key ≠ a.key)) ∨
    (s.lines[t].layout = a.layout ∧ s.lines[t].desk = a.desk ∧ s.lines[t].key = a.key) := by
  by_cases hlayout : s.lines[t].layout = a.layout
  · by_cases hsame : s.lines[t].desk = a.desk ∧ s.lines[t].key = a.key
    · exact .inr (.inr ⟨hlayout, hsame⟩)
    · exact .inr (.inl ⟨hlayout, not_and_or.mp hsame⟩)
  · exact .inl hlayout

theorem reassign_open (t : Fin 32) (a : Assignment) (s : State) :
    ((reassign t a s).panes[t].session.isSome = true → s.panes[t].session.isSome = true) ∧
      ((reassign t a s).panes[t].ref.isSome = true → s.panes[t].ref.isSome = true) := by
  rcases reassign_cases t a s with hlayout | ⟨hlayout, hnew⟩ | ⟨hlayout, hdesk, hkey⟩
  · rw [reassign_closed_panes hlayout, set_self_at]
    exact ⟨fun h => (Bool.false_ne_true h).elim, fun h => (Bool.false_ne_true h).elim⟩
  · obtain ⟨hsession, href⟩ := reassign_rechecked_open hlayout hnew
    rw [hsession, href]
    exact ⟨fun h => (Bool.and_eq_true_iff.mp h).1, fun h => (Bool.and_eq_true_iff.mp h).1⟩
  · rw [reassign_still hlayout hdesk hkey .panes (by decide)]
    exact ⟨id, id⟩

theorem reassign_other (t : Fin 32) (a : Assignment) (s : State) {x : Fin 32} (hx : x ≠ t) :
    paneView (reassign t a s) x = paneView s x := by
  rcases reassign_cases t a s with hlayout | ⟨hlayout, hnew⟩ | ⟨hlayout, hdesk, hkey⟩
  · unfold paneView
    rw [reassign_closed_panes hlayout, reassign_closed_notices hlayout, set_other_at hx]
  · exact reassign_rechecked_other hlayout hnew hx
  · exact (reassign_still hlayout hdesk hkey).paneView (by decide) x

theorem reassign_ended {e : Session} {st : Story} (he : s.panes[t].session = some e)
    (hst : storyOf s e.story = some st) (hclosed : (reassign t a s).panes[t].session = none) :
    SessionEnded s (reassign t a s) e st := by
  rcases reassign_cases t a s with hlayout | ⟨hlayout, hnew⟩ | ⟨hlayout, hdesk, hkey⟩
  · exact reassign_closed_ended hlayout he hst
  · exact reassign_rechecked_ended hlayout hnew he hst hclosed
  · rw [reassign_still hlayout hdesk hkey .panes (by decide), he] at hclosed
    cases hclosed

theorem reassign_stories_fit
    (hsame : (reassign t a s).panes[t].session.isSome = s.panes[t].session.isSome) :
    (reassign t a s).stories = s.stories ∧ (reassign t a s).fit = s.fit := by
  rcases reassign_cases t a s with hlayout | ⟨hlayout, hnew⟩ | ⟨hlayout, hdesk, hkey⟩
  · rw [reassign_closed_panes hlayout, set_self_at] at hsame
    exact reassign_closed_stories_fit hlayout
      (Option.isNone_iff_eq_none.mp (Option.isSome_eq_false_iff.mp hsame.symm))
  · exact reassign_rechecked_stories_fit hlayout hnew hsame
  · have hkeeps := reassign_still hlayout hdesk hkey
    exact ⟨hkeeps .stories (by decide), hkeeps .fit (by decide)⟩

theorem eClosed_reassign (t : Fin 32) (a : Assignment) (s : State) : eClosed s (reassign t a s) =
    e16 (if s.panes[t].session ≠ none ∧ (reassign t a s).panes[t].session = none then 1 else 0) ++
      e16 (if s.panes[t].ref ≠ none ∧ (reassign t a s).panes[t].ref = none then 1 else 0) :=
  eClosed_at (fun _ hx => (panes_of_view (reassign_other t a s hx)).1) (reassign_open t a s).1
    (reassign_open t a s).2

theorem ownAssignTerminal_attached {body : List Byte} (ht : u8 body 0 = t.val)
    (ha : assignmentOf body = some a) (hs : s.lines[t].attached = true) :
    ownAssignTerminal body s = (reassign t a s, ⟨if a.clamped then .clamped else .ok,
      e16 (if s.panes[t].session ≠ none ∧ (reassign t a s).panes[t].session = none then 1 else 0) ++
        e16 (if s.panes[t].ref ≠ none ∧ (reassign t a s).panes[t].ref = none then 1 else 0) ++
        eFlag (decide (s.lines[t].format ≠ a.format))⟩) := by
  unfold ownAssignTerminal
  rw [inRange_of_val ht, ha, ← eClosed_reassign]
  exact if_pos hs

end

/-! ### The screens, case by case -/

section
variable {t : Fin 32} {a : Assignment} {s : State}

theorem reassignedScreen_newFormat (h : s.lines[t].format ≠ a.format) :
    (reassignedScreen t a s).sent = none ∧ (reassignedScreen t a s).marks = allRows := by
  have hre : reformattedScreen t a s = { s.screens[t] with waiting := false }.repaint := if_neg h
  unfold reassignedScreen
  rw [hre]
  split <;> exact ⟨rfl, rfl⟩

theorem reassignedScreen_sent (h : s.lines[t].format = a.format) :
    (reassignedScreen t a s).sent = s.screens[t].sent := by
  have hre : reformattedScreen t a s = s.screens[t] := if_pos h
  unfold reassignedScreen
  rw [hre]
  split <;> rfl

theorem reassignedScreen_watchEnds (hwatch : isWatching s t = true) (hkey : a.key ≠ 0) :
    (reassignedScreen t a s).mode = .normal ∧ (reassignedScreen t a s).marks = allRows := by
  rw [reassignedScreen, if_pos ⟨hwatch, hkey⟩]
  exact ⟨rfl, rfl⟩

theorem reassignedScreen_stays (h : isWatching s t = false ∨ a.key = 0) :
    reassignedScreen t a s = reformattedScreen t a s :=
  if_neg fun ⟨hwatch, hkey⟩ => h.elim (fun hno => Bool.false_ne_true (hno.symm.trans hwatch)) hkey

end

theorem reassignmentMakesItsSteps : Clause.ReassignmentMakesItsSteps := by
  rintro tag body s s1 t a hlen htakes ht ha hattached rfl
  refine ⟨_, replies_of_own_kept (own := ownAssignTerminal) rfl htakes hlen
    (ownAssignTerminal_attached (s := dropHead s) ht ha hattached) (reassign_keeps t a (dropHead s))
    (by decide) fun w hw => ?_⟩
  have hlines : w.lines = s.lines.set t (s.lines[t].reassigned a) :=
    (hw .lines (by decide)).trans (reassign_lines t a (dropHead s))
  have hscreens : w.screens = s.screens.set t (reassignedScreen t a s) :=
    (hw .screens (by decide)).trans (reassign_screens t a (dropHead s))
  have hline : w.lines[t] = s.lines[t].reassigned a := by rw [hlines, set_self_at]
  have hscreen : w.screens[t] = reassignedScreen t a s := by rw [hscreens, set_self_at]
  obtain ⟨hatt, hdesk, hkey, hlayout, hformat, htrigger, hidle⟩ := s.lines[t].reassigned_fields a
  have hpanes : w.panes = (reassign t a (dropHead s)).panes := hw .panes (by decide)
  have hnotices : w.notices = (reassign t a (dropHead s)).notices := hw .notices (by decide)
  have hstories : w.stories = (reassign t a (dropHead s)).stories := hw .stories (by decide)
  have hfit : w.fit = (reassign t a (dropHead s)).fit := hw .fit (by decide)
  rw [hline, hscreen]
  refine ⟨by rw [hpanes]; rfl, ⟨hatt.trans hattached, hdesk, hkey, hlayout, hformat, htrigger, hidle⟩,
    fun hnew => ?_, fun hsame => ?_, fun hnew => ?_, fun hsame hnew => ?_, fun hl hd hk => ?_,
    fun e st he hst hclosed => ?_, fun hopen => ?_, fun hwatch _ hk => reassignedScreen_watchEnds hwatch hk,
    fun hstays => ?_, fun x hx => ?_⟩
  · obtain ⟨hrx, htx, hpfx, hsending⟩ := Line.reassigned_newFormat hnew
    exact ⟨hrx, htx, hpfx, hsending, reassignedScreen_newFormat hnew⟩
  · obtain ⟨htx, hpfx, hsending, hbatch, hrx⟩ := Line.reassigned_sameFormat (a := a) hsame
    rw [hbatch, hrx]
    exact ⟨htx, hpfx, hsending, reassignedScreen_sent hsame, Line.retriggered_due, Line.retriggered_waits⟩
  · exact ⟨by rw [hpanes, reassign_closed_panes (s := dropHead s) hnew, set_self_at],
      hnotices.trans (reassign_closed_notices (s := dropHead s) hnew)⟩
  · exact (reassign_panesRechecked (s := dropHead s) hsame hnew).of_link hw
  · have hstill := reassign_still (s := dropHead s) hl hd hk
    exact ⟨hpanes.trans (hstill .panes (by decide)), hnotices.trans (hstill .notices (by decide))⟩
  · rw [hpanes] at hclosed
    exact (reassign_ended (s := dropHead s) he hst hclosed).congr hfit (storyOf_of_stories hstories _)
  · rw [hpanes] at hopen
    obtain ⟨hst, hf⟩ := reassign_stories_fit (s := dropHead s) hopen
    exact ⟨hstories.trans hst, hfit.trans hf⟩
  · rw [hscreens, reassignedScreen_stays hstays, reformattedScreen_mode]
    refine ⟨rfl, fun hsame => ?_⟩
    rw [reformattedScreen, if_pos hsame]
    exact Vector.set_getElem_self t.isLt
  · obtain ⟨hpane, hevents⟩ := panes_of_view (reassign_other t a (dropHead s) hx)
    rw [hlines, hscreens, hpanes, hnotices]
    exact ⟨set_other_at hx _ _, hpane, set_other_at hx _ _, hevents⟩

/-- Settles O30: each order's owner is taken step by step, and each step reaches one terminal only. -/
theorem assignAndDetachTerminal : Obligations.AssignAndDetachTerminal :=
  ⟨assignTerminalGivesTheAssignment, reassignmentMakesItsSteps,
    detachTerminalEndsEverythingButTheBase⟩

end Sys2Proof.Machine
end

section
/-! SUPPORT. The end of an event, block by block: what the channels, the arbiter, the Fit Queue, the terminals and the Link Port keep of their own state (R89, R91, R148, R151, R187). -/

namespace Sys2Proof.Machine

/-! ### Channels (R151) -/

theorem Channel.settle_same (now : Nat) (ch : Channel) :
    (ch.settle now).state = ch.state ∧ (ch.settle now).jobs = ch.jobs ∧
      (ch.settle now).pos = ch.pos ∧ (ch.settle now).finished = ch.finished ∧
      (ch.settle now).ready = ch.ready ∧ (ch.settle now).rate = ch.rate ∧
      (ch.settle now).threshold = ch.threshold ∧ (ch.settle now).waitChoice = ch.waitChoice ∧
      (ch.settle now).stallChoice = ch.stallChoice := moveIn_same now ch

theorem settle_channel_same (s : State) (c : Fin 4) :
    (settle s).channels[c].state = s.channels[c].state ∧
      (settle s).channels[c].jobs = s.channels[c].jobs ∧
      (settle s).channels[c].pos = s.channels[c].pos ∧
      (settle s).channels[c].finished = s.channels[c].finished ∧
      (settle s).channels[c].ready = s.channels[c].ready ∧
      (settle s).channels[c].rate = s.channels[c].rate ∧
      (settle s).channels[c].threshold = s.channels[c].threshold ∧
      (settle s).channels[c].waitChoice = s.channels[c].waitChoice ∧
      (settle s).channels[c].stallChoice = s.channels[c].stallChoice := by
  obtain ⟨g, hchannel⟩ := settle_channel s c
  simp only [hchannel]
  exact s.channels[c].settle_same s.now

/-! ### The arbiter and the Fit Queue (R148, R136) -/

/-- A grant chooses an owner; the mode, the levels and the list of waiting stories are others' to change. -/
theorem grantEngine_same (s : State) : (grantEngine s).engine.mode = s.engine.mode ∧
    (grantEngine s).engine.levels = s.engine.levels ∧ (grantEngine s).fit.list = s.fit.list := by
  unfold grantEngine
  split
  · exact ⟨rfl, rfl, rfl⟩
  next k _ =>
    cases k with
    | channel c => exact ⟨rfl, rfl, rfl⟩
    | fit => exact ⟨rfl, rfl, rfl⟩

theorem settle_engine_fit (s : State) :
    (settle s).engine = (grantEngine (moveAll s)).engine ∧
      (settle s).fit = (grantEngine (moveAll s)).fit := by
  rw [settle_eq, transmit_keeps _ .engine (by decide), transmit_keeps _ .fit (by decide),
    refreshAll_engine, refreshAll_fit]
  exact ⟨rfl, rfl⟩

/-! ### Terminals (R75, R89) -/

/-- The emitter and the line at rest change of a terminal's line its FIFO and its sending side. -/
theorem refreshTerminal_layers (s : State) (t : Fin 32) :
    (refreshTerminal s t).1.base = s.screens[t].base ∧
      (refreshTerminal s t).1.status = s.screens[t].status ∧
      (refreshTerminal s t).1.mode = s.screens[t].mode ∧
      (refreshTerminal s t).1.flash = s.screens[t].flash ∧
      { (refreshTerminal s t).2 with tx := s.lines[t].tx, sending := s.lines[t].sending } =
        s.lines[t] := by
  cases hattached : s.lines[t].attached with
  | false =>
    rw [refreshTerminal_detached s t hattached]
    exact ⟨rfl, rfl, rfl, rfl, rfl⟩
  | true =>
    rw [refreshTerminal_attached s t hattached]
    obtain ⟨hbase, hstatus, hmode, hflash⟩ :=
      emit_same emitFuel (s.screens[t].recompose (shownImage s t)) s.lines[t].tx
    exact ⟨hbase, hstatus, hmode, hflash, rfl⟩

theorem settle_terminal_same (s : State) (t : Fin 32) :
    (settle s).screens[t].base = s.screens[t].base ∧
      (settle s).screens[t].status = s.screens[t].status ∧
      (settle s).screens[t].mode = s.screens[t].mode ∧
      (settle s).screens[t].flash = s.screens[t].flash ∧
      { (settle s).lines[t] with tx := s.lines[t].tx, sending := s.lines[t].sending } = s.lines[t] ∧
      (s.lines[t].attached = false →
        (settle s).screens[t] = s.screens[t] ∧ (settle s).lines[t] = s.lines[t]) := by
  obtain ⟨hscreens, hlines⟩ := grant_move_screens_lines s
  obtain ⟨hbase, hstatus, hmode, hflash, hline⟩ := refreshTerminal_layers (grantEngine (moveAll s)) t
  rw [hscreens] at hbase hstatus hmode hflash
  rw [hlines] at hline
  rw [settle_screen, settle_line]
  refine ⟨hbase, hstatus, hmode, hflash, hline, fun hdetached => ?_⟩
  rw [refreshTerminal_detached _ t (hlines ▸ hdetached), hscreens, hlines]
  exact ⟨rfl, rfl⟩

/-! ### The Link Port (R187) -/

theorem transmit_busy {s : State} (h : s.link.sending.isSome = true) : transmit s = s := by
  obtain ⟨x, hx⟩ := Option.isSome_iff_exists.mp h
  unfold transmit
  rw [hx]

/-- The transmitter's choice changes of the link the frame being sent and the last source. -/
theorem transmit_link_same (s : State) :
    { (transmit s).link with sending := s.link.sending, lastSource := s.link.lastSource } =
      s.link := by
  unfold transmit
  split
  · rfl
  split
  · rfl
  split
  · split
    · rfl
    · rfl
  · rfl

theorem settle_link_same (s : State) :
    { (settle s).link with sending := s.link.sending, lastSource := s.link.lastSource } = s.link ∧
      (s.link.sending.isSome = true → (settle s).link = s.link ∧ (settle s).notices = s.notices) := by
  obtain ⟨hlink, hnotices⟩ := settle_before_transmit s
  have hkept := transmit_link_same (refreshAll (grantEngine (moveAll s)))
  rw [hlink] at hkept
  refine ⟨hkept, fun hbusy => ?_⟩
  rw [settle_eq, transmit_busy (hlink ▸ hbusy)]
  exact ⟨hlink, hnotices⟩

/-- Settles O3: the end of an event is taken block by block, the moving of codes, the grant, the emitters and the transmitter each keeping what is not theirs to send on. -/
theorem endOfEventKeepsOwnedState : Obligations.EndOfEventKeepsOwnedState := by
  intro s
  obtain ⟨hmode, hlevels, hlist⟩ := grantEngine_same (moveAll s)
  obtain ⟨hengine, hfit⟩ := settle_engine_fit s
  obtain ⟨hlink, hbusy⟩ := settle_link_same s
  refine ⟨settle_keeps s, settle_channel_same s, ?_, settle_terminal_same s, hlink, hbusy⟩
  rw [hengine, hfit]
  exact ⟨hmode, hlevels, hlist⟩

end Sys2Proof.Machine
end

section
/-! SUPPORT. The orders on one screen: PUT SCREEN TEXT, FILL BASE, SET STATUS, REPAINT and SET WATCH (R76 to R78, R84, R91, R92). -/

namespace Sys2Proof.Machine

/-! ### The checks -/

theorem withTerminal_of_val {b : List Byte} {i : Nat} {t : Fin 32} (h : u8 b i = t.val) (s : State)
    (k : Fin 32 → Answer) : withTerminal b i s k = k t := by
  unfold withTerminal
  rw [inRange_of_val h]

theorem withTerminal_range {b : List Byte} {i : Nat} (h : 32 ≤ u8 b i) (s : State)
    (k : Fin 32 → Answer) : withTerminal b i s k = refuse .range s := by
  unfold withTerminal
  rw [inRange_eq_none h]

theorem between_of_mem {lo hi v : Nat} (hlo : lo ≤ v) (hhi : v ≤ hi) : between lo hi v = some v :=
  if_pos (by simp [hlo, hhi])

theorem between_eq_none {lo hi v : Nat} (h : v < lo ∨ hi < v) : between lo hi v = none :=
  if_neg (by simp; omega)

theorem Attr.ofCode_eq_none {v : Nat} (h : 4 ≤ v) : Attr.ofCode v = none := by
  obtain ⟨k, rfl⟩ := Nat.exists_eq_add_of_le' h
  rfl

section
variable {body : List Byte} {s : State} {t : Fin 32}

/-! ### PUT SCREEN TEXT (R77) -/

theorem ownPutScreenText_range {text : List Byte} (htext : textAt body 5 (u8 body 4) = some text)
    (h : u8 body 1 = 0 ∨ 23 < u8 body 1 ∨ u8 body 2 = 0 ∨ 80 < u8 body 2 ∨ 4 ≤ u8 body 3) :
    ownPutScreenText body s = refuse .range s := by
  have hnone : between 1 23 (u8 body 1) = none ∨ between 1 80 (u8 body 2) = none ∨
      Attr.ofCode (u8 body 3) = none := by
    rcases h with h | h | h | h | h
    · exact .inl (between_eq_none (by omega))
    · exact .inl (between_eq_none (by omega))
    · exact .inr (.inl (between_eq_none (by omega)))
    · exact .inr (.inl (between_eq_none (by omega)))
    · exact .inr (.inr (Attr.ofCode_eq_none h))
  unfold ownPutScreenText
  rw [withText_some htext]
  split
  next hrow hcol ha =>
    rw [hrow, hcol, ha] at hnone
    rcases hnone with h | h | h <;> cases h
  next => rfl

/-- The cells that PUT SCREEN TEXT writes in a row, cut at column 80. -/
theorem writeCells_cellsOf (r : List Cell) (col : Nat) (a : Attr) (text : List Byte) :
    writeCells r col (cellsOf a (text.map plainByte)) = r.take (col - 1) ++
      ((text.map fun c => (⟨plainByte c, a⟩ : Cell)).take (81 - col) ++
        r.drop (col - 1 + text.length)) := by
  have hcells : cellsOf a (text.map plainByte) = text.map fun c => (⟨plainByte c, a⟩ : Cell) :=
    List.map_map
  rw [writeCells, hcells, List.length_map]

/-- A text is cut or substituted exactly where it is too long or holds another code. -/
theorem cut_or_substituted_iff (text : List Byte) (n : Nat) :
    (decide (n < text.length) || text.any fun c => !isText c) = true ↔
      ¬ (text.length ≤ n ∧ ∀ c ∈ text, isText c = true) := by
  simp only [Bool.or_eq_true, decide_eq_true_iff, List.any_eq_true, Bool.not_eq_true',
    not_and_or, Nat.not_le, not_forall, Bool.not_eq_true, exists_prop]

theorem ownPutScreenText_written {text : List Byte} {a : Attr} (ht : u8 body 0 = t.val)
    (htext : textAt body 5 (u8 body 4) = some text) (hrow : 1 ≤ u8 body 1) (hrow' : u8 body 1 ≤ 23)
    (hcol : 1 ≤ u8 body 2) (hcol' : u8 body 2 ≤ 80) (ha : Attr.ofCode (u8 body 3) = some a) :
    ownPutScreenText body s =
      (modScreen t (fun sc => { sc with
          base := sc.base.modify (u8 body 1 - 1) fun r => r.take (u8 body 2 - 1) ++
            ((text.map fun c => (⟨plainByte c, a⟩ : Cell)).take (81 - u8 body 2) ++
              r.drop (u8 body 2 - 1 + text.length)) }) s,
        ⟨if text.length ≤ 81 - u8 body 2 ∧ (∀ c ∈ text, isText c = true) then .ok else .clamped,
          []⟩) := by
  unfold ownPutScreenText
  rw [withText_some htext, inRange_of_val ht, between_of_mem hrow hrow', between_of_mem hcol hcol', ha]
  dsimp only
  rw [clampedIf_eq_not (cut_or_substituted_iff text _)]
  simp only [writeCells_cellsOf]

/-! ### FILL BASE (R78) -/

theorem ownFillBase_range
    (h : u8 body 1 = 0 ∨ 23 < u8 body 2 ∨ u8 body 2 < u8 body 1 ∨ 4 ≤ u8 body 4) :
    ownFillBase body s = refuse .range s := by
  have hnone : between 1 23 (u8 body 1) = none ∨ between (u8 body 1) 23 (u8 body 2) = none ∨
      Attr.ofCode (u8 body 4) = none := by
    rcases h with h | h | h | h
    · exact .inl (between_eq_none (by omega))
    · exact .inr (.inl (between_eq_none (by omega)))
    · exact .inr (.inl (between_eq_none (by omega)))
    · exact .inr (.inr (Attr.ofCode_eq_none h))
  unfold ownFillBase
  dsimp only
  split
  next hfirst hlast ha =>
    rw [hfirst, hlast, ha] at hnone
    rcases hnone with h | h | h <;> cases h
  next => rfl

theorem ownFillBase_filled {a : Attr} (ht : u8 body 0 = t.val) (hfirst : 1 ≤ u8 body 1)
    (hle : u8 body 1 ≤ u8 body 2) (hlast : u8 body 2 ≤ 23) (ha : Attr.ofCode (u8 body 4) = some a) :
    ownFillBase body s =
      (modScreen t (fun sc => { sc with
          base := sc.base.mapIdx fun i r =>
            if u8 body 1 ≤ i + 1 ∧ i + 1 ≤ u8 body 2 then
              List.replicate 80 ⟨plainByte (body.getD 3 0), a⟩
            else r }) s,
        ⟨if isText (body.getD 3 0) then .ok else .clamped, []⟩) := by
  have hclamped : (!isText (body.getD 3 0)) = true ↔ ¬ isText (body.getD 3 0) = true := by
    rw [Bool.not_eq_true', Bool.not_eq_true]
  unfold ownFillBase
  rw [inRange_of_val ht, between_of_mem hfirst (hle.trans hlast), between_of_mem hle hlast, ha]
  dsimp only
  rw [clampedIf_eq_not hclamped]
  simp only [fillRows, Bool.and_eq_true, decide_eq_true_eq]

/-! ### SET STATUS (R84) -/

theorem ownSetStatus_written {text : List Byte} (ht : u8 body 0 = t.val)
    (htext : textAt body 2 (u8 body 1) = some text) :
    ownSetStatus body s =
      (modScreen t (fun sc => { sc with status := (text.take 16).map plainByte }) s,
        ⟨if text.length ≤ 16 ∧ (∀ c ∈ text.take 16, isText c = true) then .ok else .clamped, []⟩) := by
  unfold ownSetStatus
  rw [withText_some htext, withTerminal_of_val ht]
  dsimp only
  rw [clampedIf_eq_not (cleanText_clamped_iff_not text 16)]
  rfl

/-! ### REPAINT (R91) -/

theorem ownRepaint_range (h : 32 ≤ u8 body 0) : ownRepaint body s = refuse .range s :=
  withTerminal_range h s _

theorem ownRepaint_detached (ht : u8 body 0 = t.val) (hdetached : s.lines[t].attached = false) :
    ownRepaint body s = refuse .noSuch s :=
  (withTerminal_of_val ht s _).trans (if_neg (Bool.eq_false_iff.mp hdetached))

theorem ownRepaint_attached (ht : u8 body 0 = t.val) (hattached : s.lines[t].attached = true) :
    ownRepaint body s = (repaint t s, ⟨.ok, []⟩) :=
  (withTerminal_of_val ht s _).trans (if_pos hattached)

/-! ### SET WATCH (R92) -/

/-- SET WATCH with a target in range: its checks on the two terminals follow. -/
theorem ownSetWatch_target {x : Fin 32} (ht : u8 body 0 = t.val) (hx : u8 body 1 = x.val) :
    ownSetWatch body s = if !s.lines[t].attached then refuse .noSuch s else watchTarget t x s := by
  have hsome : optByte body 1 = some (u8 body 1) := optByte_some (by omega)
  unfold ownSetWatch
  rw [withTerminal_of_val ht, hsome]
  dsimp only
  rw [inRange_of_val hx]

theorem ownSetWatch_targetRange (ht : u8 body 0 = t.val) (hnone : u8 body 1 ≠ 0xFF)
    (h : 32 ≤ u8 body 1) : ownSetWatch body s = refuse .range s := by
  unfold ownSetWatch
  rw [withTerminal_of_val ht, optByte_some hnone]
  dsimp only
  rw [inRange_eq_none h]

theorem ownSetWatch_detached {x : Fin 32} (ht : u8 body 0 = t.val) (hx : u8 body 1 = x.val)
    (hdetached : s.lines[t].attached = false) : ownSetWatch body s = refuse .noSuch s := by
  rw [ownSetWatch_target ht hx, hdetached]
  rfl

theorem ownSetWatch_attached {x : Fin 32} (ht : u8 body 0 = t.val) (hx : u8 body 1 = x.val)
    (hattached : s.lines[t].attached = true) : ownSetWatch body s = watchTarget t x s := by
  rw [ownSetWatch_target ht hx, hattached]
  rfl

theorem ownSetWatch_none (ht : u8 body 0 = t.val) (hnone : u8 body 1 = 0xFF) :
    ownSetWatch body s = (if isWatching s t then setMode t .normal s else s, ⟨.ok, []⟩) := by
  unfold ownSetWatch
  rw [withTerminal_of_val ht, optByte_none hnone]
  rfl

theorem ownSetWatch_ended (ht : u8 body 0 = t.val) (hnone : u8 body 1 = 0xFF)
    (hwatching : ∃ y, s.screens[t].mode = .watching y) :
    ownSetWatch body s = (setMode t .normal s, ⟨.ok, []⟩) := by
  rw [ownSetWatch_none ht hnone, if_pos (isWatching_iff.mpr hwatching)]

theorem ownSetWatch_idle (ht : u8 body 0 = t.val) (hnone : u8 body 1 = 0xFF)
    (hidle : ∀ y, s.screens[t].mode ≠ .watching y) : ownSetWatch body s = (s, ⟨.ok, []⟩) := by
  rw [ownSetWatch_none ht hnone, if_neg fun h => (isWatching_iff.mp h).elim hidle]

/-! The checks on the watcher w and its target x, in their order. -/

variable {w x : Fin 32}

theorem watchTarget_self : watchTarget w w s = refuse .range s := if_pos rfl

theorem watchTarget_keyed (hne : x ≠ w) (hkey : s.lines[w].key ≠ 0) :
    watchTarget w x s = refuse .denied s := by
  rw [watchTarget, if_neg hne, if_pos hkey]

theorem watchTarget_detached (hne : x ≠ w) (hkey : s.lines[w].key = 0)
    (hdetached : s.lines[x].attached = false) : watchTarget w x s = refuse .noSuch s := by
  rw [watchTarget, if_neg hne, if_neg (not_not_intro hkey), if_pos (by rw [hdetached]; rfl)]

/-- Past the checks on keys and lines, a watch begins where neither the target watches nor the watcher is watched. -/
theorem watchTarget_open (hne : x ≠ w) (hkey : s.lines[w].key = 0)
    (hattached : s.lines[x].attached = true) :
    watchTarget w x s = if isWatching s x then refuse .range s
      else if isWatched s w then refuse .range s
      else (setMode w (.watching x) s, Reply.bare .ok) := by
  rw [watchTarget, if_neg hne, if_neg (not_not_intro hkey), if_neg (by rw [hattached]; decide)]

theorem watchTarget_engaged (hne : x ≠ w) (hkey : s.lines[w].key = 0)
    (hattached : s.lines[x].attached = true)
    (h : (∃ y, s.screens[x].mode = .watching y) ∨ ∃ y : Fin 32, s.screens[y].mode = .watching w) :
    watchTarget w x s = refuse .range s := by
  rw [watchTarget_open hne hkey hattached]
  by_cases hidle : isWatching s x = true
  · exact if_pos hidle
  · rw [if_neg hidle]
    obtain ⟨y, hy⟩ := h.resolve_left fun hwatches => hidle (isWatching_iff.mpr hwatches)
    refine if_pos (Bool.not_eq_false _ ▸ fun hunwatched => ?_)
    exact isWatched_eq_false_iff.mp hunwatched y hy

theorem watchTarget_begun (hne : x ≠ w) (hkey : s.lines[w].key = 0)
    (hattached : s.lines[x].attached = true) (hidle : ∀ y, s.screens[x].mode ≠ .watching y)
    (hunwatched : ∀ y : Fin 32, s.screens[y].mode ≠ .watching w) :
    watchTarget w x s = (setMode w (.watching x) s, ⟨.ok, []⟩) := by
  have hx : ¬ isWatching s x = true := fun h => (isWatching_iff.mp h).elim hidle
  have hw : ¬ isWatched s w = true := Bool.eq_false_iff.mp (isWatched_eq_false_iff.mpr hunwatched)
  rw [watchTarget_open hne hkey hattached, if_neg hx, if_neg hw]
  rfl

end

/-! ### The statements -/

theorem baseLayerAndStatusAreWritten : Clause.BaseLayerAndStatusAreWritten := by
  intro tag body s t ht
  refine ⟨fun text hlen htext htakes h => ?_, fun hlen htakes h => ?_, ?_, ?_, ?_⟩
  · exact refuses_of_own (own := ownPutScreenText) rfl htakes hlen (ownPutScreenText_range htext h)
  · exact refuses_of_own (own := ownFillBase) rfl htakes hlen (ownFillBase_range h)
  · rintro text _ _ a hlen htext htakes rfl rfl hrow hrow' hcol hcol' ha
    exact replies_of_own_eq (own := ownPutScreenText) rfl htakes hlen
      (ownPutScreenText_written ht htext hrow hrow' hcol hcol' ha) (modScreen_keeps _ t _) (by decide) rfl
  · rintro _ _ a hlen htakes rfl rfl hfirst hle hlast ha
    exact replies_of_own_eq (own := ownFillBase) rfl htakes hlen
      (ownFillBase_filled ht hfirst hle hlast ha) (modScreen_keeps _ t _) (by decide) rfl
  · intro text hlen htext htakes
    exact replies_of_own_eq (own := ownSetStatus) rfl htakes hlen
      (ownSetStatus_written ht htext) (modScreen_keeps _ t _) (by decide) rfl

theorem repaintForgetsTheSentImage : Clause.RepaintForgetsTheSentImage := by
  intro tag body s hlen htakes
  refine ⟨fun h => ?_, fun t ht => ⟨fun hdetached => ?_, fun hattached => ?_⟩⟩
  · exact refuses_of_own (own := ownRepaint) rfl htakes hlen (ownRepaint_range h)
  · exact refuses_of_own (own := ownRepaint) rfl htakes hlen
      (ownRepaint_detached (s := dropHead s) ht hdetached)
  · exact replies_of_own_eq (own := ownRepaint) rfl htakes hlen
      (ownRepaint_attached (s := dropHead s) ht hattached) (repaint_keeps t _) (by decide) rfl

/-- Settles O35: each owner is taken to the screen it writes once its fields are read. -/
theorem baseLayerStatusAndRepaint : Obligations.BaseLayerStatusAndRepaint :=
  ⟨baseLayerAndStatusAreWritten, repaintForgetsTheSentImage⟩

/-- Settles O36: the checks of SET WATCH are taken one by one, in the order in which the owner makes them. -/
theorem setWatchChecksItsTarget : Obligations.SetWatchChecksItsTarget := by
  intro tag body s hlen htakes
  have refuses : ∀ {r}, ownSetWatch body (dropHead s) = refuse r (dropHead s) →
      Refuses (.setWatch tag body) 0x1D#8 tag r s :=
    refuses_of_own (own := ownSetWatch) rfl htakes hlen
  refine ⟨fun h => refuses (withTerminal_range h _ _), fun w hw =>
    ⟨fun hnone h => refuses (ownSetWatch_targetRange hw hnone h), fun x hx =>
      ⟨fun hdetached => refuses (ownSetWatch_detached (s := dropHead s) hw hx hdetached),
        fun hattached => ?_⟩, fun hnone => ?_⟩⟩
  · have hown : ownSetWatch body (dropHead s) = watchTarget w x (dropHead s) :=
      ownSetWatch_attached (s := dropHead s) hw hx hattached
    refine ⟨fun he => ?_, fun hne hkey => ?_, fun hne hkey hx => ?_, fun hne hkey hx =>
      ⟨fun h => ?_, fun hidle hunwatched => ?_⟩⟩
    · subst he
      exact refuses (hown.trans watchTarget_self)
    · exact refuses (hown.trans (watchTarget_keyed (s := dropHead s) hne hkey))
    · exact refuses (hown.trans (watchTarget_detached (s := dropHead s) hne hkey hx))
    · exact refuses (hown.trans (watchTarget_engaged (s := dropHead s) hne hkey hx h))
    · exact replies_of_own_eq (own := ownSetWatch) rfl htakes hlen
        (hown.trans (watchTarget_begun (s := dropHead s) hne hkey hx hidle hunwatched))
        (setMode_keeps w _ _) (by decide) rfl
  · refine ⟨fun hwatching => ?_, fun hidle => ?_⟩
    · exact replies_of_own_eq (own := ownSetWatch) rfl htakes hlen
        (ownSetWatch_ended (s := dropHead s) hw hnone hwatching) (setMode_keeps w _ _) (by decide) rfl
    · exact reads_of_own (own := ownSetWatch) rfl htakes hlen
        (ownSetWatch_idle (s := dropHead s) hw hnone hidle)

end Sys2Proof.Machine
end

section
/-! SUPPORT. Rotations: the order in which positions are tried, the position chosen next, SET ROTATION, and the two screen timers (R87, R94, R96). -/

namespace Sys2Proof.Machine

/-! ### The order in which positions are tried (R96) -/

/-- How many positions are tried before the one with index i, where the choice begins behind position k of n. -/
def rotationTurn (n k i : Nat) : Nat := (i + n - k) % n

theorem mem_rotationOrder {n k p : Nat} : p ∈ rotationOrder n k ↔ 1 ≤ p ∧ p ≤ n := by
  simp only [rotationOrder, List.mem_append, List.mem_range'_1]
  omega

theorem rotationTurn_behind {n k p : Nat} (hk : k < p) (hp : p ≤ n) :
    rotationTurn n k (p - 1) = p - 1 - k := by
  unfold rotationTurn
  rw [show p - 1 + n - k = p - 1 - k + n by omega, Nat.add_mod_right, Nat.mod_eq_of_lt (by omega)]

theorem rotationTurn_before {n k p : Nat} (hp : 1 ≤ p) (hpk : p ≤ k) (hk : k ≤ n) :
    rotationTurn n k (p - 1) = p - 1 + n - k := Nat.mod_eq_of_lt (by omega)

/-- The positions are tried by rising turns: first those behind k, then those from 1 to k. -/
theorem rotationOrder_rising {n k : Nat} (hk : k ≤ n) :
    (rotationOrder n k).Pairwise fun p q => rotationTurn n k (p - 1) < rotationTurn n k (q - 1) := by
  refine List.pairwise_append.mpr ⟨?_, ?_, fun p hp q hq => ?_⟩
  · refine List.Pairwise.imp_of_mem (fun {p q} hp hq hlt => ?_) List.pairwise_lt_range'
    rw [List.mem_range'_1] at hp hq
    rw [rotationTurn_behind (by omega) (by omega), rotationTurn_behind (by omega) (by omega)]
    omega
  · refine List.Pairwise.imp_of_mem (fun {p q} hp hq hlt => ?_) List.pairwise_lt_range'
    rw [List.mem_range'_1] at hp hq
    rw [rotationTurn_before (by omega) (by omega) hk, rotationTurn_before (by omega) (by omega) hk]
    omega
  · rw [List.mem_range'_1] at hp hq
    rw [rotationTurn_behind (by omega) (by omega), rotationTurn_before (by omega) (by omega) hk]
    omega

/-- What is found in a list that rises by a measure comes before everything else that passes the test. -/
theorem not_of_find?_of_rising {α : Type} {l : List α} {p : α → Bool} {f : α → Nat} {a b : α}
    (hl : l.Pairwise fun x y => f x < f y) (hfind : l.find? p = some a) (hb : b ∈ l)
    (hlt : f b < f a) : p b = false := by
  obtain ⟨-, before, after, rfl, hbefore⟩ := List.find?_eq_some_iff_append.mp hfind
  obtain ⟨-, hafter, -⟩ := List.pairwise_append.mp hl
  rcases List.mem_append.mp hb with hmem | hmem
  · exact Bool.not_eq_true' _ ▸ hbefore b hmem
  · rcases List.mem_cons.mp hmem with rfl | hmem
    · exact absurd hlt (Nat.lt_irrefl _)
    · exact absurd (List.rel_of_pairwise_cons hafter hmem) (Nat.lt_asymm hlt)

/-! ### The position chosen next (R96, log entry 41) -/

/-- The basket at a position of a rotation has a story. -/
def positionFilled (baskets : Vector Basket 64) (bs : List (Fin 64)) (p : Nat) : Bool :=
  match bs[p - 1]? with
  | none => false
  | some b => !baskets[b].list.isEmpty

theorem positionFilled_iff {baskets : Vector Basket 64} {bs : List (Fin 64)} {p : Nat} :
    positionFilled baskets bs p = true ↔ ∃ b, bs[p - 1]? = some b ∧ baskets[b].list ≠ [] := by
  unfold positionFilled
  cases hb : bs[p - 1]? with
  | none => simp
  | some b => simp

theorem nextPosition_of_baskets {s u : State} (h : u.baskets = s.baskets) (r : Rotation) :
    nextPosition u r = nextPosition s r := by
  unfold nextPosition
  rw [h]

section
variable {s : State} {r : Rotation}

/-- Without skip-empty the next position is shown, position 1 after the last. -/
theorem nextPosition_plain (hskip : r.skipEmpty = false) (hbaskets : 1 ≤ r.baskets.length) :
    nextPosition s r = if r.position < r.baskets.length then r.position + 1 else 1 := by
  unfold nextPosition
  rw [hskip]
  show ((rotationOrder r.baskets.length r.position).find? fun _ => true).getD 1 = _
  rw [rotationOrder]
  by_cases h : r.position < r.baskets.length
  · rw [if_pos h, show r.baskets.length - r.position = r.baskets.length - r.position - 1 + 1 by omega]
    rfl
  · rw [if_neg h, show r.baskets.length - r.position = 0 by omega,
      show min r.position r.baskets.length = r.baskets.length - 1 + 1 by omega]
    rfl

theorem nextPosition_skipping (hskip : r.skipEmpty = true) : nextPosition s r =
    ((rotationOrder r.baskets.length r.position).find? (positionFilled s.baskets r.baskets)).getD 1 := by
  unfold nextPosition
  rw [hskip]
  rfl

theorem nextPosition_bounds (hbaskets : 1 ≤ r.baskets.length) :
    1 ≤ nextPosition s r ∧ nextPosition s r ≤ r.baskets.length := by
  unfold nextPosition
  cases hfind : (rotationOrder r.baskets.length r.position).find? _ with
  | none => exact ⟨Nat.le_refl 1, hbaskets⟩
  | some p => exact mem_rotationOrder.mp (List.mem_of_find?_eq_some hfind)

theorem nextPosition_allEmpty (hskip : r.skipEmpty = true)
    (hempty : ∀ b ∈ r.baskets, s.baskets[b].list = []) : nextPosition s r = 1 := by
  have hnone : (rotationOrder r.baskets.length r.position).find?
      (positionFilled s.baskets r.baskets) = none := by
    refine List.find?_eq_none.mpr fun p _ hp => ?_
    obtain ⟨b, hb, hne⟩ := positionFilled_iff.mp hp
    exact hne (hempty b (List.mem_of_getElem? hb))
  rw [nextPosition_skipping hskip, hnone]
  rfl

/-- With skip-empty the position shown has a story, and every position tried before it has none. -/
theorem nextPosition_filled (hskip : r.skipEmpty = true) (hposition : r.position ≤ r.baskets.length)
    (hfilled : ∃ b ∈ r.baskets, s.baskets[b].list ≠ []) :
    (∃ b, r.baskets[nextPosition s r - 1]? = some b ∧ s.baskets[b].list ≠ []) ∧
      ∀ i b, r.baskets[i]? = some b →
        rotationTurn r.baskets.length r.position i <
          rotationTurn r.baskets.length r.position (nextPosition s r - 1) →
        s.baskets[b].list = [] := by
  rw [nextPosition_skipping hskip]
  cases hfind : (rotationOrder r.baskets.length r.position).find?
      (positionFilled s.baskets r.baskets) with
  | none =>
    obtain ⟨b, hmem, hne⟩ := hfilled
    obtain ⟨i, hi, hb⟩ := List.mem_iff_getElem.mp hmem
    have hempty := List.find?_eq_none.mp hfind (i + 1)
      (mem_rotationOrder.mpr ⟨Nat.le_add_left 1 i, hi⟩)
    exact absurd (positionFilled_iff.mpr ⟨b, List.getElem?_eq_some_iff.mpr ⟨hi, hb⟩, hne⟩) hempty
  | some p =>
    refine ⟨positionFilled_iff.mp (List.find?_some hfind), fun i b hb hlt => ?_⟩
    obtain ⟨hi, -⟩ := List.getElem?_eq_some_iff.mp hb
    have hempty := not_of_find?_of_rising (rotationOrder_rising hposition) hfind
      (mem_rotationOrder.mpr ⟨Nat.le_add_left 1 i, hi⟩) hlt
    by_contra hne
    exact absurd (positionFilled_iff.mpr ⟨b, hb, hne⟩) (Bool.eq_false_iff.mp hempty)

end

/-! ### The first position of a rotation (R94) -/

/-- The rotation that SET ROTATION begins: its position is chosen as from before position 1. -/
def rotationBegun (bs : List (Fin 64)) (dwell : Nat) (skip : Bool) (s : State) : Rotation :=
  ⟨bs, dwell, skip, nextPosition s ⟨bs, dwell, skip, 0, s.now⟩, s.now⟩

section
variable {s : State} {bs : List (Fin 64)} {dwell : Nat}

theorem rotationBegun_bounds (hbaskets : 1 ≤ bs.length) (skip : Bool) :
    1 ≤ (rotationBegun bs dwell skip s).position ∧
      (rotationBegun bs dwell skip s).position ≤ bs.length :=
  nextPosition_bounds (s := s) (r := ⟨bs, dwell, skip, 0, s.now⟩) hbaskets

theorem rotationBegun_plain (hbaskets : 1 ≤ bs.length) :
    (rotationBegun bs dwell false s).position = 1 :=
  (nextPosition_plain (s := s) (r := ⟨bs, dwell, false, 0, s.now⟩) rfl hbaskets).trans (if_pos hbaskets)

theorem rotationBegun_allEmpty (hempty : ∀ b ∈ bs, s.baskets[b].list = []) :
    (rotationBegun bs dwell true s).position = 1 :=
  nextPosition_allEmpty (s := s) (r := ⟨bs, dwell, true, 0, s.now⟩) rfl hempty

/-- As from before position 1, the position shown is the first that has a story. -/
theorem rotationBegun_filled (hfilled : ∃ b ∈ bs, s.baskets[b].list ≠ []) :
    (∃ b, bs[(rotationBegun bs dwell true s).position - 1]? = some b ∧ s.baskets[b].list ≠ []) ∧
      ∀ i b, i + 1 < (rotationBegun bs dwell true s).position → bs[i]? = some b →
        s.baskets[b].list = [] := by
  obtain ⟨hshown, hbefore⟩ := nextPosition_filled (s := s) (r := ⟨bs, dwell, true, 0, s.now⟩) rfl
    (Nat.zero_le _) hfilled
  refine ⟨hshown, fun i b hi hb => hbefore i b hb ?_⟩
  obtain ⟨hlength, -⟩ := List.getElem?_eq_some_iff.mp hb
  obtain ⟨hpos, hle⟩ := rotationBegun_bounds (s := s) (dwell := dwell) (Nat.one_le_of_lt hlength) true
  calc rotationTurn bs.length 0 i
      = i := rotationTurn_behind (Nat.succ_pos i) hlength
    _ < (rotationBegun bs dwell true s).position - 1 := by omega
    _ = rotationTurn bs.length 0 ((rotationBegun bs dwell true s).position - 1) :=
      (rotationTurn_behind hpos hle).symm

end

/-! ### The baskets that SET ROTATION announces (R94) -/

theorem basketsOf_eq_none {raw : List Byte} (h : ∃ x ∈ raw, 64 ≤ x.toNat) : basketsOf raw = none := by
  induction raw with
  | nil => obtain ⟨x, hx, -⟩ := h; cases hx
  | cons c cs ih =>
    obtain ⟨x, hx, hx64⟩ := h
    unfold basketsOf
    rcases List.mem_cons.mp hx with rfl | hmem
    · rw [inRange_eq_none hx64]
    · rw [ih ⟨x, hmem, hx64⟩]
      split
      next hnone => cases hnone
      next => rfl

theorem basketsOf_length {raw : List Byte} {bs : List (Fin 64)} (h : basketsOf raw = some bs) :
    bs.length = raw.length := by
  induction raw generalizing bs with
  | nil => cases h; rfl
  | cons c cs ih =>
    unfold basketsOf at h
    split at h
    next b rest _ hrest =>
      cases h
      exact congrArg Nat.succ (ih hrest)
    next => cases h

theorem clampTo_ne_iff (lo hi v : Nat) (h : lo ≤ hi) :
    decide (clampTo lo hi v ≠ v) = true ↔ ¬ (lo ≤ v ∧ v ≤ hi) := by
  rw [decide_eq_true_iff, clampTo_eq]
  omega

section
variable {body : List Byte} {s : State} {t : Fin 32}

/-! ### A rotation begins and ends (R94) -/

theorem endRotation_rotating (h : ∃ x, s.screens[t].mode = .rotating x) :
    endRotation t s = setMode t .normal s := by
  obtain ⟨x, hx⟩ := h
  unfold endRotation
  rw [hx]

theorem endRotation_other (h : ∀ x, s.screens[t].mode ≠ .rotating x) : endRotation t s = s := by
  unfold endRotation
  split
  next x hx => exact absurd hx (h x)
  next => rfl

theorem positionShown_rotating {x : Rotation} (h : s.screens[t].mode = .rotating x) :
    positionShown s t = x.position := by
  unfold positionShown
  rw [h]

theorem positionShown_other (h : ∀ x, s.screens[t].mode ≠ .rotating x) : positionShown s t = 0 := by
  unfold positionShown
  split
  next x hx => exact absurd hx (h x)
  next => rfl

theorem positionShown_endRotation : positionShown (endRotation t s) t = 0 := by
  by_cases h : ∃ x, s.screens[t].mode = .rotating x
  · rw [endRotation_rotating h]
    refine positionShown_other fun x hx => ?_
    rw [setMode_self] at hx
    cases hx
  · have hother := not_exists.mp h
    rw [endRotation_other hother]
    exact positionShown_other hother

theorem beginRotation_screens (bs : List (Fin 64)) (dwell : Nat) (skip : Bool) :
    (beginRotation t bs dwell skip s).screens = s.screens.set t { s.screens[t] with
      mode := .rotating (rotationBegun bs dwell skip s), marks := allRows } := by
  have hscreens : (closePanes t s).screens = s.screens := closePanes_keeps t s .screens (by decide)
  have hnow : (closePanes t s).now = s.now := closePanes_keeps t s .now (by decide)
  have hbaskets : (closePanes t s).baskets = s.baskets := closePanes_keeps t s .baskets (by decide)
  have hbegun : rotationBegun bs dwell skip (closePanes t s) = rotationBegun bs dwell skip s := by
    unfold rotationBegun
    rw [hnow, nextPosition_of_baskets hbaskets]
  show (closePanes t s).screens.set t { (closePanes t s).screens[t] with
    mode := .rotating (rotationBegun bs dwell skip (closePanes t s)), marks := allRows } = _
  rw [hbegun, hscreens]

theorem closed_of_beginRotation (bs : List (Fin 64)) (dwell : Nat) (skip : Bool) :
    KeepsBut [.screens] (closePanes t s) (beginRotation t bs dwell skip s) := setMode_keeps t _ _

theorem positionShown_beginRotation (bs : List (Fin 64)) (dwell : Nat) (skip : Bool) :
    positionShown (beginRotation t bs dwell skip s) t = (rotationBegun bs dwell skip s).position :=
  positionShown_rotating (by rw [beginRotation_screens, set_self_at])

/-! ### The checks of SET ROTATION (R94) -/

theorem ownSetRotation_range (h : 32 ≤ u8 body 0) : ownSetRotation body s = refuse .range s :=
  withTerminal_range h s _

theorem ownSetRotation_detached (ht : u8 body 0 = t.val) (hdetached : s.lines[t].attached = false) :
    ownSetRotation body s = refuse .noSuch s :=
  (withTerminal_of_val ht s _).trans (if_pos (by rw [hdetached]; rfl))

theorem ownSetRotation_malformed (ht : u8 body 0 = t.val) (hattached : s.lines[t].attached = true)
    (h : 4 < u8 body 4 ∨ body.length < 5 + u8 body 4) : ownSetRotation body s = refuse .malformed s := by
  unfold ownSetRotation
  rw [withTerminal_of_val ht, hattached]
  by_cases hcount : 4 < u8 body 4
  · exact if_pos hcount
  · refine (if_neg hcount).trans ?_
    rw [textAt_eq_none (h.resolve_left hcount)]

theorem ownSetRotation_basketRange (ht : u8 body 0 = t.val) (hattached : s.lines[t].attached = true)
    (hcount : u8 body 4 ≤ 4) (hlen : 5 + u8 body 4 ≤ body.length)
    (h : ∃ x ∈ (body.drop 5).take (u8 body 4), 64 ≤ x.toNat) :
    ownSetRotation body s = refuse .range s := by
  unfold ownSetRotation
  rw [withTerminal_of_val ht, hattached]
  refine (if_neg (Nat.not_lt.mpr hcount)).trans ?_
  rw [textAt_of_le hlen]
  dsimp only
  rw [basketsOf_eq_none h]

/-- SET ROTATION past its checks: a count of 0 ends a rotation, any other begins one. -/
theorem ownSetRotation_checked {bs : List (Fin 64)} (ht : u8 body 0 = t.val)
    (hattached : s.lines[t].attached = true) (hcount : u8 body 4 ≤ 4)
    (hlen : 5 + u8 body 4 ≤ body.length)
    (hbs : basketsOf ((body.drop 5).take (u8 body 4)) = some bs) :
    ownSetRotation body s =
      let s' := if u8 body 4 = 0 then endRotation t s
        else beginRotation t bs (clampTo 5 600 (u16 body 1)) (flagAt body 3) s
      (s', ⟨if 5 ≤ u16 body 1 ∧ u16 body 1 ≤ 600 then .ok else .clamped,
        e16 (positionShown s' t) ++
          e16 (if u8 body 4 = 0 then 0 else (openPanes s t).1 + (openPanes s t).2)⟩) := by
  unfold ownSetRotation
  rw [withTerminal_of_val ht, hattached]
  refine (if_neg (Nat.not_lt.mpr hcount)).trans ?_
  rw [textAt_of_le hlen]
  dsimp only
  rw [hbs]
  dsimp only
  rw [clampedIf_eq_not (clampTo_ne_iff 5 600 _ (by decide))]

theorem ownSetRotation_ends (ht : u8 body 0 = t.val) (hattached : s.lines[t].attached = true)
    (hlen : 5 ≤ body.length) (hcount : u8 body 4 = 0) : ownSetRotation body s = (endRotation t s,
      ⟨if 5 ≤ u16 body 1 ∧ u16 body 1 ≤ 600 then .ok else .clamped, e16 0 ++ e16 0⟩) := by
  have hnone : basketsOf ((body.drop 5).take (u8 body 4)) = some [] := by
    rw [hcount, List.take_zero]
    rfl
  rw [ownSetRotation_checked ht hattached (by omega) (by omega) hnone]
  dsimp only
  rw [if_pos hcount, if_pos hcount, positionShown_endRotation]

theorem ownSetRotation_begins {bs : List (Fin 64)} (ht : u8 body 0 = t.val)
    (hattached : s.lines[t].attached = true) (hcount : 1 ≤ u8 body 4) (hcount' : u8 body 4 ≤ 4)
    (hlen : 5 + u8 body 4 ≤ body.length)
    (hbs : basketsOf ((body.drop 5).take (u8 body 4)) = some bs) :
    ownSetRotation body s =
      (beginRotation t bs (clampTo 5 600 (u16 body 1)) (flagAt body 3) s,
        ⟨if 5 ≤ u16 body 1 ∧ u16 body 1 ≤ 600 then .ok else .clamped,
          e16 (rotationBegun bs (clampTo 5 600 (u16 body 1)) (flagAt body 3) s).position ++
            e16 ((openPanes s t).1 + (openPanes s t).2)⟩) := by
  have hsome : u8 body 4 ≠ 0 := Nat.one_le_iff_ne_zero.mp hcount
  rw [ownSetRotation_checked ht hattached hcount' hlen hbs]
  dsimp only
  rw [if_neg hsome, if_neg hsome, positionShown_beginRotation]

/-! ### The two timers (R87, R96) -/

theorem flashExpires_showing {f : Flash} (h : s.screens[t].flash = some f) : flashExpires t s =
    modScreen t (fun sc => { sc with flash := none }) (advanceTo (f.since + 60000) s) := by
  unfold flashExpires
  rw [h]
  rfl

theorem flashExpires_none (h : s.screens[t].flash = none) : flashExpires t s = s := by
  unfold flashExpires
  rw [h]

theorem dwellExpires_rotating {r : Rotation} (h : s.screens[t].mode = .rotating r) :
    dwellExpires t s = modScreen t (fun sc => { sc with
        mode := .rotating { r with
          position := nextPosition s r
          dwellFrom := max s.now (r.dwellFrom + 1000 * r.dwell) } })
      (advanceTo (r.dwellFrom + 1000 * r.dwell) s) := by
  unfold dwellExpires
  rw [h, Nat.mul_comm 1000]
  rfl

theorem dwellExpires_other (h : ∀ r, s.screens[t].mode ≠ .rotating r) : dwellExpires t s = s := by
  unfold dwellExpires
  split
  next r hr => exact absurd hr (h r)
  next => rfl

end

/-! ### The statements -/

theorem setRotationBeginsAndEnds : Clause.SetRotationBeginsAndEnds := by
  refine ⟨fun tag body s hlen htakes h => refuses_of_own (own := ownSetRotation) rfl htakes hlen
    (ownSetRotation_range h), fun tag body s t hlen htakes ht => ?_⟩
  have refuses : ∀ {r}, ownSetRotation body (dropHead s) = refuse r (dropHead s) →
      Refuses (.setRotation tag body) 0x1E#8 tag r s :=
    refuses_of_own (own := ownSetRotation) rfl htakes hlen
  refine ⟨fun hattached hcount hraw h => ?_, fun hdetached => ?_, fun hattached h => ?_,
    fun hattached hcount => ?_, fun bs hattached hcount hcount' hraw hbs => ?_⟩
  · exact refuses (ownSetRotation_basketRange (s := dropHead s) ht hattached hcount hraw h)
  · exact refuses (ownSetRotation_detached (s := dropHead s) ht hdetached)
  · exact refuses (ownSetRotation_malformed (s := dropHead s) ht hattached h)
  · refine replies_of_own_kept (own := ownSetRotation) rfl htakes hlen
      (ownSetRotation_ends (s := dropHead s) ht hattached hlen hcount) (endRotation_keeps t _)
      (by decide) fun w hw => ?_
    have hscreens : w.screens = (endRotation t (dropHead s)).screens := hw .screens (by decide)
    rw [hscreens]
    exact ⟨fun h => by rw [endRotation_rotating (s := dropHead s) h]; rfl,
      fun h => by rw [endRotation_other (s := dropHead s) h]; rfl⟩
  · have hlength : bs.length = u8 body 4 := by
      rw [basketsOf_length hbs, List.length_take, List.length_drop]
      omega
    refine ⟨_, replies_of_own_kept (own := ownSetRotation) rfl htakes hlen
      (ownSetRotation_begins (s := dropHead s) ht hattached hcount hcount' hraw hbs)
      (beginRotation_keeps t bs _ _ _) (by decide) fun w hw => ?_⟩
    have hbaskets : 1 ≤ bs.length := hlength ▸ hcount
    have hbounds := rotationBegun_bounds (s := dropHead s) (dwell := clampTo 5 600 (u16 body 1))
      hbaskets (flagAt body 3)
    have hclosed := closed_of_beginRotation (t := t) (s := dropHead s) bs
      (clampTo 5 600 (u16 body 1)) (flagAt body 3)
    refine ⟨rfl, ?_, fun e st he hst => ?_, _, rfl, ?_, fun hplain => ?_, hbounds.1, hbounds.2,
      fun hskip hempty => ?_, fun hskip hfilled => ?_⟩
    · rw [hw .panes (by decide)]
      exact (hclosed .panes (by decide)).trans (closePanes_panes t (dropHead s))
    · exact (closePanes_ended (s := dropHead s) he hst).congr
        ((hw .fit (by decide)).trans (hclosed .fit (by decide)))
        (storyOf_of_stories ((hw .stories (by decide)).trans (hclosed .stories (by decide))) _)
    · exact (hw .screens (by decide)).trans (beginRotation_screens (s := dropHead s) bs _ _)
    · rw [show flagAt body 3 = false from decide_eq_false (not_not_intro hplain)]
      exact rotationBegun_plain hbaskets
    · rw [flagAt_eq_true.mpr hskip]
      exact rotationBegun_allEmpty (s := dropHead s) hempty
    · rw [flagAt_eq_true.mpr hskip]
      exact rotationBegun_filled (s := dropHead s) hfilled

theorem screenTimersExpire : Clause.ScreenTimersExpire := by
  intro t s
  refine ⟨fun f hf => ?_, fun hnone => ?_, fun r hr hskip hbaskets => ?_,
    fun r hr hskip hposition hposition' => ?_, fun hother => ?_⟩
  · refine ⟨flashExpires t s, rfl, flashExpires_keeps t s, ?_⟩
    rw [flashExpires_showing hf]
    exact ⟨rfl, rfl⟩
  · refine ⟨flashExpires t s, rfl, ?_, trivial⟩
    rw [flashExpires_none hnone]
    exact KeepsBut.refl _ _
  · refine ⟨dwellExpires t s, rfl, dwellExpires_keeps t s, ?_⟩
    rw [dwellExpires_rotating hr, nextPosition_plain hskip hbaskets]
    exact ⟨rfl, rfl⟩
  · refine ⟨dwellExpires t s, rfl, dwellExpires_keeps t s, ?_⟩
    rw [dwellExpires_rotating hr]
    refine ⟨rfl, nextPosition s r, rfl, nextPosition_allEmpty hskip, fun hfilled => ?_⟩
    exact ⟨(nextPosition_bounds (hposition.trans hposition')).1,
      nextPosition_filled hskip hposition' hfilled⟩
  · refine ⟨dwellExpires t s, rfl, ?_, trivial⟩
    rw [dwellExpires_other hother]
    exact KeepsBut.refl _ _

/-- Settles O37: SET ROTATION is taken check by check, and both it and the dwell's end show the first position by turns that may be shown. -/
theorem rotationAndScreenTimers : Obligations.RotationAndScreenTimers :=
  ⟨setRotationBeginsAndEnds, screenTimersExpire⟩

end Sys2Proof.Machine
end

section
/-! SUPPORT. The keys that change no text: the insert/overtype key, the cursor keys, the scrolling of the reference pane and the pane switch key (R104, R105, R108 to R111). -/

namespace Sys2Proof.Machine

/-! ### The panes of one terminal (R97, R104) -/

section
variable {s : State} {t : Fin 32} {e : Session} (he : s.panes[t].session = some e)
include he

theorem modSession_panes (f : Session → Session) : (modSession t f s).panes =
    s.panes.set t { s.panes[t] with session := some (f e) } := by
  show s.panes.set t { s.panes[t] with session := s.panes[t].session.map f } = _
  rw [he]
  rfl

theorem modSession_self (f : Session → Session) : (modSession t f s).panes[t] =
    { s.panes[t] with session := some (f e) } := by
  rw [modSession, modPanes_self, he]
  rfl

/-- A cursor that moves keeps its terminal's top offset by steps 2 and 3 of R104. -/
theorem moveCursor_panes {st : Story} (hst : storyOf s e.story = some st) (k : Nat) :
    (moveCursor t k s).panes = s.panes.set t { s.panes[t] with session := some { e with
      cursor := k, top := sessionTop s.lines[t].layout (textOf s st) e.top k } } := by
  have hmoved := modSession_self he fun e => { e with cursor := k }
  have hst' : storyOf (modSession t (fun e => { e with cursor := k }) s) e.story = some st := hst
  rw [moveCursor, keepSessionTop, modPanes, hmoved]
  dsimp only
  rw [hst', modSession_panes he, Vector.set_set]
  rfl

end

/-! ### What a key in NORMAL does (R105) -/

section
variable {s : State} {t : Fin 32} {e : Session} {st : Story} (h : Edits s t e st)
include h

theorem handKey_toggle : handKey t .toggle s =
    modSession t (fun e => { e with mode := e.mode.other }) s :=
  (editKey_edits h _).trans (withEdit_edits h _)

theorem handKey_left : handKey t .left s =
    if e.cursor = 0 then bell t s else moveCursor t (e.cursor - 1) s :=
  (editKey_edits h _).trans (withEdit_edits h _)

theorem handKey_right : handKey t .right s =
    if e.cursor = lengthOf s st then bell t s else moveCursor t (e.cursor + 1) s :=
  (editKey_edits h _).trans (withEdit_edits h _)

/-- With focus EDIT no key scrolls the reference pane (R105). -/
theorem scrollsRef_edits : scrollsRef s.panes[t] = false := by
  obtain ⟨-, hsession, hfocus, -⟩ := h
  unfold scrollsRef
  rw [hsession]
  dsimp only
  rw [hfocus]
  rfl

theorem handKey_up {w : Nat} {rows : List DRow} (hw : w = editWidth s.lines[t].layout)
    (hrows : rows = displayRows w (textOf s st)) : handKey t .up s =
      if rowIndex rows e.cursor = 0 then bell t s
      else moveCursor t (rowTarget w rows e.cursor (rowIndex rows e.cursor - 1)) s := by
  subst hw hrows
  refine (editKey_edits h _).trans ?_
  rw [editUp, if_neg (by rw [scrollsRef_edits h]; decide)]
  exact withEdit_edits h _

theorem handKey_down {w : Nat} {rows : List DRow} (hw : w = editWidth s.lines[t].layout)
    (hrows : rows = displayRows w (textOf s st)) : handKey t .down s =
      if rowIndex rows e.cursor + 1 = rows.length then bell t s
      else moveCursor t (rowTarget w rows e.cursor (rowIndex rows e.cursor + 1)) s := by
  subst hw hrows
  refine (editKey_edits h _).trans ?_
  rw [editDown, if_neg (by rw [scrollsRef_edits h]; decide)]
  exact withEdit_edits h _

end

section
variable {s : State} {t : Fin 32}

/-- No session, or one with focus REFERENCE, leaves the up and down keys to an open reference pane (R105). -/
theorem scrollsRef_reading {r : RefPane} (hr : s.panes[t].ref = some r)
    (h : s.panes[t].session = none ∨ ∃ e, s.panes[t].session = some e ∧ e.focus = .reference) :
    scrollsRef s.panes[t] = true := by
  unfold scrollsRef
  rcases h with hnone | ⟨e, he, hfocus⟩
  · rw [hnone, hr]
    rfl
  · rw [he]
    exact decide_eq_true hfocus

theorem handKey_up_scrolls (hmode : s.screens[t].mode = .normal)
    (h : scrollsRef s.panes[t] = true) : handKey t .up s = scrollRef t s scrollUpTop :=
  (editKey_normal hmode _).trans (if_pos h)

theorem handKey_down_scrolls (hmode : s.screens[t].mode = .normal)
    (h : scrollsRef s.panes[t] = true) : handKey t .down s = scrollRef t s scrollDownTop :=
  (editKey_normal hmode _).trans (if_pos h)

theorem scrollRef_open {r : RefPane} {st : Story} (hr : s.panes[t].ref = some r)
    (hst : storyOf s r.story = some st) (target : List DRow → RefPane → Option Nat) :
    scrollRef t s target = match target (displayRows 39 (textOf s st)) r with
      | none => bell t s
      | some top => modPanes t (fun p => { p with ref := some ⟨r.story, top⟩ }) s := by
  unfold scrollRef
  rw [hr]
  dsimp only
  rw [hst]
  rfl

end

/-! ### What a key's command leaves (R104, R109 to R111) -/

section
variable {s : State} {t : Fin 32} {i : Instr} {k : Key} (h : Strikes t i k) (hfree : DecoderFree s t)
include h hfree

/-- A key that changes its terminal's open session and nothing else. -/
theorem Strikes.changes_session {e : Session} {f : Session → Session}
    (he : s.panes[t].session = some e) (hact : handKey t k s = modSession t f s) :
    Completes i [.panes] s fun u =>
      u.panes = s.panes.set t { s.panes[t] with session := some (f e) } :=
  ⟨_, by rw [h s hfree, hact], modSession_keeps _ _ _, modSession_panes he f⟩

/-- A cursor key gives the bell where it cannot move, and otherwise moves the cursor and keeps it in view. -/
theorem Strikes.moves_cursor {e : Session} {st : Story} {c : Prop} [Decidable c] {dest : Nat}
    (hedits : Edits s t e st) (hact : handKey t k s = if c then bell t s else moveCursor t dest s) :
    (c → Completes i [.screens] s fun u =>
      u.screens = s.screens.set t { s.screens[t] with bell := true }) ∧
    (¬ c → Completes i [.panes] s fun u =>
      u.panes = s.panes.set t { s.panes[t] with session := some { e with
        cursor := dest, top := sessionTop s.lines[t].layout (textOf s st) e.top dest } }) := by
  obtain ⟨-, he, -, hst⟩ := hedits
  refine ⟨fun hc => h.gives_bell hfree (hact.trans (if_pos hc)), fun hc => ?_⟩
  exact ⟨_, by rw [h s hfree, hact, if_neg hc], moveCursor_keeps _ _ _, moveCursor_panes he hst dest⟩

/-- A scroll key gives the bell where no row is to be shown that way, and otherwise moves the reference pane. -/
theorem Strikes.scrolls {r : RefPane} {st : Story} {target : List DRow → RefPane → Option Nat}
    (hr : s.panes[t].ref = some r) (hst : storyOf s r.story = some st)
    (hact : handKey t k s = scrollRef t s target) :
    (target (displayRows 39 (textOf s st)) r = none → Completes i [.screens] s fun u =>
      u.screens = s.screens.set t { s.screens[t] with bell := true }) ∧
    (∀ top, target (displayRows 39 (textOf s st)) r = some top → Completes i [.panes] s fun u =>
      u.panes = s.panes.set t { s.panes[t] with ref := some ⟨r.story, top⟩ }) := by
  rw [scrollRef_open hr hst] at hact
  refine ⟨fun hnone => ?_, fun top hsome => ?_⟩
  · rw [hnone] at hact
    exact h.gives_bell hfree hact
  · rw [hsome] at hact
    exact ⟨_, by rw [h s hfree, hact], modPanes_keeps _ _ _, rfl⟩

end

/-! ### The statements -/

theorem EditMode.other_eq (m : EditMode) : m.other = if m = .insert then .overtype else .insert := by
  cases m <;> rfl

theorem toggleAndSidewaysKeys : Clause.ToggleAndSidewaysKeys := by
  intro t s e st hfree h
  have ⟨_, he, _⟩ := h
  obtain ⟨hfirst, hleft⟩ := (strikes_left t).moves_cursor hfree h (handKey_left h)
  obtain ⟨hlast, hright⟩ := (strikes_right t).moves_cursor hfree h (handKey_right h)
  refine ⟨?_, hfirst, fun k hk => ?_, hlast, hright⟩
  · rw [← EditMode.other_eq]
    exact (strikes_toggle t).changes_session hfree he (handKey_toggle h)
  · have hmoved := hleft (by omega)
    rwa [hk, Nat.add_sub_cancel] at hmoved

theorem upAndDownKeys : Clause.UpAndDownKeys := by
  intro t s hfree hmode
  refine ⟨fun e st w rows he hfocus hst hw hrows => ?_, fun r st rows hreading hr hst hrows => ?_⟩
  · have h : Edits s t e st := ⟨hmode, he, hfocus, hst⟩
    obtain ⟨hfirst, hup⟩ := (strikes_up t).moves_cursor hfree h (handKey_up h hw hrows)
    obtain ⟨hlast, hdown⟩ := (strikes_down t).moves_cursor hfree h (handKey_down h hw hrows)
    refine ⟨hfirst, fun i hi => ?_, hlast, hdown⟩
    have hmoved := hup (by omega)
    rwa [hi, Nat.add_sub_cancel] at hmoved
  · subst hrows
    have hscrolls := scrollsRef_reading hr hreading
    obtain ⟨htop, hup⟩ :=
      (strikes_up t).scrolls hfree hr hst (handKey_up_scrolls hmode hscrolls)
    obtain ⟨hend, hdown⟩ :=
      (strikes_down t).scrolls hfree hr hst (handKey_down_scrolls hmode hscrolls)
    exact ⟨fun h0 => htop (if_pos h0), fun h0 => hup _ (if_neg h0), fun hshown => hend (if_pos hshown),
      fun hbelow => hdown _ (if_neg (Nat.not_le.mpr hbelow))⟩

theorem paneSwitchMovesTheFocus : Clause.PaneSwitchMovesTheFocus := by
  intro t s e hfree hmode he
  have hswitch : handKey t .switch s = editSwitch t s := editKey_normal hmode _
  rw [editSwitch, he] at hswitch
  dsimp only at hswitch
  refine ⟨fun hfocus => ?_, fun hfocus hopen => ?_, fun hfocus hnone => ?_⟩
  · rw [hfocus] at hswitch
    exact (strikes_switch t).changes_session hfree he hswitch
  · obtain ⟨r, hr⟩ := Option.isSome_iff_exists.mp hopen
    rw [hfocus, hr] at hswitch
    exact (strikes_switch t).changes_session hfree he hswitch
  · rw [hfocus, hnone] at hswitch
    exact (strikes_switch t).gives_bell hfree hswitch

/-- Settles O41: each key's command is the key's action on its terminal's panes (Strikes), which gives the bell or moves the cursor, the reference pane or the focus. -/
theorem cursorAndFocusKeys : Obligations.CursorAndFocusKeys :=
  ⟨toggleAndSidewaysKeys, upAndDownKeys, paneSwitchMovesTheFocus⟩

end Sys2Proof.Machine
end

section
/-! SUPPORT. The words of a text, and what the engine's own readings of a text make of them (R126, R127, R130). -/

namespace Sys2Proof.Machine

/-! ### Words (R126) -/

theorem wordsOf_space (cs : List Byte) : wordsOf (spaceCode :: cs) = wordsOf cs := if_pos rfl

theorem wordsOf_char_nil {c : Byte} (h : c ≠ spaceCode) : wordsOf [c] = [[c]] := if_neg h

theorem wordsOf_char_space {c : Byte} (h : c ≠ spaceCode) (cs : List Byte) :
    wordsOf (c :: spaceCode :: cs) = [c] :: wordsOf cs := by
  refine (if_neg h).trans ?_
  rw [wordsOf_space]
  cases wordsOf cs <;> rfl

/-- A character that is not a space joins the word behind it. -/
theorem wordsOf_char_char {c d : Byte} {cs w : List Byte} {ws : List (List Byte)}
    (h : c ≠ spaceCode) (hd : d ≠ spaceCode) (hws : wordsOf (d :: cs) = w :: ws) :
    wordsOf (c :: d :: cs) = (c :: w) :: ws := by
  refine (if_neg h).trans ?_
  rw [hws]
  exact if_neg hd

theorem wordsOf_char {c : Byte} (h : c ≠ spaceCode) (cs : List Byte) :
    ∃ w ws, wordsOf (c :: cs) = (c :: w) :: ws ∧ w ++ ws.flatten = (wordsOf cs).flatten := by
  induction cs generalizing c with
  | nil => exact ⟨[], [], wordsOf_char_nil h, rfl⟩
  | cons d ds ih =>
    by_cases hd : d = spaceCode
    · subst hd
      exact ⟨[], _, wordsOf_char_space h ds, by rw [wordsOf_space]; rfl⟩
    · obtain ⟨w, ws, heq, -⟩ := ih hd
      exact ⟨d :: w, ws, wordsOf_char_char h hd heq, by rw [heq]; rfl⟩

theorem wordsOf_char_ne_nil {c : Byte} (h : c ≠ spaceCode) (cs : List Byte) :
    wordsOf (c :: cs) ≠ [] := by
  obtain ⟨w, ws, heq, -⟩ := wordsOf_char h cs
  rw [heq]
  exact List.cons_ne_nil _ _

/-- The words hold the characters of a text that are not spaces, in order. -/
theorem flatten_wordsOf (t : List Byte) : (wordsOf t).flatten = t.filter fun c => c ≠ spaceCode := by
  induction t with
  | nil => rfl
  | cons c cs ih =>
    by_cases h : c = spaceCode
    · subst h
      rw [wordsOf_space, ih]
      rfl
    · obtain ⟨w, ws, heq, hflat⟩ := wordsOf_char h cs
      rw [heq, List.filter_cons_of_pos (by simpa using h), ← ih, ← hflat]
      rfl

theorem char_ne_space_of_wordsOf {t w : List Byte} {c : Byte} (hw : w ∈ wordsOf t) (hc : c ∈ w) :
    c ≠ spaceCode := by
  have hmem : c ∈ (wordsOf t).flatten := List.mem_flatten.mpr ⟨w, hw, hc⟩
  rw [flatten_wordsOf] at hmem
  exact of_decide_eq_true (List.mem_filter.mp hmem).2

/-! ### The next word and the text from it on (R127) -/

theorem fromWord_space (cs : List Byte) : fromWord (spaceCode :: cs) = fromWord cs := by
  simp [fromWord, leadingSpaces]

theorem fromWord_char {c : Byte} (h : c ≠ spaceCode) (cs : List Byte) :
    fromWord (c :: cs) = c :: cs := by
  simp [fromWord, leadingSpaces, h]

theorem fromWord_eq_dropWhile (t : List Byte) : fromWord t = t.dropWhile fun c => c = spaceCode := by
  induction t with
  | nil => rfl
  | cons c cs ih =>
    by_cases h : c = spaceCode
    · subst h
      rw [fromWord_space, ih]
      simp
    · rw [fromWord_char h]
      simp [h]

theorem fromWord_suffix (t : List Byte) : fromWord t <:+ t := List.drop_suffix _ _

theorem head_fromWord (t : List Byte) : (fromWord t).head? ≠ some spaceCode := by
  induction t with
  | nil => exact fun h => nomatch h
  | cons c cs ih =>
    by_cases h : c = spaceCode
    · subst h
      rwa [fromWord_space]
    · rw [fromWord_char h]
      exact fun hc => h (Option.some.inj hc)

theorem fromWord_of_head {t : List Byte} (h : t.head? ≠ some spaceCode) : fromWord t = t := by
  cases t with
  | nil => rfl
  | cons c cs => exact fromWord_char (fun hc => h (congrArg some hc)) cs

theorem wordsOf_fromWord (t : List Byte) : wordsOf (fromWord t) = wordsOf t := by
  induction t with
  | nil => rfl
  | cons c cs ih =>
    by_cases h : c = spaceCode
    · subst h
      rw [fromWord_space, ih, wordsOf_space]
    · rw [fromWord_char h]

theorem wordsOf_eq_nil {t : List Byte} (h : t.head? ≠ some spaceCode) : wordsOf t = [] ↔ t = [] := by
  cases t with
  | nil => exact ⟨fun _ => rfl, fun _ => rfl⟩
  | cons c cs =>
    exact ⟨fun hw => absurd hw (wordsOf_char_ne_nil (fun hc => h (congrArg some hc)) cs),
      fun hc => absurd hc (List.cons_ne_nil c cs)⟩

theorem fromWord_eq_nil (t : List Byte) : fromWord t = [] ↔ wordsOf t = [] := by
  rw [← wordsOf_fromWord, wordsOf_eq_nil (head_fromWord t)]

/-- A text of a word, and then nothing or a space and more, has that word and those of the rest. -/
theorem wordsOf_append {w rest : List Byte} (hw : w ≠ []) (hplain : ∀ c ∈ w, c ≠ spaceCode)
    (hrest : rest = [] ∨ rest.head? = some spaceCode) :
    wordsOf (w ++ rest) = w :: wordsOf rest := by
  induction w with
  | nil => exact absurd rfl hw
  | cons c cs ih =>
    have hc : c ≠ spaceCode := hplain c List.mem_cons_self
    cases cs with
    | nil =>
      rcases hrest with rfl | hhead
      · exact wordsOf_char_nil hc
      · obtain ⟨tail, rfl⟩ := List.head?_eq_some_iff.mp hhead
        rw [wordsOf_space]
        exact wordsOf_char_space hc tail
    | cons d ds =>
      have hmore := ih (List.cons_ne_nil d ds) fun x hx => hplain x (List.mem_cons_of_mem c hx)
      exact wordsOf_char_char hc (hplain d (by simp)) hmore

theorem headWord_space (cs : List Byte) : headWord (spaceCode :: cs) = [] := by simp [headWord]

theorem headWord_char {c : Byte} (h : c ≠ spaceCode) (cs : List Byte) :
    headWord (c :: cs) = c :: headWord cs := by simp [headWord, h]

theorem headWord_plain {t : List Byte} {c : Byte} (h : c ∈ headWord t) : c ≠ spaceCode := by
  have hc := List.mem_takeWhile_imp h
  exact of_decide_eq_true hc

theorem headWord_append_rest (t : List Byte) : headWord t ++ t.drop (headWord t).length = t :=
  List.prefix_iff_eq_append.mp (List.takeWhile_prefix _)

theorem rest_of_headWord (t : List Byte) :
    t.drop (headWord t).length = [] ∨ (t.drop (headWord t).length).head? = some spaceCode := by
  induction t with
  | nil => exact .inl rfl
  | cons c cs ih =>
    by_cases h : c = spaceCode
    · subst h
      rw [headWord_space]
      exact .inr rfl
    · rw [headWord_char h]
      exact ih

theorem headWord_ne_nil {t : List Byte} (h : t ≠ []) (hhead : t.head? ≠ some spaceCode) :
    headWord t ≠ [] := by
  cases t with
  | nil => exact absurd rfl h
  | cons c cs =>
    rw [headWord_char fun hc => hhead (congrArg some hc)]
    exact List.cons_ne_nil _ _

/-- The words of a text that begins with a word. -/
theorem wordsOf_headWord {t : List Byte} (h : t ≠ []) (hhead : t.head? ≠ some spaceCode) :
    wordsOf t = headWord t :: wordsOf (t.drop (headWord t).length) := by
  nth_rw 1 [← headWord_append_rest t]
  exact wordsOf_append (headWord_ne_nil h hhead) (fun c hc => headWord_plain hc) (rest_of_headWord t)

/-- The next word of a text: none where no words are left. -/
theorem wordsOf_next (t : List Byte) :
    headWord (fromWord t) = [] ∧ wordsOf t = [] ∨
      headWord (fromWord t) ≠ [] ∧ wordsOf t = headWord (fromWord t) ::
        wordsOf ((fromWord t).drop (headWord (fromWord t)).length) := by
  by_cases h : fromWord t = []
  · exact .inl ⟨by rw [h]; rfl, (fromWord_eq_nil t).mp h⟩
  · refine .inr ⟨headWord_ne_nil h (head_fromWord t), ?_⟩
    rw [← wordsOf_fromWord, ← wordsOf_headWord h (head_fromWord t)]

/-- A part of a word, cut off its rest. -/
theorem wordsOf_cut {t : List Byte} {n : Nat} (hn : n < (headWord t).length) :
    wordsOf (t.drop n) = (headWord t).drop n :: wordsOf (t.drop (headWord t).length) := by
  have hsplit : t.drop n = (headWord t).drop n ++ t.drop (headWord t).length := by
    nth_rw 1 [← headWord_append_rest t]
    exact List.drop_append_of_le_length hn.le
  rw [hsplit]
  refine wordsOf_append (fun h => ?_) (fun c hc => headWord_plain (List.mem_of_mem_drop hc))
    (rest_of_headWord t)
  exact absurd (List.drop_eq_nil_iff.mp h) (by omega)

/-! ### Words joined to a line (R130) -/

theorem filter_plain {w : List Byte} (h : ∀ c ∈ w, c ≠ spaceCode) :
    w.filter (fun c => c ≠ spaceCode) = w :=
  List.filter_eq_self.mpr fun c hc => decide_eq_true (h c hc)

theorem filter_joinWords {ws : List (List Byte)} (h : ∀ w ∈ ws, ∀ c ∈ w, c ≠ spaceCode) :
    (joinWords ws).filter (fun c => c ≠ spaceCode) = ws.flatten := by
  induction ws with
  | nil => rfl
  | cons w ws ih =>
    have hw := filter_plain (h w List.mem_cons_self)
    have hws := ih fun x hx => h x (List.mem_cons_of_mem w hx)
    cases ws with
    | nil => exact hw.trans (List.flatten_singleton).symm
    | cons x xs =>
      refine (List.filter_append _ _).trans ?_
      rw [hw, List.filter_cons_of_neg (by simp), hws]
      rfl

theorem joinWords_ne_nil {w : List Byte} (h : w ≠ []) (ws : List (List Byte)) :
    joinWords (w :: ws) ≠ [] := by
  cases ws with
  | nil => exact h
  | cons x xs => exact List.append_ne_nil_of_left_ne_nil h _

theorem SetWith.width_append (k : SetWith) (a b : List Byte) :
    k.width (a ++ b) = k.width a + k.width b := by
  rw [width, List.map_append, List.sum_append]
  rfl

end Sys2Proof.Machine
end

section
/-! SUPPORT. One line set from a text: its words are taken greedily or its one word is cut, and it is classed and spaced (R127 to R131). -/

namespace Sys2Proof.Machine

/-! ### The fit status (R131) -/

theorem fitStatusAgainstTheBudget : Clause.FitStatusAgainstTheBudget := by
  rintro x n d b rfl rfl
  have hstatus : fitStatusOf x n = if x.budget = 0 then .none
      else if 2 * x.budget < n * x.leading then .over
      else if 2 * x.leading ≤ 2 * x.budget - n * x.leading then .short else .on := by
    rw [Nat.mul_comm 2 x.budget]
    rfl
  rw [hstatus]
  generalize n * x.leading = d
  split
  · next h0 => simp [h0]
  split
  · simp
    omega
  split
  · simp
    omega
  · simp
    omega

/-! ### The highest of a list -/

theorem foldl_max_le_iff {l : List Nat} {a b : Nat} :
    l.foldl max a ≤ b ↔ a ≤ b ∧ ∀ x ∈ l, x ≤ b := by
  induction l generalizing a with
  | nil => simp
  | cons x xs ih => rw [List.foldl_cons, ih, Nat.max_le, List.forall_mem_cons, and_assoc]

theorem foldl_max_mem (l : List Nat) (a : Nat) : l.foldl max a = a ∨ l.foldl max a ∈ l := by
  induction l generalizing a with
  | nil => exact .inl rfl
  | cons x xs ih =>
    rw [List.foldl_cons]
    rcases ih (max a x) with h | h
    · rw [h]
      rcases Nat.le_total a x with hle | hle
      · exact .inr (by rw [Nat.max_eq_right hle]; exact List.mem_cons_self)
      · exact .inl (Nat.max_eq_left hle)
    · exact .inr (List.mem_cons_of_mem x h)

/-! ### Greedy filling (R127) -/

/-- A line that words of a text are taken into: x holds the words taken, their width, and the text behind them. -/
structure Filling (k : SetWith) (avail : Nat) (text : List Byte)
    (x : List (List Byte) × Nat × List Byte) : Prop where
  words : wordsOf text = x.1 ++ wordsOf x.2.2
  taken : x.1 ≠ []
  width : x.2.1 = k.width x.1.flatten
  fits : x.2.1 + (x.1.length - 1) * k.minSpace * k.setting.size ≤ avail
  suffix : x.2.2 <:+ text

/-- No further word fits a line with the minimum gaps (R127). -/
def NoMoreFits (k : SetWith) (avail : Nat) (x : List (List Byte) × Nat × List Byte) : Prop :=
  ∀ next others, wordsOf x.2.2 = next :: others →
    avail < x.2.1 + k.width next + x.1.length * k.minSpace * k.setting.size

theorem fillLine_fills {k : SetWith} {avail : Nat} {text : List Byte} {n : Nat}
    {words : List (List Byte)} {width : Nat} {rest : List Byte}
    (h : Filling k avail text (words, width, rest)) (hn : rest.length ≤ n) :
    Filling k avail text (fillLine k avail n words width rest) ∧
      NoMoreFits k avail (fillLine k avail n words width rest) := by
  induction n generalizing words width rest with
  | zero =>
    have hnil : rest = [] := List.eq_nil_of_length_eq_zero (Nat.le_zero.mp hn)
    subst hnil
    exact ⟨h, fun next others heq => nomatch heq⟩
  | succ n ih =>
    rw [fillLine]
    rcases wordsOf_next rest with ⟨hnil, hnone⟩ | ⟨hne, hnext⟩
    · rw [if_pos hnil]
      exact ⟨h, fun next others heq => by rw [hnone] at heq; cases heq⟩
    rw [if_neg hne]
    generalize headWord (fromWord rest) = next at *
    split
    · next hfit =>
      have hpos : 1 ≤ next.length := List.length_pos_iff.mpr hne
      have hle := (fromWord_suffix rest).length_le
      have hlen : words.length - 1 + 1 = words.length :=
        Nat.sub_add_cancel (List.length_pos_iff.mpr h.taken)
      refine ih ⟨?_, by simp, ?_, ?_, ?_⟩ (by rw [List.length_drop]; omega)
      · rw [h.words, hnext, List.append_assoc]
        rfl
      · show width + k.width next = k.width (words ++ [next]).flatten
        rw [show width = k.width words.flatten from h.width, List.flatten_append,
          k.width_append, List.flatten_singleton]
      · rw [List.length_append, List.length_singleton, Nat.add_sub_cancel]
        exact hfit
      · exact ((List.drop_suffix _ _).trans (fromWord_suffix rest)).trans h.suffix
    · next hfull =>
      refine ⟨h, fun next' others heq => ?_⟩
      rw [hnext] at heq
      cases heq
      exact Nat.lt_of_not_le hfull

/-- The line filled from a text that begins with a word. -/
def filledLine (k : SetWith) (first : Bool) (text : List Byte) : List (List Byte) × Nat × List Byte :=
  fillLine k (k.available first) text.length [headWord text] (k.width (headWord text))
    (text.drop (headWord text).length)

theorem filledLine_fills {k : SetWith} {first : Bool} {text : List Byte} (hne : text ≠ [])
    (hhead : text.head? ≠ some spaceCode) (h : k.width (headWord text) ≤ k.available first) :
    Filling k (k.available first) text (filledLine k first text) ∧
      NoMoreFits k (k.available first) (filledLine k first text) :=
  fillLine_fills ⟨wordsOf_headWord hne hhead, List.cons_ne_nil _ _, by rw [List.flatten_singleton],
    by simpa using h, List.drop_suffix _ _⟩ (by rw [List.length_drop]; omega)

/-! ### Forced breaks (R128) -/

theorem SetWith.width_cons (k : SetWith) (c : Byte) (w : List Byte) :
    k.width (c :: w) = k.charWidth c + k.width w := rfl

theorem SetWith.width_take_le (k : SetWith) {m n : Nat} (h : m ≤ n) (w : List Byte) :
    k.width (w.take m) ≤ k.width (w.take n) := by
  obtain ⟨d, rfl⟩ := Nat.exists_eq_add_of_le h
  rw [List.take_add, k.width_append]
  exact Nat.le_add_right _ _

/-- The characters counted fit, and the next one would not. -/
theorem forcedCount_counts (k : SetWith) (avail sum : Nat) (w : List Byte) :
    forcedCount k avail sum w ≤ w.length ∧
      (sum ≤ avail → sum + k.width (w.take (forcedCount k avail sum w)) ≤ avail) ∧
      (forcedCount k avail sum w < w.length →
        avail < sum + k.width (w.take (forcedCount k avail sum w + 1))) := by
  induction w generalizing sum with
  | nil => exact ⟨Nat.le_refl _, id, fun h => absurd h (Nat.lt_irrefl _)⟩
  | cons c cs ih =>
    rw [forcedCount]
    split
    · next hfit =>
      obtain ⟨hle, hfits, hstops⟩ := ih (sum + k.charWidth c)
      generalize forcedCount k avail (sum + k.charWidth c) cs = n at *
      rw [Nat.add_comm 1 n, List.take_succ_cons, List.take_succ_cons, k.width_cons, k.width_cons,
        ← Nat.add_assoc, ← Nat.add_assoc]
      exact ⟨Nat.succ_le_succ hle, fun _ => hfits hfit, fun h => hstops (Nat.lt_of_succ_lt_succ h)⟩
    · next hfull =>
      exact ⟨Nat.zero_le _, id, fun _ => Nat.lt_of_not_le hfull⟩

/-- The characters a forced line takes of a word too wide for it: as many as fit, and at least one. -/
theorem forced_takes {k : SetWith} {avail : Nat} {word : List Byte} (h : avail < k.width word) {n : Nat}
    (hn : n = max 1 (forcedCount k avail 0 word)) :
    1 ≤ n ∧ n ≤ word.length ∧ (n = 1 ∨ k.width (word.take n) ≤ avail) ∧
      (n < word.length → avail < k.width (word.take (n + 1))) := by
  obtain ⟨hle, hfits, hstops⟩ := forcedCount_counts k avail 0 word
  rw [Nat.zero_add] at hfits hstops
  generalize forcedCount k avail 0 word = m at *
  have hshort : m < word.length := Nat.lt_of_le_of_ne hle fun heq => by
    have hall := hfits (Nat.zero_le _)
    rw [heq, List.take_length] at hall
    omega
  have hover := hstops hshort
  refine ⟨by omega, by omega, ?_, fun _ => Nat.lt_of_lt_of_le hover (k.width_take_le (by omega) word)⟩
  by_cases h1 : n = 1
  · exact .inl h1
  · have hm : n = m := by omega
    exact .inr (hm ▸ hfits (Nat.zero_le _))

/-! ### The gaps of a quad-left line (R130) -/

theorem quadSpace_normal {k : SetWith} {avail w g : Nat}
    (h : w + g * k.normalSpace * k.setting.size ≤ avail) : quadSpace k avail w g = k.normalSpace :=
  if_pos (decide_eq_true h)

/-- Where the normal space does not fit, the gap is the largest below it that does. -/
theorem quadSpace_below {k : SetWith} {avail w g : Nat}
    (hmin : w + g * k.minSpace * k.setting.size ≤ avail)
    (hover : avail < w + g * k.normalSpace * k.setting.size) :
    k.minSpace ≤ quadSpace k avail w g ∧ quadSpace k avail w g < k.normalSpace ∧
      w + g * quadSpace k avail w g * k.setting.size ≤ avail ∧
      ∀ y, quadSpace k avail w g < y → y < k.normalSpace → avail < w + g * y * k.setting.size := by
  have hlt : k.minSpace < k.normalSpace := Nat.lt_of_not_le fun hle => by
    have hmul := Nat.mul_le_mul_right k.setting.size (Nat.mul_le_mul_left g hle)
    omega
  have hquad : quadSpace k avail w g = ((List.range k.normalSpace).filter fun u =>
      k.minSpace ≤ u && decide (w + g * u * k.setting.size ≤ avail)).foldl max k.minSpace :=
    if_neg (by simpa using hover)
  have hmem : ∀ u, u ∈ ((List.range k.normalSpace).filter fun u =>
      k.minSpace ≤ u && decide (w + g * u * k.setting.size ≤ avail)) ↔
      u < k.normalSpace ∧ k.minSpace ≤ u ∧ w + g * u * k.setting.size ≤ avail := fun u => by
    simp
  have hbest := foldl_max_mem ((List.range k.normalSpace).filter fun u =>
      k.minSpace ≤ u && decide (w + g * u * k.setting.size ≤ avail)) k.minSpace
  obtain ⟨hge, hall⟩ := foldl_max_le_iff.mp hquad.symm.le
  rw [← hquad, hmem] at hbest
  generalize quadSpace k avail w g = x at *
  refine ⟨hge, ?_, ?_, fun y hxy hy => ?_⟩
  · rcases hbest with rfl | ⟨h, -, -⟩
    · exact hlt
    · exact h
  · rcases hbest with rfl | ⟨-, -, h⟩
    · exact hmin
    · exact h
  · refine Nat.lt_of_not_le fun hfit => ?_
    have hle := hall y ((hmem y).mpr ⟨hy, by omega, hfit⟩)
    omega

/-! ### One line (R127 to R130) -/

section
variable (k : SetWith) (para : Nat) (first : Bool) (text : List Byte)

theorem setLine_forced (h : k.available first < k.width (headWord text)) {n : Nat}
    (hn : n = max 1 (forcedCount k (k.available first) 0 (headWord text))) :
    setLine k para first text =
      (⟨para, first, (headWord text).take n, 0, .quadLeft, none, false, true⟩,
        fromWord (text.drop n)) := by
  subst hn
  exact if_pos h

section
variable (h : k.width (headWord text) ≤ k.available first)
include h

theorem setLine_last (hrest : fromWord (filledLine k first text).2.2 = []) :
    setLine k para first text =
      (⟨para, first, joinWords (filledLine k first text).1, (filledLine k first text).1.length - 1,
        .quadLeft, if (filledLine k first text).1.length - 1 = 0 then none
          else some (quadSpace k (k.available first) (filledLine k first text).2.1
            ((filledLine k first text).1.length - 1)), false, false⟩, []) :=
  (if_neg (Nat.not_lt.mpr h)).trans (if_pos hrest)

theorem setLine_single (hrest : fromWord (filledLine k first text).2.2 ≠ [])
    (hg : (filledLine k first text).1.length - 1 = 0) :
    setLine k para first text =
      (⟨para, first, joinWords (filledLine k first text).1, 0, .quadLeft, none, true, false⟩,
        fromWord (filledLine k first text).2.2) :=
  (if_neg (Nat.not_lt.mpr h)).trans ((if_neg hrest).trans (if_pos hg))

theorem setLine_justified (hrest : fromWord (filledLine k first text).2.2 ≠ [])
    (hg : (filledLine k first text).1.length - 1 ≠ 0) :
    setLine k para first text =
      (⟨para, first, joinWords (filledLine k first text).1, (filledLine k first text).1.length - 1,
        .justified, none, decide (((filledLine k first text).1.length - 1) * k.maxSpace *
          k.setting.size < k.available first - (filledLine k first text).2.1), false⟩,
        fromWord (filledLine k first text).2.2) :=
  (if_neg (Nat.not_lt.mpr h)).trans ((if_neg hrest).trans (if_neg hg))

/-- What all lines that are not forced have in common. -/
theorem setLine_free : (setLine k para first text).2 = fromWord (filledLine k first text).2.2 ∧
    (setLine k para first text).1.chars = joinWords (filledLine k first text).1 ∧
    (setLine k para first text).1.gaps = (filledLine k first text).1.length - 1 ∧
    (setLine k para first text).1.forced = false ∧
    (setLine k para first text).1.para = para ∧ (setLine k para first text).1.first = first := by
  by_cases hrest : fromWord (filledLine k first text).2.2 = []
  · rw [setLine_last k para first text h hrest, hrest]
    exact ⟨rfl, rfl, rfl, rfl, rfl, rfl⟩
  by_cases hg : (filledLine k first text).1.length - 1 = 0
  · rw [setLine_single k para first text h hrest hg, hg]
    exact ⟨rfl, rfl, rfl, rfl, rfl, rfl⟩
  · rw [setLine_justified k para first text h hrest hg]
    exact ⟨rfl, rfl, rfl, rfl, rfl, rfl⟩

/-- The class of a line that is not forced, by what it leaves and by its gaps (R129, R130). -/
theorem setLine_free_class :
    ((setLine k para first text).2 = [] →
      (setLine k para first text).1.cls = .quadLeft ∧
      (setLine k para first text).1.loose = false ∧
      (setLine k para first text).1.space = if (setLine k para first text).1.gaps = 0 then none
        else some (quadSpace k (k.available first) (filledLine k first text).2.1
          (setLine k para first text).1.gaps)) ∧
    ((setLine k para first text).2 ≠ [] → (setLine k para first text).1.gaps = 0 →
      (setLine k para first text).1.cls = .quadLeft ∧
      (setLine k para first text).1.loose = true ∧
      (setLine k para first text).1.space = none) ∧
    ((setLine k para first text).2 ≠ [] → (setLine k para first text).1.gaps ≠ 0 →
      (setLine k para first text).1.cls = .justified ∧
      (setLine k para first text).1.loose = decide ((setLine k para first text).1.gaps *
        k.maxSpace * k.setting.size < k.available first - (filledLine k first text).2.1) ∧
      (setLine k para first text).1.space = none) := by
  obtain ⟨hleft, -, hgaps, -⟩ := setLine_free k para first text h
  rw [hleft, hgaps]
  refine ⟨fun hrest => ?_, fun hrest hg => ?_, fun hrest hg => ?_⟩
  · rw [setLine_last k para first text h hrest]
    exact ⟨rfl, rfl, rfl⟩
  · rw [setLine_single k para first text h hrest hg]
    exact ⟨rfl, rfl, rfl⟩
  · rw [setLine_justified k para first text h hrest hg]
    exact ⟨rfl, rfl, rfl⟩

end

/-- A line carries its paragraph's number and its mark as the first. -/
theorem setLine_marks : (setLine k para first text).1.para = para ∧
    (setLine k para first text).1.first = first := by
  by_cases hforced : k.available first < k.width (headWord text)
  · rw [setLine_forced k para first text hforced rfl]
    exact ⟨rfl, rfl⟩
  · obtain ⟨-, -, -, -, hmarks⟩ := setLine_free k para first text (Nat.le_of_not_lt hforced)
    exact hmarks

/-- What a line leaves is the text from a word on. -/
theorem setLine_rest (hne : text ≠ []) (hhead : text.head? ≠ some spaceCode) :
    (setLine k para first text).2 <:+ text ∧
      (setLine k para first text).2.head? ≠ some spaceCode := by
  by_cases hforced : k.available first < k.width (headWord text)
  · rw [setLine_forced k para first text hforced rfl]
    exact ⟨(fromWord_suffix _).trans (List.drop_suffix _ _), head_fromWord _⟩
  · have h := Nat.le_of_not_lt hforced
    obtain ⟨hrest, -⟩ := setLine_free k para first text h
    obtain ⟨hfill, -⟩ := filledLine_fills hne hhead h
    rw [hrest]
    exact ⟨(fromWord_suffix _).trans hfill.suffix, head_fromWord _⟩

end

/-! ### What a line takes (R127, R128) -/

section
variable {k : SetWith} {para : Nat} {first : Bool} {text : List Byte}
  (hne : text ≠ []) (hhead : text.head? ≠ some spaceCode)
include hne hhead

/-- A line that is not forced takes words that fit with the minimum gaps, and leaves the others. -/
theorem setLine_free_words (h : k.width (headWord text) ≤ k.available first) :
    ∃ words, wordsOf text = words ++ wordsOf (setLine k para first text).2 ∧
      (setLine k para first text).1.chars = joinWords words ∧
      words.length = (setLine k para first text).1.gaps + 1 ∧
      (filledLine k first text).2.1 =
        k.width ((setLine k para first text).1.chars.filter fun c => c ≠ spaceCode) ∧
      (filledLine k first text).2.1 + (setLine k para first text).1.gaps * k.minSpace *
        k.setting.size ≤ k.available first := by
  obtain ⟨hfill, -⟩ := filledLine_fills hne hhead h
  obtain ⟨hrest, hchars, hgaps, -, -⟩ := setLine_free k para first text h
  have hpos := List.length_pos_iff.mpr hfill.taken
  have hplain : ∀ w ∈ (filledLine k first text).1, ∀ c ∈ w, c ≠ spaceCode := fun w hw c hc =>
    char_ne_space_of_wordsOf (t := text) (by rw [hfill.words]; exact List.mem_append_left _ hw) hc
  rw [hrest, hchars, hgaps, wordsOf_fromWord, filter_joinWords hplain]
  exact ⟨_, hfill.words, rfl, by omega, hfill.width, hfill.fits⟩

end

/-- A forced line takes the beginning of its word, and leaves the rest of it. -/
theorem wordsOf_left_of_headWord {text : List Byte} {n : Nat} (hn : n ≤ (headWord text).length) :
    wordsOf (fromWord (text.drop n)) =
      if n = (headWord text).length then wordsOf (text.drop (headWord text).length)
      else (headWord text).drop n :: wordsOf (text.drop (headWord text).length) := by
  rw [wordsOf_fromWord]
  split
  · next heq => rw [heq]
  · next hlt => exact wordsOf_cut (by omega)

theorem linesAreGreedyAndClassed : Clause.LinesAreGreedyAndClassed := by
  intro k para A W first text r rest word more hhead hwords hline hA hW
  subst hA
  have hne : text ≠ [] := fun hnil => by rw [hnil] at hwords; cases hwords
  obtain ⟨hword, hmore⟩ := List.cons.inj (hwords.symm.trans (wordsOf_headWord hne hhead))
  subst hword hmore
  obtain ⟨hpara, hfirst⟩ := setLine_marks k para first text
  rw [hline] at hpara hfirst
  refine ⟨hpara, hfirst, fun hfits => ?_, fun hwide => ?_⟩
  · obtain ⟨words, hsplit, hchars, hlen, hwidth, hmin⟩ :=
      setLine_free_words (para := para) hne hhead hfits
    obtain ⟨hleft, -, hgaps, hforced, -⟩ := setLine_free k para first text hfits
    obtain ⟨hfill, hfull⟩ := filledLine_fills hne hhead hfits
    obtain ⟨hlast, hsingle, hjust⟩ := setLine_free_class k para first text hfits
    have htaken := List.length_pos_iff.mpr hfill.taken
    unfold NoMoreFits at hfull
    rw [hline] at hsplit hchars hlen hwidth hmin hleft hgaps hforced hlast hsingle hjust
    dsimp only at hsplit hchars hlen hwidth hmin hleft hgaps hforced hlast hsingle hjust
    rw [hwidth.trans hW.symm] at hfull hmin hlast hjust
    rw [← wordsOf_fromWord, ← hleft] at hfull
    have hcount : (filledLine k first text).1.length = r.gaps + 1 := by omega
    rw [hcount] at hfull
    refine ⟨hforced, ⟨words, hsplit, hchars, hlen⟩, hfull, fun hend => ?_, fun hmore hg => ?_,
      fun hmore hg => ?_, fun hg => ?_, fun hend hg => ?_⟩
    · obtain ⟨hcls, hloose, -⟩ := hlast hend
      exact ⟨hcls, hloose⟩
    · obtain ⟨hcls, hloose, -⟩ := hsingle hmore hg
      exact ⟨hcls, hloose⟩
    · obtain ⟨hcls, hloose, hspace⟩ := hjust hmore hg
      exact ⟨hcls, hspace, by rw [hloose, decide_eq_true_iff]⟩
    · by_cases hend : rest = []
      · obtain ⟨-, -, hspace⟩ := hlast hend
        exact hspace.trans (if_pos hg)
      · obtain ⟨-, -, hspace⟩ := hsingle hend hg
        exact hspace
    · obtain ⟨-, -, hspace⟩ := hlast hend
      exact ⟨_, hspace.trans (if_neg hg), quadSpace_normal, quadSpace_below hmin⟩
  · obtain ⟨h1, hn, hfits, hstops⟩ := forced_takes hwide rfl
    rw [setLine_forced k para first text hwide rfl] at hline
    generalize max 1 (forcedCount k (k.available first) 0 (headWord text)) = n at *
    cases hline
    have hplain : ((headWord text).take n).filter (fun c => c ≠ spaceCode) = (headWord text).take n :=
      filter_plain fun c hc => headWord_plain (List.mem_of_mem_take hc)
    exact ⟨rfl, rfl, rfl, rfl, rfl, n, h1, hn, rfl,
      hfits.imp_right fun h => (hW.trans (congrArg k.width hplain)).trans_le h, hstops,
      wordsOf_left_of_headWord hn⟩

/-- A line and what it leaves hold the characters of the text that are not spaces, in order; the line holds one at least. -/
theorem setLine_plain {k : SetWith} {para : Nat} {first : Bool} {text : List Byte} {r : LineRec}
    {rest : List Byte} (hne : text ≠ []) (hhead : text.head? ≠ some spaceCode)
    (hline : setLine k para first text = (r, rest)) :
    (r.chars.filter fun c => c ≠ spaceCode) ++ (rest.filter fun c => c ≠ spaceCode) =
      text.filter (fun c => c ≠ spaceCode) ∧ (r.chars.filter fun c => c ≠ spaceCode) ≠ [] := by
  have hwords := wordsOf_headWord hne hhead
  have hword := headWord_ne_nil hne hhead
  obtain ⟨-, -, hfree, hcut⟩ :=
    linesAreGreedyAndClassed k para _ _ first text r rest _ _ hhead hwords hline rfl rfl
  rw [← flatten_wordsOf rest, ← flatten_wordsOf text]
  rcases Nat.lt_or_ge (k.available first) (k.width (headWord text)) with hwide | hfits
  · obtain ⟨-, -, -, -, -, n, h1, hn, hchars, -, -, hrest⟩ := hcut hwide
    rw [hchars, filter_plain fun c hc => headWord_plain (List.mem_of_mem_take hc), hrest, hwords]
    refine ⟨?_, fun hnil => ?_⟩
    · split
      · next hall => rw [hall, List.take_length]; rfl
      · rw [List.flatten_cons, ← List.append_assoc, List.take_append_drop]; rfl
    · rcases List.take_eq_nil_iff.mp hnil with h0 | hempty
      · omega
      · exact hword hempty
  · obtain ⟨-, ⟨words, hsplit, hchars, hlen⟩, -⟩ := hfree hfits
    rw [hchars, filter_joinWords fun w hw c hc =>
      char_ne_space_of_wordsOf (t := text) (by rw [hsplit]; exact List.mem_append_left _ hw) hc,
      hsplit, List.flatten_append]
    refine ⟨rfl, fun hnil => ?_⟩
    cases words with
    | nil => cases hlen
    | cons w ws =>
      obtain ⟨heq, -⟩ := List.cons.inj (hwords.symm.trans hsplit)
      exact hword (heq.trans (List.append_eq_nil_iff.mp hnil).1)

theorem linesFitTheirMeasure : Clause.LinesFitTheirMeasure := by
  intro k para first text r rest hne hhead hline
  obtain ⟨hsuffix, hbegins⟩ := setLine_rest k para first text hne hhead
  obtain ⟨hplain, hsome⟩ := setLine_plain hne hhead hline
  obtain ⟨-, -, hfree, hcut⟩ := linesAreGreedyAndClassed k para _ _ first text r rest _ _ hhead
    (wordsOf_headWord hne hhead) hline rfl rfl
  rw [hline] at hsuffix hbegins
  dsimp only at hsuffix hbegins
  have hshorter : rest.length < text.length :=
    Nat.lt_of_le_of_ne hsuffix.length_le fun heq => by
      rw [hsuffix.eq_of_length heq] at hplain
      exact hsome (List.append_left_eq_self.mp hplain)
  refine ⟨hshorter, hbegins, fun hnil => hsome (by rw [hnil]; rfl), hplain, ?_⟩
  rcases Nat.lt_or_ge (k.available first) (k.width (headWord text)) with hwide | hfits
  · obtain ⟨hforced, -, hcls, hgaps, -⟩ := hcut hwide
    exact ⟨iff_of_true hforced hwide, fun h => (nomatch hforced.symm.trans h),
      fun _ => ⟨hcls, hgaps⟩, fun h => (nomatch hcls.symm.trans h)⟩
  · obtain ⟨hforced, -, -, hlast, hsingle, hjust, -⟩ := hfree hfits
    obtain ⟨-, -, -, -, hwidth, hmin⟩ := setLine_free_words (para := para) hne hhead hfits
    rw [hwidth, hline] at hmin
    refine ⟨iff_of_false (fun h => nomatch hforced.symm.trans h) (Nat.not_lt.mpr hfits),
      fun _ => hmin, fun h => (nomatch hforced.symm.trans h), fun hcls => ?_⟩
    have hmore : rest ≠ [] := fun hend => nomatch (hlast hend).1.symm.trans hcls
    have hg : r.gaps ≠ 0 := fun hg => nomatch (hsingle hmore hg).1.symm.trans hcls
    obtain ⟨-, hspace, -⟩ := hjust hmore hg
    exact ⟨hmore, Nat.pos_of_ne_zero hg, hspace⟩

end Sys2Proof.Machine
end

section
/-! SUPPORT. One grant's work on a story: lines of one paragraph, one after another, and where the next grant goes on (R126, R132). -/

namespace Sys2Proof.Machine

/-! ### Lines one after another (R132) -/

theorem setLines_linesFrom (k : SetWith) (para n : Nat) (first : Bool) (text : List Byte) :
    LinesFrom k para first text (setLines k para n first text).1 (setLines k para n first text).2 := by
  induction n generalizing first text with
  | zero => rfl
  | succ n ih =>
    cases text with
    | nil => rfl
    | cons c cs => exact ⟨List.cons_ne_nil c cs, rfl, ih _ _⟩

/-- What the lines leave is the text from a word on; it is nothing unless the lines ran out. -/
theorem setLines_left (k : SetWith) (para n : Nat) (first : Bool) {text : List Byte}
    (hhead : text.head? ≠ some spaceCode) :
    (setLines k para n first text).2 <:+ text ∧
      (setLines k para n first text).2.head? ≠ some spaceCode ∧
      ((setLines k para n first text).2 ≠ [] → (setLines k para n first text).1.length = n) := by
  induction n generalizing first text with
  | zero => exact ⟨List.suffix_refl _, hhead, fun _ => rfl⟩
  | succ n ih =>
    cases text with
    | nil => exact ⟨List.suffix_refl _, hhead, fun h => absurd rfl h⟩
    | cons c cs =>
      obtain ⟨hrest, hbegins⟩ := setLine_rest k para first (c :: cs) (List.cons_ne_nil c cs) hhead
      obtain ⟨hsuffix, hleft, hfull⟩ := ih false hbegins
      exact ⟨hsuffix.trans hrest, hleft, fun h => congrArg Nat.succ (hfull h)⟩

/-- The lines are of one paragraph, and only the first of them can be the paragraph's first. -/
theorem LinesFrom.marks {k : SetWith} {para : Nat} {first : Bool} {text left : List Byte}
    {lines : List LineRec} (h : LinesFrom k para first text lines left) {i : Nat} {x : LineRec}
    (hx : lines[i]? = some x) : x.para = para ∧ x.first = (decide (i = 0) && first) := by
  induction lines generalizing first text i with
  | nil => cases hx
  | cons r rs ih =>
    obtain ⟨-, hr, hrs⟩ := h
    cases i with
    | zero =>
      cases hx
      rw [← hr]
      exact setLine_marks k para first text
    | succ i =>
      obtain ⟨hpara, hfirst⟩ := ih hrs hx
      exact ⟨hpara, hfirst.trans (Bool.and_false _)⟩

/-! ### Where a paragraph's work goes on (R125, R132) -/

/-- The end of a paragraph's text, where it is cut off, is the paragraph's text from there. -/
theorem paragraphText_drop {t left : List Byte} (h : left <:+ paragraphText t) :
    paragraphText (t.drop ((paragraphText t).length - left.length)) = left := by
  obtain ⟨pre, hpre⟩ := h
  have hlen : (paragraphText t).length - left.length = pre.length := by
    rw [← hpre, List.length_append, Nat.add_sub_cancel]
  have hprefix : pre <+: t :=
    (hpre ▸ List.prefix_append pre left : pre <+: paragraphText t).trans (List.takeWhile_prefix _)
  have hmarks : ∀ c ∈ pre, decide (c ≠ markCode) = true := fun c hc => by
    have hmem : c ∈ paragraphText t := hpre ▸ List.mem_append_left left hc
    exact List.mem_takeWhile_imp (p := fun c => decide (c ≠ markCode)) hmem
  have hsplit := List.prefix_iff_eq_append.mp hprefix
  have htext : paragraphText t = pre ++ paragraphText (t.drop pre.length) := by
    nth_rw 1 [← hsplit]
    exact List.takeWhile_append_of_pos hmarks
  rw [hlen]
  exact (List.append_cancel_left (hpre.trans htext)).symm

/-- Where the work goes on at a paragraph's end: at the next paragraph, if the text has one. -/
def nextParagraph (text : List Byte) (r : Resume) : Option Resume :=
  if r.offset + (paragraphText (text.drop r.offset)).length + 1 < text.length then
    some ⟨r.para + 1, r.offset + (paragraphText (text.drop r.offset)).length + 1, true⟩
  else none

section
variable (k : SetWith) {text : List Byte} (r : Resume)

theorem grantWork_past (h : text.length ≤ r.offset) : grantWork k text r = ([], none) :=
  if_pos (List.drop_of_length_le h)

section
variable (h : r.offset < text.length)
include h

theorem grantWork_empty (hnone : wordsOf (paragraphText (text.drop r.offset)) = []) :
    grantWork k text r = (if r.first then [emptyLine r.para] else [], nextParagraph text r) :=
  (if_neg (by simpa using h)).trans (if_pos ((fromWord_eq_nil _).mpr hnone))

theorem grantWork_words (hwords : wordsOf (paragraphText (text.drop r.offset)) ≠ [])
    {l : List LineRec × List Byte}
    (hl : l = setLines k r.para 64 r.first (fromWord (paragraphText (text.drop r.offset)))) :
    grantWork k text r = (l.1, if l.2 = [] then nextParagraph text r
      else some ⟨r.para,
        r.offset + ((paragraphText (text.drop r.offset)).length - l.2.length), false⟩) := by
  have hbody : fromWord (paragraphText (text.drop r.offset)) ≠ [] := fun hnil =>
    hwords ((fromWord_eq_nil _).mp hnil)
  refine (if_neg (by simpa using h)).trans ((if_neg hbody).trans ?_)
  subst hl
  by_cases hleft : (setLines k r.para 64 r.first
      (fromWord (paragraphText (text.drop r.offset)))).2 = []
  · rw [if_pos hleft]
    exact if_pos hleft
  · rw [if_neg hleft]
    exact if_neg hleft

end
end

/-- The records of a grant are of one paragraph, and only the first of them can be the paragraph's first. -/
theorem grantWork_marks (k : SetWith) (text : List Byte) (r : Resume) {i : Nat} {x : LineRec}
    (hx : (grantWork k text r).1[i]? = some x) :
    x.para = r.para ∧ x.first = (decide (i = 0) && r.first) := by
  rcases Nat.lt_or_ge r.offset text.length with h | h
  · by_cases hwords : wordsOf (paragraphText (text.drop r.offset)) = []
    · rw [grantWork_empty k r h hwords] at hx
      cases hfirst : r.first with
      | false => rw [hfirst] at hx; cases hx
      | true =>
        rw [hfirst] at hx
        cases i with
        | zero => cases hx; exact ⟨rfl, rfl⟩
        | succ i => cases hx
    · rw [grantWork_words k r h hwords rfl] at hx
      exact (setLines_linesFrom k r.para 64 r.first _).marks hx
  · rw [grantWork_past k r h] at hx
    cases hx

theorem grantsSetAParagraphOrSixtyFourLines : Clause.GrantsSetAParagraphOrSixtyFourLines := by
  intro k text r w par next hw hpar hnext
  subst hw
  have hpar' : par = paragraphText (text.drop r.offset) := hpar
  have hnext' : next = nextParagraph text r := by rw [hnext, hpar']; rfl
  clear hpar hnext
  subst hpar' hnext'
  refine ⟨length_grantWork_le k text r, grantWork_past k r, fun h hnone => ?_, fun h hwords => ?_,
    fun i x hx => grantWork_marks k text r hx⟩
  · rw [grantWork_empty k r h hnone]
    exact ⟨rfl, rfl⟩
  · have hfrom := setLines_linesFrom k r.para 64 r.first
      (fromWord (paragraphText (text.drop r.offset)))
    obtain ⟨hsuffix, hbegins, hfull⟩ := setLines_left k r.para 64 r.first
      (head_fromWord (paragraphText (text.drop r.offset)))
    rw [grantWork_words k r h hwords rfl]
    have hleft := hsuffix.trans (fromWord_suffix _)
    have hbody := fromWord_eq_dropWhile (paragraphText (text.drop r.offset))
    generalize setLines k r.para 64 r.first _ = l at *
    refine ⟨l.2, hbody ▸ hfrom, fun hend => if_pos hend,
      fun hmore => ⟨hfull hmore, _, if_neg hmore, ?_, ?_, ?_⟩⟩
    · rw [← List.drop_drop]
      exact paragraphText_drop hleft
    · exact (fromWord_eq_dropWhile l.2).symm.trans (fromWord_of_head hbegins)
    · have hle := hleft.length_le
      omega

/-- Settles O45: a line's words are those greedy filling leaves (fillLine_fills), and a grant's lines are set one after another (setLines_linesFrom) to the paragraph's end or the 64th. -/
theorem linesAndFitStatus : Obligations.LinesAndFitStatus :=
  ⟨fitStatusAgainstTheBudget, linesFitTheirMeasure, linesAreGreedyAndClassed,
    grantsSetAParagraphOrSixtyFourLines⟩

end Sys2Proof.Machine
end

section
/-! SUPPORT. The Engine Arbiter: when a client requests the engine and at which level, the choice by turn or rank, and the grant (R136, R146, R148, R149). -/

namespace Sys2Proof.Machine

/-! ### Requests and levels (R146, R136, R149) -/

theorem requesting_fit (s : State) : requesting s .fit = true ↔
    s.fit.list ≠ [] ∧ ∀ p, s.fit.progress = some p → p.inFlight = false := by
  unfold requesting fitInFlight
  cases hp : s.fit.progress with
  | none => simp
  | some p => simp

theorem requesting_channel (s : State) (c : Fin 4) : requesting s (.channel c) = true ↔
    s.channels[c].state = .running ∧ s.channels[c].pos ≠ .complete ∧ s.channels[c].grant = .none ∧
      s.channels[c].lines.length + 64 ≤ 128 := by
  unfold requesting Config.grantLines Config.linesMax
  simp only [Bool.and_eq_true, decide_eq_true_iff]
  tauto

theorem promoted_idle {s : State} {c : Fin 4} (h : s.channels[c].jobs = []) : promoted s c = false := by
  unfold promoted Channel.current
  rw [h]
  rfl

theorem promoted_noEdition {s : State} {c : Fin 4} {j : Job} {js : List Job}
    (h : s.channels[c].jobs = j :: js) (he : j.edition.val = 0) : promoted s c = false := by
  unfold promoted Channel.current
  rw [h]
  dsimp only [List.head?_cons]
  rw [editionOf_zero he]

theorem promoted_edition {s : State} {c e : Fin 4} {j : Job} {js : List Job}
    (h : s.channels[c].jobs = j :: js) (he : j.edition.val = e.val + 1) :
    promoted s c = decide (s.editions[e].state = .passed) := by
  unfold promoted Channel.current
  rw [h]
  dsimp only [List.head?_cons]
  rw [editionOf_succ he]

theorem effectiveLevel_channel (s : State) (c : Fin 4) : effectiveLevel s (.channel c) =
    if promoted s c then 3 else s.engine.levels[c.val] := rfl

theorem clientsRequestAndRank : Clause.ClientsRequestAndRank := by
  refine fun s => ⟨requesting_fit s, rfl, fun c => ⟨requesting_channel s c, ?_, ?_⟩⟩
  · intro j js e hjobs he
    rw [effectiveLevel_channel, promoted_edition hjobs he]
    exact if_congr decide_eq_true_iff rfl rfl
  · intro hjobs
    have hnot : promoted s c = false := by
      rcases hjobs with hjobs | ⟨j, js, hjobs, hnone⟩
      · exact promoted_idle hjobs
      · exact promoted_noEdition hjobs hnone
    rw [effectiveLevel_channel, hnot]
    rfl

/-! ### The choice (R149) -/

/-- How many turns after the one behind the last granted client a client has its turn. -/
def turnAfter (last k : Client) : Nat := (k.code + 4 - last.code) % 5

theorem clientsAfter_inTurn (last : Client) :
    (clientsAfter last).Pairwise fun a b => turnAfter last a < turnAfter last b := by
  cases last with
  | channel c => revert c; decide
  | fit => decide

theorem mem_clientsAfter (last k : Client) : k ∈ clientsAfter last := by
  have hchannel : ∀ c d : Fin 4, Client.channel d ∈ clientsAfter (.channel c) ∧
      Client.channel d ∈ clientsAfter .fit ∧ Client.fit ∈ clientsAfter (.channel c) := by decide
  cases last with
  | channel c =>
    cases k with
    | channel d => exact (hchannel c d).1
    | fit => exact (hchannel c 0).2.2
  | fit =>
    cases k with
    | channel d => exact (hchannel 0 d).2.1
    | fit => decide

/-- In a list in rising order the first that is asked for is the least of them. -/
theorem find?_eq_some_iff_least {α : Type} {l : List α} {f : α → Nat}
    (hl : l.Pairwise fun a b => f a < f b) {p : α → Bool} {k : α} :
    l.find? p = some k ↔ k ∈ l ∧ p k = true ∧ ∀ j ∈ l, p j = true → f k ≤ f j := by
  induction l with
  | nil => simp
  | cons x xs ih =>
    obtain ⟨hx, hxs⟩ := List.pairwise_cons.mp hl
    cases hp : p x with
    | true =>
      rw [List.find?_cons_of_pos hp, Option.some_inj]
      constructor
      · rintro rfl
        exact ⟨List.mem_cons_self, hp, List.forall_mem_cons.mpr
          ⟨fun _ => Nat.le_refl _, fun j hj _ => (hx j hj).le⟩⟩
      · rintro ⟨hk, -, hleast⟩
        refine ((List.mem_cons.mp hk).resolve_right fun hmem => ?_).symm
        have hlt := hx k hmem
        have hle := hleast x List.mem_cons_self hp
        omega
    | false =>
      have hnot : ¬ p x = true := by rw [hp]; exact Bool.false_ne_true
      rw [List.find?_cons_of_neg hnot, ih hxs]
      constructor
      · rintro ⟨hk, hpk, hleast⟩
        exact ⟨List.mem_cons_of_mem x hk, hpk, List.forall_mem_cons.mpr
          ⟨fun h => absurd h hnot, hleast⟩⟩
      · rintro ⟨hk, hpk, hleast⟩
        refine ⟨(List.mem_cons.mp hk).resolve_left fun h => hnot (h ▸ hpk), hpk, fun j hj =>
          hleast j (List.mem_cons_of_mem x hj)⟩

/-- The first client in turn of those that a test lets through. -/
theorem find?_clientsAfter {last k : Client} {p : Client → Bool} :
    (clientsAfter last).find? p = some k ↔
      p k = true ∧ ∀ j, p j = true → turnAfter last k ≤ turnAfter last j := by
  rw [find?_eq_some_iff_least (clientsAfter_inTurn last), and_iff_right (mem_clientsAfter last k)]
  exact and_congr_right fun _ => forall_congr' fun j => forall_prop_of_true (mem_clientsAfter last j)

theorem chooseClient_rotate {s : State} (h : s.engine.mode = .rotate) :
    chooseClient s = (clientsAfter s.engine.last).find? (requesting s) := by
  unfold chooseClient
  rw [h]
  exact List.head?_filter

/-- The highest effective level of a requesting client. -/
def topLevel (s : State) : Nat :=
  (((clientsAfter s.engine.last).filter (requesting s)).map (effectiveLevel s)).foldl max 0

theorem chooseClient_rank {s : State} (h : s.engine.mode = .rank) :
    chooseClient s = (clientsAfter s.engine.last).find? fun k =>
      decide (requesting s k = true ∧ effectiveLevel s k = topLevel s) := by
  unfold chooseClient
  rw [h]
  refine List.find?_filter.trans
    (congrArg (fun p => List.find? p (clientsAfter s.engine.last)) (funext fun k => ?_))
  exact decide_eq_decide.mpr (and_congr_right fun _ => decide_eq_true_iff)

/-- A requesting client has the top level exactly where no requesting client has a higher one. -/
theorem eq_topLevel_iff {s : State} {k : Client} (hk : requesting s k = true) :
    effectiveLevel s k = topLevel s ↔
      ∀ j, requesting s j = true → effectiveLevel s j ≤ effectiveLevel s k := by
  have hmem : ∀ j, requesting s j = true →
      j ∈ (clientsAfter s.engine.last).filter (requesting s) := fun j hj =>
    List.mem_filter.mpr ⟨mem_clientsAfter _ j, hj⟩
  have hle : ∀ j, requesting s j = true → effectiveLevel s j ≤ topLevel s := fun j hj =>
    (foldl_max_le_iff.mp (Nat.le_refl (topLevel s))).2 _ (List.mem_map_of_mem (hmem j hj))
  constructor
  · intro heq j hj
    rw [heq]
    exact hle j hj
  · intro hall
    refine Nat.le_antisymm (hle k hk) (foldl_max_le_iff.mpr ⟨Nat.zero_le _, fun n hn => ?_⟩)
    obtain ⟨j, hj, rfl⟩ := List.mem_map.mp hn
    exact hall j (List.mem_filter.mp hj).2

theorem arbiterChoosesByTurnOrRank : Clause.ArbiterChoosesByTurnOrRank := by
  intro s k
  show _ ↔ requesting s k = true ∧ ∀ j : Client, requesting s j = true →
    (s.engine.mode = .rank → effectiveLevel s j ≤ effectiveLevel s k) ∧
    ((s.engine.mode = .rank → effectiveLevel s j = effectiveLevel s k) →
      turnAfter s.engine.last k ≤ turnAfter s.engine.last j)
  cases hmode : s.engine.mode with
  | rotate =>
    rw [chooseClient_rotate hmode, find?_clientsAfter]
    simp
  | rank =>
    rw [chooseClient_rank hmode, find?_clientsAfter]
    simp only [decide_eq_true_iff, forall_const]
    constructor
    · rintro ⟨⟨hk, htop⟩, hfirst⟩
      have hall := (eq_topLevel_iff hk).mp htop
      exact ⟨hk, fun j hj => ⟨hall j hj, fun heq => hfirst j ⟨hj, heq.trans htop⟩⟩⟩
    · rintro ⟨hk, hall⟩
      have htop := (eq_topLevel_iff hk).mpr fun j hj => (hall j hj).1
      exact ⟨⟨hk, htop⟩, fun j ⟨hj, heq⟩ => (hall j hj).2 (heq.trans htop.symm)⟩

/-! ### The grant (R146, R148, R136) -/

section
variable {s : State}

theorem grantee_owned {k : Client} (h : s.engine.owner = some k) : grantee s = none := by
  unfold grantee
  rw [h]

theorem grantee_free (h : s.engine.owner = none) : grantee s = chooseClient s := by
  unfold grantee
  rw [h]

theorem grantEngine_none (h : grantee s = none) : grantEngine s = s := by
  unfold grantEngine
  rw [h]

theorem grantEngine_channelClient {c : Fin 4} (h : grantee s = some (.channel c)) :
    grantEngine s = { s with
      engine := { s.engine with owner := some (.channel c), last := .channel c }
      channels := s.channels.set c { s.channels[c] with grant := .keep } } := by
  unfold grantEngine
  rw [h]

theorem grantEngine_fitClient (h : grantee s = some .fit) :
    grantEngine s = { s with
      engine := { s.engine with owner := some .fit, last := .fit }, fit := fitGranted s } := by
  unfold grantEngine
  rw [h]

end

theorem beginFit_head {s : State} {i : FitItem} {is : List FitItem} {st : Story}
    (h : s.fit.list = i :: is) (hst : storyOf s i.story = some st) :
    beginFit s = some ⟨i.story, st.version, st.setting, s.faces[st.setting.face].generation,
      ⟨1, 0, true⟩, 0, 0, 0, true, false⟩ := by
  unfold beginFit
  rw [h]
  dsimp only [List.head?_cons]
  rw [hst]
  rfl

theorem fitGranted_goesOn {s : State} {p : FitProgress} (h : s.fit.progress = some p) :
    fitGranted s = { s.fit with progress := some { p with inFlight := true } } := by
  unfold fitGranted
  rw [h]

theorem fitGranted_begins {s : State} (h : s.fit.progress = none) :
    fitGranted s = { s.fit with progress := beginFit s } := by
  unfold fitGranted
  rw [h]

theorem freeEngineIsGranted : Clause.FreeEngineIsGranted := by
  refine fun s => ⟨fun k howned => grantEngine_none (grantee_owned howned),
    fun hfree hnone => grantEngine_none ((grantee_free hfree).trans hnone),
    fun c hfree hc => grantEngine_channelClient ((grantee_free hfree).trans hc), fun hfree hfit => ?_⟩
  rw [grantEngine_fitClient ((grantee_free hfree).trans hfit)]
  have hkeeps : KeepsBut [.engine, .fit] s { s with
      engine := { s.engine with owner := some .fit, last := .fit }, fit := fitGranted s } :=
    (keeps_fit { s with engine := { s.engine with owner := some .fit, last := .fit } }
      (fitGranted s)).step (by decide) ((keeps_engine s _).mono (by decide))
  refine ⟨hkeeps, rfl, rfl, fun p hp => congrArg FitQueue.progress (fitGranted_goesOn hp),
    fun i is st hp hlist hst => ?_⟩
  exact (congrArg FitQueue.progress (fitGranted_begins hp)).trans (beginFit_head hlist hst)

/-- Settles O48: the clients stand in turn behind the last granted one (clientsAfter_inTurn), so the first of them that is let through is the one whose turn comes first. -/
theorem engineIsGrantedByTurnOrRank : Obligations.EngineIsGrantedByTurnOrRank :=
  ⟨clientsRequestAndRank, arbiterChoosesByTurnOrRank, freeEngineIsGranted⟩

end Sys2Proof.Machine
end

section
/-! SUPPORT. The order FIT STORY, and the end of the Fit Queue's grant: a fit goes on, completes or is discarded (R134 to R138). -/

namespace Sys2Proof.Machine

/-! ### One story's entry and the list -/

theorem modStory_used {s : State} {id : Nat} {st : Story} (h : storyOf s id = some st)
    (f : Story → Story) : modStory id f s = setStory id (f st) s := by
  unfold modStory
  rw [h]

theorem setFitStatus_used {s : State} {id : Nat} {st : Story} (h : storyOf s id = some st)
    (x : FitStatus) : setFitStatus id x s =
      setStory id { st with fit := { st.fit with status := x } } s := modStory_used h _

theorem joinFitQueue_used {s : State} {id : Nat} {st : Story} (h : storyOf s id = some st) :
    joinFitQueue id s = setStory id { st with fit := { st.fit with status := .pending } }
      { s with fit := { s.fit with list := s.fit.list ++ [⟨id, 0⟩] } } :=
  setFitStatus_used (s := { s with fit := { s.fit with list := s.fit.list ++ [⟨id, 0⟩] } }) h _

theorem automaticOffersAreTaken : Clause.AutomaticOffersAreTaken := fun s id _ hst =>
  ⟨autoOffer_keeps id s, autoOffer_offerTaken hst, fun _ hx => autoOffer_others s hx⟩

/-! ### FIT STORY (R135) -/

section
variable {body : List Byte} {s : State} {st : Story} (h1 : 1 ≤ u16 body 0) (h2 : u16 body 0 ≤ 1024)
  (hst : storyOf s (u16 body 0) = some st)
include h1 h2 hst

theorem ownFitStory_read : ownFitStory body s =
    if !s.faces[st.setting.face].loaded then refuse .noSuch s
    else if inFitQueue s (u16 body 0) then okWith (e16 (fitPosition s (u16 body 0))) s
    else if 8 ≤ s.fit.list.length then refuse .full s
    else (joinFitQueue (u16 body 0) s, ⟨.ok, e16 (s.fit.list.length + 1)⟩) := withStory_used h1 h2 hst

theorem ownFitStory_unloaded (h : s.faces[st.setting.face].loaded = false) :
    ownFitStory body s = refuse .noSuch s := by
  rw [ownFitStory_read h1 h2 hst, h]
  rfl

variable (hloaded : s.faces[st.setting.face].loaded = true)
include hloaded

theorem ownFitStory_listed (h : inFitQueue s (u16 body 0) = true) :
    ownFitStory body s = okWith (e16 (fitPosition s (u16 body 0))) s := by
  rw [ownFitStory_read h1 h2 hst, hloaded, h]
  rfl

variable (hnew : inFitQueue s (u16 body 0) = false)
include hnew

theorem ownFitStory_full (h : 8 ≤ s.fit.list.length) : ownFitStory body s = refuse .full s := by
  rw [ownFitStory_read h1 h2 hst, hloaded, hnew]
  exact if_pos h

theorem ownFitStory_joins (h : s.fit.list.length < 8) : ownFitStory body s =
    (joinFitQueue (u16 body 0) s, ⟨.ok, e16 (s.fit.list.length + 1)⟩) := by
  rw [ownFitStory_read h1 h2 hst, hloaded, hnew]
  exact if_neg (Nat.not_le.mpr h)

end

theorem fitStoryJoinsTheQueue : Clause.FitStoryJoinsTheQueue := by
  intro tag body s hn ht
  refine ⟨refusesStory_of_own (own := ownFitStory) rfl ht hn rfl, fun st h1 h2 hst =>
    ⟨fun hun => ?_, fun hl hq => ?_, fun hl hq hfull => ?_, fun hl hq hroom => ?_⟩⟩
  · exact refuses_of_own rfl ht hn (ownFitStory_unloaded (s := dropHead s) h1 h2 hst hun)
  · exact reads_of_own rfl ht hn (ownFitStory_listed (s := dropHead s) h1 h2 hst hl hq)
  · exact refuses_of_own rfl ht hn (ownFitStory_full (s := dropHead s) h1 h2 hst hl hq hfull)
  · have hown := ownFitStory_joins (s := dropHead s) h1 h2 hst hl hq hroom
    refine replies_of_own rfl ht hn (congrArg Prod.snd hown) ?_ (by decide) ?_
    · rw [hown]
      exact joinFitQueue_keeps _ _
    · rw [hown, joinFitQueue_used (s := dropHead s) hst]
      exact ⟨rfl, rfl⟩

/-! ### The end of a fit's grant (R137, R138) -/

section
variable {s : State} {p : FitProgress} {st : Story} (hkept : p.abandoned = false)
  (hst : storyOf s p.story = some st)
include hkept hst

theorem endFitGrant_goesOn (hstands : fitStands s p st = true) {w : List LineRec × Option Resume}
    (hw : w = grantWork (setWith s p.setting) (textOf s st) p.resume) {r : Resume}
    (hr : w.2 = some r) :
    endFitGrant p s = setProgress (some { p.count w.1 with resume := r }) s := by
  subst hw
  unfold endFitGrant
  rw [hkept, hst]
  dsimp only
  rw [hstands, if_pos rfl, hr]
  rfl

theorem endFitGrant_completes (hstands : fitStands s p st = true)
    {w : List LineRec × Option Resume}
    (hw : w = grantWork (setWith s p.setting) (textOf s st) p.resume) (hr : w.2 = none) :
    endFitGrant p s = completeFit (p.count w.1) s := by
  subst hw
  unfold endFitGrant
  rw [hkept, hst]
  dsimp only
  rw [hstands, if_pos rfl, hr]
  rfl

theorem endFitGrant_discards (hstands : fitStands s p st = false) :
    endFitGrant p s = discardFit p st s := by
  unfold endFitGrant
  rw [hkept, hst]
  dsimp only
  rw [hstands]
  rfl

end

section
variable {s : State} {p : FitProgress} {st : Story} (hst : storyOf s p.story = some st)
include hst

theorem completeFit_used : completeFit p s = setProgress none (dropFromFitList p.story
    (setStory p.story { st with fit := p.fitRecord } s)) := by
  unfold completeFit
  rw [modStory_used hst]

theorem discardFit_loaded (h : s.faces[st.setting.face].loaded = true) : discardFit p st s =
    setProgress none (setStory p.story { st with fit := { st.fit with status := .pending } }
      (requeue p.story s)) := by
  unfold discardFit
  rw [if_pos h, setFitStatus_used (s := requeue p.story s) hst]

theorem discardFit_unloaded (h : s.faces[st.setting.face].loaded = false) : discardFit p st s =
    setProgress none (setStory p.story { st with fit := { st.fit with status := .unknown } }
      (dropFromFitList p.story s)) := by
  unfold discardFit
  rw [if_neg (by rw [h]; exact Bool.false_ne_true),
    setFitStatus_used (s := dropFromFitList p.story s) hst]

end

theorem requeue_list {s : State} {id n : Nat}
    (h : s.fit.list.filter (fun i => i.story = id) = [⟨id, n⟩]) :
    (requeue id s).fit.list = s.fit.list.filter (fun i => i.story ≠ id) ++ [⟨id, min 255 (n + 1)⟩] := by
  unfold requeue
  rw [h]
  rfl

theorem fitGrantEnds_granted {s : State} {p : FitProgress} (howner : s.engine.owner = some .fit)
    (hp : s.fit.progress = some p) : fitGrantEnds s = freeEngine (endFitGrant p s) := by
  unfold fitGrantEnds
  rw [if_pos howner, hp]

theorem fitGrantEndCountsCompletesOrDiscards : Clause.FitGrantEndCountsCompletesOrDiscards := by
  intro s p st w howner hp hkept hst hw
  refine ⟨fitGrantEnds s, rfl, fitGrantEnds_keeps s, ?_⟩
  rw [fitGrantEnds_granted howner hp]
  have hengine : (endFitGrant p s).engine = s.engine := endFitGrant_keeps p s .engine (by decide)
  refine ⟨congrArg (fun e => { e with owner := none }) hengine, fun hstands r hr => ?_,
    fun hstands hr => ?_, fun hchanged hl => ?_, fun hchanged hun => ?_⟩
  · rw [endFitGrant_goesOn hkept hst hstands hw hr, List.countP_eq_length_filter,
      List.countP_eq_length_filter]
    exact ⟨rfl, rfl, rfl⟩
  · rw [endFitGrant_completes hkept hst hstands hw hr, completeFit_used (p := p.count w.1) hst,
      List.countP_eq_length_filter, List.countP_eq_length_filter]
    exact ⟨rfl, rfl, rfl⟩
  · rw [endFitGrant_discards hkept hst hchanged, discardFit_loaded hst hl]
    exact ⟨rfl, fun n hn => requeue_list hn, rfl⟩
  · rw [endFitGrant_discards hkept hst hchanged, discardFit_unloaded hst hun]
    exact ⟨rfl, rfl, rfl⟩

/-- Settles O44: an offer is autoOffer_offerTaken, FIT STORY joins as an offer does, and a grant's end is one of three (endFitGrant_goesOn, endFitGrant_completes, endFitGrant_discards). -/
theorem fitsJoinAndEnd : Obligations.FitsJoinAndEnd :=
  ⟨automaticOffersAreTaken, fitStoryJoinsTheQueue, fitGrantEndCountsCompletesOrDiscards⟩

end Sys2Proof.Machine
end

section
/-! SUPPORT. The orders SET WIRE LINE, SET SELECTION and SET WIRE RESERVE (R164, R170, R177). -/

namespace Sys2Proof.Machine

/-! ### SET WIRE LINE (R164, R175, R178) -/

theorem changeWire_text {w : Fin 4} {id : Nat} {s : State} (h : s.wires[w].intake = .text id)
    (on : Bool) (f : LineFormat) : changeWire w on f s =
      modWire w (fun l => { l with fifo := [], format := f, intake := enabledIntake on })
        (fileStory w id true (enabledIntake on) s) := by
  unfold changeWire
  rw [h]

theorem changeWire_idle {w : Fin 4} {s : State} (h : ∀ id, s.wires[w].intake ≠ .text id)
    (on : Bool) (f : LineFormat) : changeWire w on f s =
      modWire w (fun l => { l with fifo := [], format := f, intake := enabledIntake on }) s := by
  unfold changeWire
  split
  · next id heq => exact absurd heq (h id)
  · rfl

/-- Filing a story leaves the other wire lines alone. -/
theorem fileStory_otherWires {w x : Fin 4} (h : x ≠ w) (id : Nat) (cut : Bool) (next : Intake)
    (s : State) : (fileStory w id cut next s).wires[x] = s.wires[x] := by
  have hoffered : (autoOffer id (beforeOffer w id cut s)).wires = s.wires :=
    (autoOffer_keeps id _ .wires (by decide)).trans (beforeOffer_keeps w id cut s .wires (by decide))
  rw [fileStory_eq]
  refine (modWire_other _ _ h).trans ?_
  split
  · exact congrArg (·[x]) hoffered
  · next st _ =>
    exact congrArg (·[x]) ((flashAlerts_keeps st _ .wires (by decide)).trans hoffered)

/-- Whatever it files, a change of a wire line leaves it empty with the flag and the format, and the other lines alone. -/
theorem changeWire_wires (w : Fin 4) (on : Bool) (f : LineFormat) (s : State) :
    (changeWire w on f s).wires[w].fifo = [] ∧ (changeWire w on f s).wires[w].format = f ∧
      (changeWire w on f s).wires[w].intake = enabledIntake on ∧
      ∀ x : Fin 4, x ≠ w → (changeWire w on f s).wires[x] = s.wires[x] := by
  by_cases h : ∃ id, s.wires[w].intake = .text id
  · obtain ⟨id, hid⟩ := h
    rw [changeWire_text hid, modWire_self]
    exact ⟨rfl, rfl, rfl, fun x hx => (modWire_other _ _ hx).trans (fileStory_otherWires hx _ _ _ _)⟩
  · rw [changeWire_idle fun id hid => h ⟨id, hid⟩, modWire_self]
    exact ⟨rfl, rfl, rfl, fun x hx => modWire_other _ _ hx⟩

/-- A change of the line of a story being filed files it CUT (R164, R175). -/
theorem changeWire_filed {w : Fin 4} {id : Nat} {s : State} {st : Story}
    (h : s.wires[w].intake = .text id) (hst : storyOf s id = some st) (on : Bool) (f : LineFormat) :
    ∃ u, Filed w id true (enabledIntake on) st s u ∧
      KeepsBut [.wires] u (changeWire w on f s) := by
  rw [changeWire_text h]
  exact ⟨_, fileStory_filed hst, modWire_keeps _ _ _⟩

section
variable {body : List Byte} {s : State}

theorem ownSetWireLine_range (h : 4 ≤ u8 body 0) : ownSetWireLine body s = refuse .range s := by
  unfold ownSetWireLine
  rw [inRange_eq_none h]

theorem ownSetWireLine_read {w : Fin 4} (h : u8 body 0 = w.val) : ownSetWireLine body s =
    (if s.wires[w].enabled = flagAt body 1 ∧ s.wires[w].format = (lineFormatAt body 2).1 then s
      else changeWire w (flagAt body 1) (lineFormatAt body 2).1 s,
      ⟨if (lineFormatAt body 2).2 then .clamped else .ok,
        eFlag s.wires[w].enabled ++ eFormat s.wires[w].format ++ e8 s.wires[w].intake.code⟩) := by
  unfold ownSetWireLine
  rw [inRange_of_val h]
  dsimp only
  rw [clampedIf_eq Iff.rfl]
  refine congrArg (·, _) (if_congr ?_ rfl rfl)
  rw [Bool.and_eq_true, decide_eq_true_iff, decide_eq_true_iff]

end

theorem setWireLineTakesFlagAndFormat : Clause.SetWireLineTakesFlagAndFormat := by
  rintro tag body s hn ht
  refine ⟨fun h => refuses_of_own rfl ht hn (ownSetWireLine_range h), ?_⟩
  rintro w on f hw rfl rfl
  have hown := ownSetWireLine_read (s := dropHead s) hw
  refine ⟨_, rfl, fun hflag hformat => ?_, fun hchanged => ?_⟩
  · refine reads_of_own rfl ht hn (hown.trans ?_)
    rw [if_pos ⟨hflag, hformat⟩, ← hflag, ← hformat]
    rfl
  · rw [if_neg fun h => hchanged.elim (· h.1) (· h.2)] at hown
    refine replies_of_own rfl ht hn (congrArg Prod.snd hown) ?_ (by decide) ?_
    · rw [hown]
      exact changeWire_keeps _ _ _ _
    rw [hown]
    obtain ⟨hfifo, hformat, hintake, hothers⟩ :=
      changeWire_wires w (flagAt body 1) (lineFormatAt body 2).1 (dropHead s)
    refine ⟨hfifo, hformat, hintake, hothers, fun id st hid hst => ?_, fun hidle => ?_⟩
    · obtain ⟨u, hfiled, hkeeps⟩ := changeWire_filed (s := dropHead s) hid hst (flagAt body 1)
        (lineFormatAt body 2).1
      have hnotices : (changeWire w (flagAt body 1) (lineFormatAt body 2).1 (dropHead s)).notices =
          u.notices := hkeeps .notices (by decide)
      have hscreens : (changeWire w (flagAt body 1) (lineFormatAt body 2).1 (dropHead s)).screens =
          u.screens := hkeeps .screens (by decide)
      have hoffer := hfiled.offer
      rw [Bool.or_true] at hoffer
      refine ⟨hoffer.congr rfl rfl (hkeeps .fit (by decide))
        (storyOf_of_stories (hkeeps .stories (by decide)) id), ?_, ?_, fun t => ?_⟩
      · exact (congrArg (fun n => n.pending[srcWire w]) hnotices).trans hfiled.pending
      · exact (congrArg (fun n => n.wire[w]) hnotices).trans hfiled.summary
      · exact (congrArg (·[t]) hscreens).trans (hfiled.screens t)
    · rw [changeWire_idle (s := dropHead s) hidle]
      exact ⟨rfl, rfl, rfl⟩

/-! ### SET SELECTION (R170) -/

theorem SelAction.ofCode_code (a : SelAction) : SelAction.ofCode a.code = some a := by
  cases a <;> rfl

theorem SelAction.ofCode_eq_none {n : Nat} (h : 2 ≤ n) : SelAction.ofCode n = none := by
  obtain ⟨k, rfl⟩ := Nat.exists_eq_add_of_le' h
  rfl

theorem selectionOf_bad {body : List Byte} (h1 : u8 body 1 ≠ 0)
    (h : patternOk (body.getD 2 0) (body.getD 3 0) (body.getD 4 0) = false ∨ 2 ≤ u8 body 5 ∨
      64 ≤ u8 body 6 ∨ 16 ≤ u8 body 7) : selectionOf body = none := by
  unfold selectionOf
  rw [if_pos (flagAt_eq_true.mpr h1)]
  split
  · next a b k ha hb hk =>
    refine if_neg fun hok => ?_
    rcases h with h | h | h | h
    · exact Bool.false_ne_true (h.symm.trans hok)
    · exact nomatch (SelAction.ofCode_eq_none h).symm.trans ha
    · exact nomatch (inRange_eq_none h).symm.trans hb
    · exact nomatch (inRange_eq_none h).symm.trans hk
  · rfl

theorem selectionOf_good {body : List Byte} {e : Option SelEntry}
    (h : u8 body 1 = 0 ∧ e = none ∨
      u8 body 1 ≠ 0 ∧ patternOk (body.getD 2 0) (body.getD 3 0) (body.getD 4 0) = true ∧
      ∃ a b k, u8 body 5 = SelAction.code a ∧ u8 body 6 = b.val ∧ u8 body 7 = k.val ∧
        e = some ⟨body.getD 2 0, body.getD 3 0, body.getD 4 0, a, b, k⟩) :
    selectionOf body = some e := by
  unfold selectionOf
  rcases h with ⟨h1, rfl⟩ | ⟨h1, hok, a, b, k, ha, hb, hk, rfl⟩
  · exact if_neg fun hflag => flagAt_eq_true.mp hflag h1
  · rw [if_pos (flagAt_eq_true.mpr h1), ha, SelAction.ofCode_code, inRange_of_val hb,
      inRange_of_val hk]
    exact if_pos hok

section
variable {body : List Byte} {s : State}

theorem ownSetSelection_range (h : 32 ≤ u8 body 0 ∨ selectionOf body = none) :
    ownSetSelection body s = refuse .range s := by
  unfold ownSetSelection
  rcases h with h | h
  · rw [inRange_eq_none h]
  · rw [h]
    split
    · next heq => cases heq
    · rfl

theorem ownSetSelection_replaced {i : Fin 32} {e : Option SelEntry} (h0 : u8 body 0 = i.val)
    (he : selectionOf body = some e) : ownSetSelection body s =
      ({ s with selection := s.selection.set i e }, ⟨.ok, eSelection s.selection[i]⟩) := by
  unfold ownSetSelection
  rw [inRange_of_val h0, he]

end

theorem selectionEntriesAreReplaced : Clause.SelectionEntriesAreReplaced := by
  intro tag body s
  refine ⟨fun hn ht => ⟨fun h0 => ?_, fun h1 hbad => ?_, fun i e h0 he => ?_⟩, fun ht => ?_⟩
  · exact refuses_of_own rfl ht hn (ownSetSelection_range (.inl h0))
  · exact refuses_of_own rfl ht hn (ownSetSelection_range (.inr (selectionOf_bad h1 hbad)))
  · have hown := ownSetSelection_replaced (s := dropHead s) h0 (selectionOf_good he)
    refine replies_of_own rfl ht hn (congrArg Prod.snd hown) ?_ (by decide) ?_
    · rw [hown]
      exact keeps_selection _ _
    · rw [hown]
      rfl
  · exact reads_of_answer ownReadSelection_onlyReads rfl (Nat.zero_le _) ht rfl

/-! ### SET WIRE RESERVE (R177) -/

theorem wireReserveIsReplaced : Clause.WireReserveIsReplaced := by
  refine ⟨fun tag body s hn ht => ?_, fun tag s => ⟨rfl, rfl, rfl⟩⟩
  have hown : ownSetWireReserve body (dropHead s) =
      ({ dropHead s with reserve := min 4096 (u16 body 0) },
      ⟨if u16 body 0 ≤ 4096 then .ok else .clamped,
        e16 s.reserve ++ e16 (Memory.freeCount s.memory)⟩) := by
    refine congrArg (_, ·) (clampedIf_eq_not ?_ _)
    rw [decide_eq_true_iff]
    show ¬ min 4096 (u16 body 0) = u16 body 0 ↔ _
    omega
  refine replies_of_own rfl ht hn (congrArg Prod.snd hown) ?_ (by decide) ?_
  · rw [hown]
    exact keeps_reserve _ _
  · rw [hown]
    rfl

/-- Settles O53: a change of a wire line files what the line was filing (fileStory_filed) and then takes the flag and the format; the other two orders write one field. -/
theorem wireOrdersReplaceTheirSettings : Obligations.WireOrdersReplaceTheirSettings :=
  ⟨setWireLineTakesFlagAndFormat, selectionEntriesAreReplaced, wireReserveIsReplaced⟩

end Sys2Proof.Machine
end

section
/-! SUPPORT. Stories that are offered one after another (R120, R134). -/

namespace Sys2Proof.Machine

/-- The stories of a list that join the Fit Queue when they are offered one after another: those not in it, while it has room. -/
def joiningOf (s : State) (ids : List Nat) : List Nat :=
  (ids.filter fun id => !inFitQueue s id).take (8 - s.fit.list.length)

/-- A story whose face is loaded, and whose fit status is one that a change leaves (R16). -/
def Offerable (s : State) (id : Nat) : Prop :=
  ∃ st, storyOf s id = some st ∧ s.faces[st.setting.face].loaded = true ∧ st.fit.outdate = st.fit

/-- What offers of a list of stories leave: joining are the stories of the list that join the Fit Queue. -/
structure OffersTaken (ids joining : List Nat) (s u : State) : Prop where
  listed : joining ⊆ ids
  fit : u.fit = { s.fit with list := s.fit.list ++ joining.map fun id => ⟨id, 0⟩ }
  offered : ∀ id ∈ ids, ∀ st, storyOf s id = some st → storyOf u id = some { st with
    fit := { st.fit with
      status := if id ∈ joining ∨ st.fit.status = .pending then .pending else .unknown } }
  others : ∀ x, x ∉ ids → storyOf u x = storyOf s x

theorem FitRecord.outdated_status {f : FitRecord} (h : f.outdate = f) :
    { f with status := if f.status = .pending then .pending else .unknown } = f := by
  rw [← FitRecord.outdate_eq, h]

theorem FitRecord.outdate_outdate (f : FitRecord) : f.outdate.outdate = f.outdate := by
  unfold outdate
  by_cases h : f.status = .pending
  · rw [if_pos h, if_pos h]
  · rw [if_neg h]
    exact if_neg (fun h => nomatch h)

theorem joiningOf_listed {s : State} {id : Nat} (ids : List Nat) (h : inFitQueue s id = true) :
    joiningOf s (id :: ids) = joiningOf s ids := by
  unfold joiningOf
  rw [List.filter_cons_of_neg (by rw [h]; decide)]

theorem joiningOf_full {s : State} (ids : List Nat) (h : 8 ≤ s.fit.list.length) :
    joiningOf s ids = [] := by
  unfold joiningOf
  rw [Nat.sub_eq_zero_of_le h, List.take_zero]

theorem inFitQueue_appended {s t : State} {id : Nat}
    (h : t.fit = { s.fit with list := s.fit.list ++ [⟨id, 0⟩] }) {x : Nat} (hx : x ≠ id) :
    inFitQueue t x = inFitQueue s x := by
  unfold inFitQueue
  rw [h]
  simp [Ne.symm hx]

/-- The first story joins; the others join the list that it has joined. -/
theorem joiningOf_room {s t : State} {id : Nat} {ids : List Nat} (hq : inFitQueue s id = false)
    (hroom : s.fit.list.length < 8) (hid : id ∉ ids)
    (h : t.fit = { s.fit with list := s.fit.list ++ [⟨id, 0⟩] }) :
    joiningOf s (id :: ids) = id :: joiningOf t ids := by
  have hfilter : (ids.filter fun x => !inFitQueue t x) = ids.filter fun x => !inFitQueue s x :=
    List.filter_congr fun x hx => by rw [inFitQueue_appended h fun he => hid (he ▸ hx)]
  have hlen : 8 - s.fit.list.length = 8 - t.fit.list.length + 1 := by
    rw [h, List.length_append, List.length_singleton]
    omega
  unfold joiningOf
  rw [List.filter_cons_of_pos (by rw [hq]; rfl), hlen, List.take_succ_cons, hfilter]

theorem joiningOf_subset (s : State) (ids : List Nat) : joiningOf s ids ⊆ ids := fun _ h =>
  List.mem_of_mem_filter (List.mem_of_mem_take h)

theorem OffersTaken.append {a b ja jb : List Nat} {s t u : State} (h : OffersTaken a ja s t)
    (k : OffersTaken b jb t u) (hab : ∀ x ∈ a, x ∉ b) : OffersTaken (a ++ b) (ja ++ jb) s u := by
  refine ⟨List.append_subset.mpr ⟨List.subset_append_of_subset_left b h.listed,
    List.subset_append_of_subset_right a k.listed⟩, ?_, fun id hid st hst => ?_, fun x hx => ?_⟩
  · rw [k.fit, h.fit, List.map_append, List.append_assoc]
  · rcases List.mem_append.mp hid with ha | hb
    · have hnot : id ∉ jb := fun hj => hab id ha (k.listed hj)
      rw [k.others id (hab id ha), h.offered id ha st hst]
      simp only [List.mem_append, hnot, or_false]
    · have hnot : id ∉ a := fun ha => hab id ha hb
      rw [k.offered id hb st ((h.others id hnot).trans hst)]
      simp only [List.mem_append, show id ∉ ja from fun hj => hnot (h.listed hj), false_or]
  · rw [List.mem_append, not_or] at hx
    exact (k.others x hx.2).trans (h.others x hx.1)

/-- An offer of one story, from what it leaves of the Fit Queue and of the story. -/
theorem OffersTaken.of_entry {s : State} {id : Nat} {st : Story} {first : List Nat}
    (hst : storyOf s id = some st) (hfirst : first ⊆ [id])
    (hfit : (autoOffer id s).fit =
      { s.fit with list := s.fit.list ++ first.map fun id => ⟨id, 0⟩ })
    (hentry : storyOf (autoOffer id s) id = some { st with fit := { st.fit with
      status := if id ∈ first ∨ st.fit.status = .pending then .pending else .unknown } }) :
    OffersTaken [id] first s (autoOffer id s) := by
  refine ⟨hfirst, hfit, List.forall_mem_singleton.mpr fun st' hst' => ?_, fun x hx =>
    autoOffer_others s fun he => hx (he ▸ List.mem_singleton_self id)⟩
  cases hst.symm.trans hst'
  exact hentry

/-- One offer, and what it leaves for the offers behind it. -/
theorem autoOffer_offersTaken {s : State} {id : Nat} (h : Offerable s id) {ids : List Nat}
    (hid : id ∉ ids) : ∃ first, OffersTaken [id] first s (autoOffer id s) ∧
      joiningOf s (id :: ids) = first ++ joiningOf (autoOffer id s) ids := by
  obtain ⟨st, hst, hloaded, hold⟩ := h
  obtain ⟨-, hoffer⟩ := autoOffer_offerTaken hst
  have hnone : ∀ l : List FitItem, l ++ ([] : List Nat).map (fun id => ⟨id, 0⟩) = l :=
    List.append_nil
  cases hq : inFitQueue s id with
  | true =>
    refine ⟨[], .of_entry hst (List.nil_subset _) ?_ ?_, ?_⟩
    · rw [autoOffer_listed hst hq, hnone]
    · rw [autoOffer_listed hst hq, hst]
      simp only [List.not_mem_nil, false_or, FitRecord.outdated_status hold]
    · rw [autoOffer_listed hst hq]
      exact joiningOf_listed ids hq
  | false =>
    obtain ⟨hjoins, hfull⟩ := hoffer hloaded hq
    rcases Nat.lt_or_ge s.fit.list.length 8 with hroom | hover
    · obtain ⟨hfit, hentry⟩ := hjoins hroom
      exact ⟨[id], .of_entry hst (List.Subset.refl _) hfit (by rw [hentry]; simp),
        joiningOf_room hq hroom hid hfit⟩
    · obtain ⟨hfit, hentry⟩ := hfull hover
      refine ⟨[], .of_entry hst (List.nil_subset _) (by rw [hfit, hnone]) (by rw [hentry]; simp), ?_⟩
      rw [joiningOf_full _ hover, joiningOf_full _ (by rw [hfit]; exact hover)]
      rfl

theorem Offerable.behind {s : State} {id x : Nat} (h : Offerable s x) (hx : x ≠ id) :
    Offerable (autoOffer id s) x := by
  obtain ⟨st, hst, hloaded, hold⟩ := h
  have hfaces : (autoOffer id s).faces = s.faces := autoOffer_keeps id s .faces (by decide)
  exact ⟨st, (autoOffer_others s hx).trans hst, by rw [hfaces]; exact hloaded, hold⟩

/-- Stories offered one after another: each is taken as the list stands when its turn comes. -/
theorem foldl_autoOffer {ids : List Nat} (hnodup : ids.Nodup) {s : State}
    (h : ∀ id ∈ ids, Offerable s id) :
    OffersTaken ids (joiningOf s ids) s (ids.foldl (fun s id => autoOffer id s) s) := by
  induction ids generalizing s with
  | nil => exact ⟨joiningOf_subset s [], by simp [joiningOf], fun _ hid => (nomatch hid), fun _ _ => rfl⟩
  | cons id ids ih =>
    obtain ⟨hid, hids⟩ := List.nodup_cons.mp hnodup
    obtain ⟨hfirst, hbehind⟩ := List.forall_mem_cons.mp h
    have hne : ∀ x ∈ ids, x ≠ id := fun x hx he => hid (he ▸ hx)
    obtain ⟨first, hone, hjoining⟩ := autoOffer_offersTaken hfirst hid
    have hrest := ih hids fun x hx => (hbehind x hx).behind (hne x hx)
    rw [List.foldl_cons, hjoining]
    exact hone.append hrest (List.forall_mem_singleton.mpr hid)

end Sys2Proof.Machine
end

section
/-! SUPPORT. The order SET SETTING and the clamps of Table 7-1 (R122, R123). -/

namespace Sys2Proof.Machine

/-! ### Table 7-1 (R122) -/

theorem clampTo_of_bounds {lo hi v : Nat} (hlo : lo ≤ v) (hhi : v ≤ hi) : clampTo lo hi v = v := by
  rw [clampTo, Nat.min_eq_right hhi, Nat.max_eq_right hlo]

theorem clampSetting_of_legal {x : Setting} (h : x.Legal) : clampSetting x = x := by
  obtain ⟨⟨hsize, hsize'⟩, ⟨hmeasure, hmeasure'⟩, ⟨hleading, hleading'⟩, hindent, hbudget⟩ := h
  unfold clampSetting
  dsimp only
  rw [clampTo_of_bounds hsize hsize', clampTo_of_bounds hmeasure hmeasure',
    clampTo_of_bounds hleading hleading', Nat.min_eq_left hindent, Nat.min_eq_left hbudget]

theorem clampedSettingsAreLegal : Clause.ClampedSettingsAreLegal := fun x =>
  ⟨clampSetting_legal x, clampSetting_of_legal, rfl⟩

/-! ### A story leaves the Fit Queue for an unloaded face (R123) -/

theorem fitIsOf_progress {s : State} {p : FitProgress} (h : s.fit.progress = some p) (id : Nat) :
    fitIsOf s id = true ↔ p.story = id ∧ p.abandoned = false := by
  unfold fitIsOf
  rw [h]
  simp

theorem fitIsOf_none {s : State} (h : s.fit.progress = none) (id : Nat) : fitIsOf s id = false := by
  unfold fitIsOf
  rw [h]

theorem fitFlying_iff (s : State) (id : Nat) : fitFlying s id = true ↔
    ∃ p, s.fit.progress = some p ∧ p.story = id ∧ p.inFlight = true ∧ p.abandoned = false := by
  unfold fitFlying fitIsOf fitInFlight
  cases hp : s.fit.progress with
  | none => simp
  | some p => simp; tauto

theorem leaveForFace_stays {s : State} {id : Nat}
    (h : inFitQueue s id = false ∨ fitFlying s id = true) : leaveForFace id s = s := by
  refine if_pos ?_
  rcases h with h | h
  · rw [h]; rfl
  · rw [h]; exact Bool.or_true _

section
variable {s : State} {id : Nat} {st : Story} (hst : storyOf s id = some st)
  (hin : inFitQueue s id = true) (hfly : fitFlying s id = false)
include hst hin hfly

theorem leaveForFace_leaves : leaveForFace id s =
    if fitIsOf s id then
      setProgress none (setStory id { st with fit := { st.fit with status := .unknown } }
        (dropFromFitList id s))
    else setStory id { st with fit := { st.fit with status := .unknown } } (dropFromFitList id s) := by
  unfold leaveForFace
  rw [hin, hfly, setFitStatus_used (s := dropFromFitList id s) hst]
  rfl

theorem leaveForFace_list :
    (leaveForFace id s).fit.list = s.fit.list.filter fun i => i.story ≠ id := by
  rw [leaveForFace_leaves hst hin hfly]
  split <;> rfl

theorem storyOf_leaveForFace : storyOf (leaveForFace id s) id =
    some { st with fit := { st.fit with status := .unknown } } := by
  rw [leaveForFace_leaves hst hin hfly]
  split
  · exact Tab.get?_put_same _ _ _
  · exact Tab.get?_put_same _ _ _

theorem leaveForFace_progress : (leaveForFace id s).fit.progress =
    if fitIsOf s id then none else s.fit.progress := by
  rw [leaveForFace_leaves hst hin hfly]
  split <;> rfl

end

theorem leaveForFace_others {s : State} {id x : Nat} (hx : x ≠ id) :
    storyOf (leaveForFace id s) x = storyOf s x := by
  unfold leaveForFace
  split
  · rfl
  · have hleft : storyOf (setFitStatus id .unknown (dropFromFitList id s)) x = storyOf s x := by
      rw [setFitStatus, storyOf_modStory, if_neg hx]
      rfl
    dsimp only
    split
    · exact hleft
    · exact hleft

/-! ### SET SETTING (R123) -/

/-- A story with its setting changed: its fit status is UNKNOWN, or still PENDING (R122, R16). -/
def resettled (st : Story) (x : Setting) : Story := { st with setting := x, fit := st.fit.outdate }

theorem resettled_eq (st : Story) (x : Setting) : resettled st x = { st with
    setting := x
    fit := { st.fit with status := if st.fit.status = .pending then .pending else .unknown } } := by
  rw [resettled, FitRecord.outdate_eq]

section
variable {s : State} {id : Nat} (st : Story) (x : Setting)

theorem changeSetting_loaded (h : s.faces[x.face].loaded = true) :
    changeSetting id st x s = autoOffer id (setStory id (resettled st x) s) := if_pos h

theorem changeSetting_unloaded (h : s.faces[x.face].loaded = false) :
    changeSetting id st x s = leaveForFace id (setStory id (resettled st x) s) :=
  if_neg (by rw [show (setStory id _ s).faces = s.faces from rfl, h]; exact Bool.false_ne_true)

theorem changeSetting_others {y : Nat} (hy : y ≠ id) :
    storyOf (changeSetting id st x s) y = storyOf s y := by
  have hset : storyOf (setStory id (resettled st x) s) y = storyOf s y := by
    rw [storyOf_setStory, if_neg hy]
  cases h : s.faces[x.face].loaded with
  | true => rw [changeSetting_loaded st x h, autoOffer_others _ hy, hset]
  | false => rw [changeSetting_unloaded st x h, leaveForFace_others hy, hset]

theorem storyOf_resettled : storyOf (setStory id (resettled st x) s) id = some (resettled st x) :=
  Tab.get?_put_same _ _ _

/-- With a loaded face the story is offered (R123). -/
theorem changeSetting_offers (h : s.faces[x.face].loaded = true) :
    OfferTaken s (changeSetting id st x s) id (resettled st x) := by
  rw [changeSetting_loaded st x h]
  exact (autoOffer_offerTaken (storyOf_resettled st x)).congr rfl rfl rfl rfl

variable (h : s.faces[x.face].loaded = false)
include h

/-- With an unloaded face a story that does not wait, or whose grant is in flight, stays where it is (R123). -/
theorem changeSetting_stays (hstays : inFitQueue s id = false ∨ fitFlying s id = true) :
    (changeSetting id st x s).fit = s.fit ∧
      storyOf (changeSetting id st x s) id = some (resettled st x) := by
  rw [changeSetting_unloaded st x h, leaveForFace_stays (s := setStory id (resettled st x) s) hstays]
  exact ⟨rfl, storyOf_resettled st x⟩

/-- With an unloaded face a story that waits leaves the list, and its partial result is discarded (R123). -/
theorem changeSetting_leaves (hin : inFitQueue s id = true) (hfly : fitFlying s id = false) :
    (changeSetting id st x s).fit.list = s.fit.list.filter (fun i => i.story ≠ id) ∧
      (changeSetting id st x s).fit.progress = (if fitIsOf s id then none else s.fit.progress) ∧
      storyOf (changeSetting id st x s) id = some { resettled st x with
        fit := { (resettled st x).fit with status := .unknown } } := by
  rw [changeSetting_unloaded st x h]
  have hset := storyOf_resettled (s := s) (id := id) st x
  exact ⟨leaveForFace_list hset hin hfly, leaveForFace_progress hset hin hfly,
    storyOf_leaveForFace hset hin hfly⟩

end

section
variable {body : List Byte} {s : State}

theorem ownSetSetting_range (h : 8 ≤ u8 body 2) : ownSetSetting body s = refuse .range s := by
  unfold ownSetSetting
  rw [settingAt_eq_none_iff.mpr h]

section
variable {given : Setting} (hgiven : settingAt body 2 = some given)
include hgiven

theorem ownSetSetting_story : ∃ k, ownSetSetting body s = withStory (u16 body 0) s k := by
  unfold ownSetSetting
  rw [hgiven]
  exact ⟨_, rfl⟩

variable {st : Story} (h1 : 1 ≤ u16 body 0) (h2 : u16 body 0 ≤ 1024)
  (hst : storyOf s (u16 body 0) = some st)
include h1 h2 hst

theorem ownSetSetting_locked {c : Fin 4} (h : st.holding = .setting c) :
    ownSetSetting body s = refuseWith .locked (e8 c) s := by
  unfold ownSetSetting
  rw [hgiven]
  dsimp only
  rw [withStory_used h1 h2 hst, h]

theorem ownSetSetting_free (h : ∀ c, st.holding ≠ .setting c) : ownSetSetting body s =
    (if clampSetting given = st.setting then s
      else changeSetting (u16 body 0) st (clampSetting given) s,
      ⟨if clampSetting given = given then .ok else .clamped, eSetting st.setting⟩) := by
  unfold ownSetSetting
  rw [hgiven]
  dsimp only
  rw [withStory_used h1 h2 hst, clampedIf_eq_not decide_eq_true_iff]
  split
  · next c hc => exact absurd hc (h c)
  · rfl

end
end

theorem setSettingStoresTheClampedSetting : Clause.SetSettingStoresTheClampedSetting := by
  intro tag body s hn ht
  refine ⟨fun h => refuses_of_own rfl ht hn (ownSetSetting_range h), fun given hgiven => ?_⟩
  obtain ⟨k, hk⟩ := ownSetSetting_story (s := dropHead s) hgiven
  refine ⟨refusesStory_of_own rfl ht hn hk, fun st h1 h2 hst => ⟨fun c hc => ?_, fun hfree heq => ?_,
    fun hfree hne => ?_⟩⟩
  · exact reads_of_own rfl ht hn (ownSetSetting_locked (s := dropHead s) hgiven h1 h2 hst hc)
  · have hown := ownSetSetting_free (s := dropHead s) hgiven h1 h2 hst hfree
    rw [if_pos heq] at hown
    exact reads_of_own rfl ht hn hown
  · have hown := ownSetSetting_free (s := dropHead s) hgiven h1 h2 hst hfree
    rw [if_neg hne] at hown
    refine replies_of_own rfl ht hn (congrArg Prod.snd hown) ?_ (by decide) ?_
    · rw [hown]
      exact changeSetting_keeps _ _ _ _
    rw [hown]
    rintro so rfl
    rw [← resettled_eq]
    refine ⟨fun hloaded => ?_, fun hun => ⟨fun hstays => ?_, fun hin hfly => ?_⟩,
      fun id hid => changeSetting_others (s := dropHead s) st _ hid⟩
    · exact (changeSetting_offers (s := dropHead s) st (clampSetting given) hloaded).congr
        rfl rfl rfl rfl
    · exact changeSetting_stays (s := dropHead s) st (clampSetting given) hun
        (hstays.imp_right (fitFlying_iff s _).mpr)
    · have hground : fitFlying s (u16 body 0) = false := Bool.eq_false_iff.mpr fun h => by
        obtain ⟨p, hp, hstory, hflight, hkept⟩ := (fitFlying_iff s _).mp h
        exact Bool.false_ne_true ((hfly p hp hstory hkept).symm.trans hflight)
      obtain ⟨hlist, hprogress, hentry⟩ :=
        changeSetting_leaves (s := dropHead s) st (clampSetting given) hun hin hground
      refine ⟨hlist, hprogress.trans ?_, hentry⟩
      show (if fitIsOf s (u16 body 0) then none else s.fit.progress) = _
      cases hp : s.fit.progress with
      | none => exact ite_self _
      | some p => exact if_congr (fitIsOf_progress hp _) rfl rfl

end Sys2Proof.Machine
end

section
/-! SUPPORT. The order SET WIDTHS: its checks, the face loaded, and the offers of the stories that name the face (R119, R120). -/

namespace Sys2Proof.Machine

/-! ### The stories of a face (R119) -/

theorem pairwise_storiesOfFace {s : State} (h : Tab.wf s.stories) (f : Fin 8) :
    (storiesOfFace s f).Pairwise (· < ·) :=
  List.pairwise_map.mpr (h.sublist List.filter_sublist)

theorem mem_storiesOfFace {s : State} (h : Tab.wf s.stories) {f : Fin 8} {id : Nat} :
    id ∈ storiesOfFace s f ↔ ∃ st, storyOf s id = some st ∧ st.setting.face = f := by
  unfold storiesOfFace storyOf
  simp only [List.mem_map, List.mem_filter, decide_eq_true_iff, Tab.get?_eq_some_iff h]
  constructor
  · rintro ⟨⟨i, st⟩, ⟨hmem, hface⟩, rfl⟩
    exact ⟨st, hmem, hface⟩
  · rintro ⟨st, hmem, hface⟩
    exact ⟨(id, st), ⟨hmem, hface⟩, rfl⟩

/-- Two directories whose stories name the same faces list the same stories for a face. -/
theorem storiesOfFace_congr {s u : State} (hs : Tab.wf s.stories) (hu : Tab.wf u.stories) (f : Fin 8)
    (h : ∀ id, (storyOf u id).map (·.setting.face) = (storyOf s id).map (·.setting.face)) :
    storiesOfFace u f = storiesOfFace s f := by
  refine (pairwise_storiesOfFace hu f).eq_of_mem_iff (pairwise_storiesOfFace hs f) fun {id} => ?_
  have hmap : ∀ t : State, (∃ st, storyOf t id = some st ∧ st.setting.face = f) ↔
      (storyOf t id).map (·.setting.face) = some f := fun t => Option.map_eq_some_iff.symm
  rw [mem_storiesOfFace hu, mem_storiesOfFace hs, hmap, hmap, h]

theorem modStory_wf {s : State} (h : Tab.wf s.stories) (id : Nat) (g : Story → Story) :
    Tab.wf (modStory id g s).stories := by
  unfold modStory
  split
  · exact h
  · exact Tab.wf_put _ _ _ h

theorem autoOffer_wf {s : State} (h : Tab.wf s.stories) (id : Nat) :
    Tab.wf (autoOffer id s).stories := by
  unfold autoOffer
  split
  · exact h
  · split
    · exact h
    · split
      · exact h
      · split
        · exact modStory_wf (s := { s with fit := { s.fit with list := s.fit.list ++ [⟨id, 0⟩] } })
            h id _
        · exact Tab.wf_put _ _ _ h

theorem foldl_autoOffer_wf {s : State} (h : Tab.wf s.stories) (ids : List Nat) :
    Tab.wf (ids.foldl (fun s id => autoOffer id s) s).stories := by
  induction ids generalizing s with
  | nil => exact h
  | cons id ids ih => exact ih (autoOffer_wf h id)

/-- Offers leave every story's face. -/
theorem foldl_autoOffer_face (ids : List Nat) (s : State) (x : Nat) :
    (storyOf (ids.foldl (fun s id => autoOffer id s) s) x).map (·.setting.face) =
      (storyOf s x).map (·.setting.face) := by
  induction ids generalizing s with
  | nil => rfl
  | cons id ids ih =>
    refine (ih (autoOffer id s)).trans ?_
    by_cases hx : x = id
    · subst hx
      cases hst : storyOf s x with
      | none => rw [show autoOffer x s = s by unfold autoOffer; rw [hst], hst]
      | some st =>
        obtain ⟨g, hg⟩ := (autoOffer_offerTaken hst).entry
        rw [hg]
        rfl
    · rw [autoOffer_others s hx]

/-! ### A face is loaded (R120) -/

/-- A face takes a table, and the stories that name it follow, not yet offered. -/
def faceTaken (f : Fin 8) (x : Face) (s : State) : State :=
  { s with faces := s.faces.set f x, stories := Tab.mapVal (outdateFace f) s.stories }

/-- The record a face takes from a table (R118, R120). -/
def tableFace (w : List Byte) (minSpace maxSpace : Nat) (generation : Word16) : Face :=
  ⟨true, Vector.ofFn fun i => u8 w i, minSpace, maxSpace, generation⟩

theorem loadFace_eq (f : Fin 8) (w : List Byte) (minSpace maxSpace : Nat) (s : State) :
    loadFace f w minSpace maxSpace s =
      (storiesOfFace (faceTaken f (tableFace w minSpace maxSpace (s.faces[f].generation + 1)) s)
        f).foldl (fun s id => autoOffer id s)
        (faceTaken f (tableFace w minSpace maxSpace (s.faces[f].generation + 1)) s) := rfl

theorem outdateFace_named {f : Fin 8} {st : Story} (h : st.setting.face = f) :
    outdateFace f st = { st with fit := st.fit.outdate } := if_pos h

theorem outdateFace_other {f : Fin 8} {st : Story} (h : st.setting.face ≠ f) :
    outdateFace f st = st := if_neg h

section
variable (f : Fin 8) (x : Face) (s : State)

theorem storyOf_faceTaken (id : Nat) :
    storyOf (faceTaken f x s) id = (storyOf s id).map (outdateFace f) := Tab.get?_mapVal _ _ _

theorem faceTaken_wf (h : Tab.wf s.stories) : Tab.wf (faceTaken f x s).stories :=
  Tab.wf_mapVal _ _ h

theorem storiesOfFace_faceTaken (h : Tab.wf s.stories) :
    storiesOfFace (faceTaken f x s) f = storiesOfFace s f := by
  refine storiesOfFace_congr h (faceTaken_wf f x s h) f fun id => ?_
  rw [storyOf_faceTaken, Option.map_map]
  exact congrArg (Option.map · (storyOf s id))
    (funext fun st => congrArg Setting.face (outdateFace_setting f st))

/-- Each story of the face can be offered: the face is loaded, and the story's status follows the table. -/
theorem offerable_faceTaken (h : Tab.wf s.stories) (hx : x.loaded = true) {id : Nat}
    (hid : id ∈ storiesOfFace s f) : Offerable (faceTaken f x s) id := by
  obtain ⟨st, hst, hface⟩ := (mem_storiesOfFace h).mp hid
  refine ⟨{ st with fit := st.fit.outdate }, ?_, ?_, FitRecord.outdate_outdate _⟩
  · rw [storyOf_faceTaken, hst, Option.map_some, outdateFace_named hface]
  · show (s.faces.set f x)[st.setting.face].loaded = true
    subst hface
    rw [show (s.faces.set st.setting.face x)[st.setting.face] = x from Vector.getElem_set_self _]
    exact hx

/-- A loaded face's stories are offered in ascending order (R120). -/
theorem faceTaken_offers (h : Tab.wf s.stories) (hx : x.loaded = true) :
    OffersTaken (storiesOfFace s f) (joiningOf s (storiesOfFace s f)) (faceTaken f x s)
      ((storiesOfFace (faceTaken f x s) f).foldl (fun s id => autoOffer id s) (faceTaken f x s)) := by
  rw [storiesOfFace_faceTaken f x s h]
  exact foldl_autoOffer ((pairwise_storiesOfFace h f).imp Nat.ne_of_lt)
    fun id hid => offerable_faceTaken f x s h hx hid

end

section
variable (f : Fin 8) (w : List Byte) (minSpace maxSpace : Nat) (s : State)

theorem loadFace_faces : (loadFace f w minSpace maxSpace s).faces =
    s.faces.set f (tableFace w minSpace maxSpace (s.faces[f].generation + 1)) := by
  rw [loadFace_eq]
  exact KeepsBut.foldl _ (fun s id => autoOffer_keeps id s) _ _ .faces (by decide)

variable (h : Tab.wf s.stories)
include h

theorem storiesOfFace_loadFace :
    storiesOfFace (loadFace f w minSpace maxSpace s) f = storiesOfFace s f := by
  rw [loadFace_eq]
  refine Eq.trans ?_ (storiesOfFace_faceTaken f
    (tableFace w minSpace maxSpace (s.faces[f].generation + 1)) s h)
  exact storiesOfFace_congr (faceTaken_wf f _ s h) (foldl_autoOffer_wf (faceTaken_wf f _ s h) _) f
    fun id => foldl_autoOffer_face _ _ id

theorem loadFace_fit : (loadFace f w minSpace maxSpace s).fit = { s.fit with
    list := s.fit.list ++ (joiningOf s (storiesOfFace s f)).map fun id => ⟨id, 0⟩ } := by
  rw [loadFace_eq]
  exact (faceTaken_offers f _ s h rfl).fit

theorem storyOf_loadFace_named {id : Nat} {st : Story} (hst : storyOf s id = some st)
    (hface : st.setting.face = f) : storyOf (loadFace f w minSpace maxSpace s) id = some { st with
      fit := { st.fit with
        status := if id ∈ joiningOf s (storiesOfFace s f) ∨ st.fit.status = .pending then .pending
          else .unknown } } := by
  have htaken : storyOf (faceTaken f (tableFace w minSpace maxSpace (s.faces[f].generation + 1)) s)
      id = some { st with fit := st.fit.outdate } := by
    rw [storyOf_faceTaken, hst, Option.map_some, outdateFace_named hface]
  rw [loadFace_eq, (faceTaken_offers f _ s h rfl).offered id
    ((mem_storiesOfFace h).mpr ⟨st, hst, hface⟩) _ htaken, FitRecord.outdate_eq]
  by_cases hp : st.fit.status = .pending
  · simp [hp]
  · simp [hp]

theorem storyOf_loadFace_other {id : Nat} {st : Story} (hst : storyOf s id = some st)
    (hface : st.setting.face ≠ f) : storyOf (loadFace f w minSpace maxSpace s) id = some st := by
  have hnot : id ∉ storiesOfFace s f := fun hid => by
    obtain ⟨st', hst', hface'⟩ := (mem_storiesOfFace h).mp hid
    cases hst.symm.trans hst'
    exact hface hface'
  rw [loadFace_eq, (faceTaken_offers f _ s h rfl).others id hnot, storyOf_faceTaken, hst,
    Option.map_some, outdateFace_other hface]

end

/-! ### The table in a body (R119) -/

theorem tableBad_iff (w : List Byte) (a b : Nat) : tableBad w a b = true ↔
    (∃ x ∈ w, 36 < x.toNat) ∨ u8 w 0 = 0 ∨ a = 0 ∨ u8 w 0 < a ∨ b < u8 w 0 ∨ 36 < b := by
  simp only [tableBad, Bool.or_eq_true, List.any_eq_true, decide_eq_true_iff, or_assoc]

/-- The 95 widths of a SET WIDTHS body. -/
def bodyTable (body : List Byte) : List Byte := (body.drop 3).take 95

theorem u8_bodyTable (body : List Byte) (i : Fin 95) : u8 (bodyTable body) i = u8 body (3 + i) := by
  unfold u8 bodyTable
  rw [List.getD_eq_getElem?_getD, List.getD_eq_getElem?_getD, List.getElem?_take_of_lt i.isLt,
    List.getElem?_drop]

theorem length_bodyTable {body : List Byte} (h : 98 ≤ body.length) : (bodyTable body).length = 95 := by
  rw [bodyTable, List.length_take, List.length_drop]
  omega

theorem wide_in_bodyTable {body : List Byte} (h : 98 ≤ body.length) :
    (∃ x ∈ bodyTable body, 36 < x.toNat) ↔ ∃ i : Fin 95, 36 < u8 body (3 + i) := by
  have hlen := length_bodyTable h
  have hat : ∀ i, (hi : i < (bodyTable body).length) →
      u8 body (3 + i) = (bodyTable body)[i].toNat := fun i hi =>
    (u8_bodyTable body ⟨i, by omega⟩).symm.trans
      (congrArg BitVec.toNat (List.getD_eq_getElem _ _ hi))
  constructor
  · rintro ⟨x, hx, hwide⟩
    obtain ⟨i, hi, rfl⟩ := List.mem_iff_getElem.mp hx
    exact ⟨⟨i, by omega⟩, by rw [hat i hi]; exact hwide⟩
  · rintro ⟨i, hwide⟩
    have hi : i.val < (bodyTable body).length := by omega
    exact ⟨_, List.getElem_mem hi, by rw [← hat i hi]; exact hwide⟩

theorem bodyTable_bad_iff {body : List Byte} (h : 98 ≤ body.length) :
    tableBad (bodyTable body) (u8 body 1) (u8 body 2) = true ↔
      ((∃ i : Fin 95, 36 < u8 body (3 + i)) ∨ u8 body 3 = 0 ∨ u8 body 1 = 0 ∨
        u8 body 3 < u8 body 1 ∨ u8 body 2 < u8 body 3 ∨ 36 < u8 body 2) := by
  rw [tableBad_iff, wide_in_bodyTable h, show u8 (bodyTable body) 0 = u8 body 3 from
    u8_bodyTable body 0]

theorem tableFace_bodyTable (body : List Byte) (a b : Nat) (g : Word16) :
    tableFace (bodyTable body) a b g = ⟨true, Vector.ofFn fun i => u8 body (3 + i), a, b, g⟩ := by
  unfold tableFace
  simp only [u8_bodyTable]

/-! ### SET WIDTHS (R119) -/

section
variable {body : List Byte} {s : State}

theorem ownSetWidths_range (h : 8 ≤ u8 body 0) : ownSetWidths body s = refuse .range s := by
  unfold ownSetWidths
  rw [inRange_eq_none h]

variable {f : Fin 8} (h0 : u8 body 0 = f.val)
include h0

theorem ownSetWidths_bad (h : tableBad (bodyTable body) (u8 body 1) (u8 body 2) = true) :
    ownSetWidths body s = refuse .range s := by
  unfold ownSetWidths
  rw [inRange_of_val h0]
  exact if_pos h

variable (h : tableBad (bodyTable body) (u8 body 1) (u8 body 2) = false)
include h

theorem ownSetWidths_busy {c : Fin 4} (hc : faceBusy s f = some c) :
    ownSetWidths body s = refuseWith .busy (e8 c) s := by
  unfold ownSetWidths
  rw [inRange_of_val h0]
  refine (if_neg (by rw [← bodyTable, h]; exact Bool.false_ne_true)).trans ?_
  rw [hc]

theorem ownSetWidths_loads (hfree : faceBusy s f = none) {u : State}
    (hu : u = loadFace f (bodyTable body) (u8 body 1) (u8 body 2) s) : ownSetWidths body s =
      (u, ⟨.ok, eWord (s.faces[f].generation + 1) ++ e16 (storiesOfFace u f).length ++
        e16 ((storiesOfFace u f).countP (isUnknown u))⟩) := by
  have hgeneration : u.faces[f].generation = s.faces[f].generation + 1 := by
    rw [hu, loadFace_faces]
    exact congrArg Face.generation (Vector.getElem_set_self f.isLt)
  rw [← hgeneration, List.countP_eq_length_filter, hu]
  unfold ownSetWidths
  rw [inRange_of_val h0]
  refine (if_neg (by rw [← bodyTable, h]; exact Bool.false_ne_true)).trans ?_
  rw [hfree]
  rfl

end

theorem setWidthsLoadsTheFace : Clause.SetWidthsLoadsTheFace := by
  intro tag body s hn ht
  refine ⟨fun h => refuses_of_own rfl ht hn (ownSetWidths_range h), fun f h0 =>
    ⟨fun hbad => ?_, fun hwidths hmin hnormal hmax hlast => ?_⟩⟩
  · exact refuses_of_own rfl ht hn (ownSetWidths_bad h0 ((bodyTable_bad_iff hn).mpr hbad))
  have hgood : tableBad (bodyTable body) (u8 body 1) (u8 body 2) = false :=
    Bool.eq_false_iff.mpr fun h => by
      rcases (bodyTable_bad_iff hn).mp h with ⟨i, hi⟩ | hrest
      · exact absurd (hwidths i) (Nat.not_le.mpr hi)
      · omega
  refine ⟨fun c hc => ?_, fun hfree => ?_⟩
  · exact reads_of_own rfl ht hn (ownSetWidths_busy (s := dropHead s) h0 hgood hc)
  have hown := ownSetWidths_loads (s := dropHead s) h0 hgood hfree rfl
  refine ⟨_, replies_of_own rfl ht hn (congrArg Prod.snd hown) ?_ (by decide) ?_⟩
  · rw [hown]
    exact loadFace_keeps _ _ _ _ _
  rw [hown]
  refine ⟨rfl, fun hwf => ?_, ?_, fun hwf id st hst hface => ?_⟩
  · have hids := storiesOfFace_loadFace f (bodyTable body) (u8 body 1) (u8 body 2) (dropHead s) hwf
    refine ⟨storiesOfFace s f, joiningOf s (storiesOfFace s f), pairwise_storiesOfFace hwf f,
      fun id => mem_storiesOfFace hwf, rfl, ?_,
      loadFace_fit f (bodyTable body) (u8 body 1) (u8 body 2) (dropHead s) hwf,
      fun id st hst hface =>
        storyOf_loadFace_named f (bodyTable body) (u8 body 1) (u8 body 2) (dropHead s) hwf hst hface⟩
    rw [hids]
    rfl
  · refine (loadFace_faces f (bodyTable body) (u8 body 1) (u8 body 2) (dropHead s)).trans ?_
    rw [tableFace_bodyTable]
    rfl
  · exact storyOf_loadFace_other f (bodyTable body) (u8 body 1) (u8 body 2) (dropHead s) hwf hst hface

/-- Settles O43: the stories of the face are offered one after another (foldl_autoOffer), and a changed setting offers its story or takes it out of the Fit Queue (changeSetting_offers, changeSetting_leaves). -/
theorem facesAndSettingsAreStored : Obligations.FacesAndSettingsAreStored :=
  ⟨setWidthsLoadsTheFace, setSettingStoresTheClampedSetting, clampedSettingsAreLegal⟩

end Sys2Proof.Machine
end
